-- ==== Sys2Proof/Word.lean ====
section
/-! DEFINITION. The word types of the model: register words, doublewords, bytes, virtual addresses, and the numbers that
name contexts, general registers and event sources. -/

namespace Sys2Proof

/-- A device register word (R5). -/
abbrev Word := BitVec 32

/-- A general register's value (R109). -/
abbrev Dword := BitVec 64

/-- The smallest addressable unit of memory. -/
abbrev Byte := BitVec 8

/-- A virtual address (R111): bits [47:0]. -/
abbrev VAddr := BitVec 48

/-- A context number, 0–127 (R74). -/
abbrev Ctx := Fin 128

/-- A general register number (R109). -/
abbrev Gpr := BitVec 5

/-- A 72-bit pattern over the positions of one stored word (R525): a 1 is a bit read inverted. -/
abbrev Flips := BitVec 72

end Sys2Proof
end

