-- ==== Sys2Proof/Syntax.lean ====
section
/-! DEFINITION. The commands of the SX1640: one constructor for each row of spec/opcode_table.json, with the operands that
what each step holds needs (95_what_each_step_holds.md). A row that is an instruction of a Hymota context carries the context and
the instruction's fields (R132 to R166); a row that is a register access carries the initiator and the data; a row that is an
outside event carries what arrives. -/

namespace Sys2Proof.Machine

/-- Who issues an access (R14). Only a context carries a Lining bit (R12), and IDs 201–255 are never issued. -/
inductive Who where
  | ctx (c : Ctx) (lining : Bool)
  | shuttle (n : Fin 64)
  | presser
  | pipe (p : Fin 4)
  | spool
  | seam
  | debug
  | mailbox
  deriving DecidableEq, Repr

/-- The traffic classes of R14 and R228. -/
inductive TClass where
  | rt0 | rt1 | be | bk
  deriving DecidableEq, Repr

/-- The functions of the atomic operations (R160); compare-and-swap carries the value compared with. -/
inductive AmOp where
  | swap | add | sub | and | or | xor | mins | maxs | minu | maxu | incw
  | cas (expected : Dword)
  deriving DecidableEq, Repr

/-- What a fabric request does at its target (R11): a read, a write of bytes, a full-line write (R217) or an atomic operation. -/
inductive ReqKind where
  | read
  | write (data : List Byte)
  | fullLine (data : List Byte)
  | atomic (op : AmOp) (operand : Dword)
  deriving DecidableEq, Repr

/-- A fabric request (R11), made with or without I/O coherence (R213, R221). The size is in bytes. -/
structure Request where
  who : Who
  cls : TClass
  kind : ReqKind
  addr : Nat
  len : Nat
  coh : Bool
  deriving DecidableEq, Repr

/-- The arrays of stored words that carry the code of R231: a memory or a block's window, the caches, the TLBs, and the island's
SRAM (R425). -/
inductive Site where
  | memory
  | l1i (core : Fin 16)
  | l1d (core : Fin 16)
  | l2 (quad : Fin 4)
  | itlb (core : Fin 16)
  | dtlb (core : Fin 16)
  | tlb2 (core : Fin 16)
  | island
  deriving DecidableEq, Repr

/-- One upset: the array, the physical address of the word (for a TLB the place of the entry, in the
island its place in the SRAM), and the bits inverted (R525). -/
structure Upset where
  site : Site
  addr : Nat
  flips : Flips
  deriving DecidableEq, Repr

/-- Physical upsets that strike stored words before a read (R231, R525). -/
abbrev Upsets := List Upset

/-- The 18 register blocks of R17, in the order of their bases. -/
inductive Block where
  | sys | evc | psq | mem | fab | shu | prs | dp0 | dp1 | dp2 | dp3 | spl | seam | tmr | pin | selm | dbg | hyc
  deriving DecidableEq, Repr

/-- The asynchronous Lining causes of R187, in the order of their lpend bits: 0x22, 0x21, 0x20 and 0x23. -/
inductive LCause where
  | lockstep | ecc | machineCheck | lag
  deriving DecidableEq, Repr

/-- The sink's answers to the attempts of a link training (R283), phase by phase: clock recovery and channel equalisation. An answer says
whether the phase succeeded, and the voltage swing and pre-emphasis of DPCD 0x00206–0x00207 that the next attempt applies. -/
structure TrainAnswers where
  cr : List (Bool × BitVec 16)
  eq : List (Bool × BitVec 16)
  deriving DecidableEq, Repr

/-- What the boot ROM reads for a copy of the image (R496): the QSPI flash by a command and a 3-byte address, a boot partition of the eMMC from a byte
on, or the file that DHCP names, over the management port with the MAC address from the fuses, in its n-th attempt. -/
inductive BootRead where
  | qspi (command : BitVec 8) (addr : BitVec 24)
  | emmc (partition byte : Nat)
  | network (mac : BitVec 48) (attempt : Nat)
  deriving DecidableEq, Repr

/-- What a medium gives the boot ROM for a copy of the image (R496, R498): the read that it answers, and the bytes, or none where the read fails. -/
structure BootCopy where
  source : BootRead
  image : Option (List Byte)
  deriving DecidableEq, Repr

/-- The amount operand of a shift (R146): an immediate or a register. -/
inductive Amt where
  | imm (n : BitVec 6)
  | reg (r : Gpr)
  deriving DecidableEq, Repr

end Sys2Proof.Machine

namespace Sys2Proof
open Machine

/-- The commands, in the order of spec/opcode_table.json. -/
inductive Instr where
  /-- FABRIC_REQUEST (R19). -/
  | fabricRequest (r : Request)
  /-- FABRIC_MEMORY_RESPONSE (R13). -/
  | fabricMemoryResponse (t : Fin 37) (upsets : Upsets)
  /-- DDR_READ_RESPONSE (R230). -/
  | ddrReadResponse (ch : Fin 4) (slot : Fin 64) (upsets : Upsets)
  /-- REGISTER_WRITE (R6). -/
  | registerWrite (who : Who) (addr : Nat) (data hwSet : Word)
  /-- BLOCK_CLEARING_END (R39). -/
  | blockClearingEnd (b : Block)
  /-- DTADJ_WRITE (R31). -/
  | dtadjWrite (who : Who) (data : Word)
  /-- DTINCL_WRITE (R34). -/
  | dtinclWrite (who : Who) (data : Word)
  /-- DTSTEP_REQUEST (R33). -/
  | dtstepRequest (who : Who) (data : Word)
  /-- DTSTEP_ACT (R33). -/
  | dtstepAct
  /-- DTF_READ (R35). -/
  | dtfRead (who : Who)
  /-- PERIOD_START (R56). -/
  | periodStart (l : Fin 16) (upsets : Upsets)
  /-- PSQ_NOP (R45). -/
  | psqNop (l : Fin 16)
  /-- PSQ_END (R45). -/
  | psqEnd (l : Fin 16)
  /-- PSQ_HALT (R45). -/
  | psqHalt (l : Fin 16)
  /-- PSQ_SEL (R45). -/
  | psqSel (l : Fin 16)
  /-- PSQ_REP (R45). -/
  | psqRep (l : Fin 16)
  /-- PSQ_UNIMPLEMENTED_OP (R44). -/
  | psqUnimplementedOp (l : Fin 16)
  /-- PSQ_WAKE (R48). -/
  | psqWake (l : Fin 16)
  /-- PSQ_SHUT (R48). -/
  | psqShut (l : Fin 16)
  /-- PSQ_PRESS (R48). -/
  | psqPress (l : Fin 16)
  /-- PSQ_GATE (R48). -/
  | psqGate (l : Fin 16)
  /-- PSQ_MIX (R48). -/
  | psqMix (l : Fin 16)
  /-- PSQ_WREG (R48). -/
  | psqWreg (l : Fin 16)
  /-- PSQ_RAISE (R48). -/
  | psqRaise (l : Fin 16)
  /-- COMPLETION_RECOGNISED (R49). -/
  | completionRecognised (l : Fin 16) (k : Nat)
  /-- JDONE_WRITE (R51). -/
  | jdoneWrite (who : Who) (data : Word)
  /-- SWAP_FLIP (R62). -/
  | swapFlip (who : Who) (data : Word)
  /-- LANE_START (R67). -/
  | laneStart (who : Who) (l : Fin 16)
  /-- LANE_STOP (R68). -/
  | laneStop (who : Who) (l : Fin 16)
  /-- LANE_FINISH (R58). -/
  | laneFinish (who : Who) (l : Fin 16)
  /-- LANE_STOPPED (R68). -/
  | laneStopped (l : Fin 16)
  /-- WHEEL_WRITE (R81). -/
  | wheelWrite (who : Who) (k : Fin 16) (data : Word)
  /-- WHEEL_APPLIED (R81). -/
  | wheelApplied (k : Fin 16)
  /-- CCTL_WRITE (R83). -/
  | cctlWrite (who : Who) (c : Ctx) (data : Word)
  /-- TARGET_BUFFER_FLUSH (R89). -/
  | targetBufferFlush (who : Who) (k : Fin 16)
  /-- CONTEXT_START (R98). -/
  | contextStart (who : Who) (c : Ctx)
  /-- CONTEXT_KILL (R99). -/
  | contextKill (who : Who) (c : Ctx)
  /-- KILL_COMPLETE (R99). -/
  | killComplete (c : Ctx)
  /-- LOCKSTEP_MISMATCH (R105). -/
  | lockstepMismatch (kind : BitVec 3)
  /-- HALT_REQUEST (R528). -/
  | haltRequest (who : Who) (w : Fin 4) (data : Word)
  /-- CONTEXT_HALT (R528). -/
  | contextHalt (c : Ctx)
  /-- CONTEXT_RESUME (R529). -/
  | contextResume (who : Who) (w : Fin 4) (data : Word)
  /-- DBG_RDATL_READ (R530). -/
  | dbgRdatlRead (who : Who)
  /-- DBG_RDATL_WRITE (R530). -/
  | dbgRdatlWrite (who : Who) (data : Word)
  /-- TAP_BYPASS (R533). -/
  | tapBypass (code : BitVec 4)
  /-- TAP_IDCODE (R533). -/
  | tapIdcode
  /-- DBGACC_UPDATE (R533). -/
  | dbgaccUpdate (dr : BitVec 73)
  /-- DBGACC_CAPTURE (R533). -/
  | dbgaccCapture
  /-- ADD (R142). -/
  | add (c : Ctx) (sf : Bool) (rd rs1 rs2 : Gpr)
  /-- SUB (R142). -/
  | sub (c : Ctx) (sf : Bool) (rd rs1 rs2 : Gpr)
  /-- ADDC (R142). -/
  | addc (c : Ctx) (sf : Bool) (rd rs1 rs2 : Gpr)
  /-- SUBC (R142). -/
  | subc (c : Ctx) (sf : Bool) (rd rs1 rs2 : Gpr)
  /-- AND (R142). -/
  | andR (c : Ctx) (sf : Bool) (rd rs1 rs2 : Gpr)
  /-- OR (R142). -/
  | orR (c : Ctx) (sf : Bool) (rd rs1 rs2 : Gpr)
  /-- XOR (R142). -/
  | xorR (c : Ctx) (sf : Bool) (rd rs1 rs2 : Gpr)
  /-- ANDN (R142). -/
  | andn (c : Ctx) (sf : Bool) (rd rs1 rs2 : Gpr)
  /-- ORN (R142). -/
  | orn (c : Ctx) (sf : Bool) (rd rs1 rs2 : Gpr)
  /-- SLT (R142). -/
  | slt (c : Ctx) (rd rs1 rs2 : Gpr)
  /-- SLTU (R142). -/
  | sltu (c : Ctx) (rd rs1 rs2 : Gpr)
  /-- MIN (R142). -/
  | minS (c : Ctx) (rd rs1 rs2 : Gpr)
  /-- MAX (R142). -/
  | maxS (c : Ctx) (rd rs1 rs2 : Gpr)
  /-- MINU (R142). -/
  | minu (c : Ctx) (rd rs1 rs2 : Gpr)
  /-- MAXU (R142). -/
  | maxu (c : Ctx) (rd rs1 rs2 : Gpr)
  /-- ADDW (R142). -/
  | addw (c : Ctx) (sf : Bool) (rd rs1 rs2 : Gpr)
  /-- SUBW (R142). -/
  | subw (c : Ctx) (sf : Bool) (rd rs1 rs2 : Gpr)
  /-- SEXTB (R142). -/
  | sextb (c : Ctx) (rd rs1 : Gpr)
  /-- SEXTH (R142). -/
  | sexth (c : Ctx) (rd rs1 : Gpr)
  /-- SEXTW (R142). -/
  | sextw (c : Ctx) (rd rs1 : Gpr)
  /-- ZEXTB (R142). -/
  | zextb (c : Ctx) (rd rs1 : Gpr)
  /-- ZEXTH (R142). -/
  | zexth (c : Ctx) (rd rs1 : Gpr)
  /-- ZEXTW (R142). -/
  | zextw (c : Ctx) (rd rs1 : Gpr)
  /-- CLZ (R142). -/
  | clz (c : Ctx) (rd rs1 : Gpr)
  /-- CTZ (R142). -/
  | ctz (c : Ctx) (rd rs1 : Gpr)
  /-- POPC (R142). -/
  | popc (c : Ctx) (rd rs1 : Gpr)
  /-- BSWAP (R142). -/
  | bswap (c : Ctx) (rd rs1 : Gpr)
  /-- CPICK (R142). -/
  | cpick (c : Ctx) (cond : BitVec 4) (rd rs1 rs2 : Gpr)
  /-- ADDI (R144). -/
  | addi (c : Ctx) (rd rs1 : Gpr) (imm : BitVec 16)
  /-- ANDI (R144). -/
  | andi (c : Ctx) (rd rs1 : Gpr) (imm : BitVec 16)
  /-- ORI (R144). -/
  | ori (c : Ctx) (rd rs1 : Gpr) (imm : BitVec 16)
  /-- XORI (R144). -/
  | xori (c : Ctx) (rd rs1 : Gpr) (imm : BitVec 16)
  /-- SLTI (R144). -/
  | slti (c : Ctx) (rd rs1 : Gpr) (imm : BitVec 16)
  /-- SLTIU (R144). -/
  | sltiu (c : Ctx) (rd rs1 : Gpr) (imm : BitVec 16)
  /-- LUI (R144). -/
  | lui (c : Ctx) (rd : Gpr) (imm : BitVec 21)
  /-- AUIPC (R144). -/
  | auipc (c : Ctx) (rd : Gpr) (imm : BitVec 21)
  /-- MUL_LO (R145). -/
  | mulLo (c : Ctx) (rd rs1 rs2 : Gpr)
  /-- MUL_HS (R145). -/
  | mulHs (c : Ctx) (rd rs1 rs2 : Gpr)
  /-- MUL_HU (R145). -/
  | mulHu (c : Ctx) (rd rs1 rs2 : Gpr)
  /-- MUL_HX (R145). -/
  | mulHx (c : Ctx) (rd rs1 rs2 : Gpr)
  /-- MUL_W (R145). -/
  | mulW (c : Ctx) (rd rs1 rs2 : Gpr)
  /-- QUO_S (R145). -/
  | quoS (c : Ctx) (rd rs1 rs2 : Gpr)
  /-- QUO_U (R145). -/
  | quoU (c : Ctx) (rd rs1 rs2 : Gpr)
  /-- RMD_S (R145). -/
  | rmdS (c : Ctx) (rd rs1 rs2 : Gpr)
  /-- RMD_U (R145). -/
  | rmdU (c : Ctx) (rd rs1 rs2 : Gpr)
  /-- QUO_SW (R145). -/
  | quoSw (c : Ctx) (rd rs1 rs2 : Gpr)
  /-- QUO_UW (R145). -/
  | quoUw (c : Ctx) (rd rs1 rs2 : Gpr)
  /-- RMD_SW (R145). -/
  | rmdSw (c : Ctx) (rd rs1 rs2 : Gpr)
  /-- RMD_UW (R145). -/
  | rmdUw (c : Ctx) (rd rs1 rs2 : Gpr)
  /-- SLL (R146). -/
  | sll (c : Ctx) (rd rs1 : Gpr) (amt : Amt)
  /-- SRL (R146). -/
  | srl (c : Ctx) (rd rs1 : Gpr) (amt : Amt)
  /-- SRA (R146). -/
  | sra (c : Ctx) (rd rs1 : Gpr) (amt : Amt)
  /-- ROR (R146). -/
  | ror (c : Ctx) (rd rs1 : Gpr) (amt : Amt)
  /-- SLLW (R146). -/
  | sllw (c : Ctx) (rd rs1 : Gpr) (amt : Amt)
  /-- SRLW (R146). -/
  | srlw (c : Ctx) (rd rs1 : Gpr) (amt : Amt)
  /-- SRAW (R146). -/
  | sraw (c : Ctx) (rd rs1 : Gpr) (amt : Amt)
  /-- LB (R147). -/
  | lb (c : Ctx) (rd rs1 : Gpr) (imm : BitVec 16)
  /-- LH (R147). -/
  | lh (c : Ctx) (rd rs1 : Gpr) (imm : BitVec 16)
  /-- LW (R147). -/
  | lw (c : Ctx) (rd rs1 : Gpr) (imm : BitVec 16)
  /-- LD (R147). -/
  | ld (c : Ctx) (rd rs1 : Gpr) (imm : BitVec 16)
  /-- LBU (R147). -/
  | lbu (c : Ctx) (rd rs1 : Gpr) (imm : BitVec 16)
  /-- LHU (R147). -/
  | lhu (c : Ctx) (rd rs1 : Gpr) (imm : BitVec 16)
  /-- LWU (R147). -/
  | lwu (c : Ctx) (rd rs1 : Gpr) (imm : BitVec 16)
  /-- LP24 (R147). -/
  | lp24 (c : Ctx) (rd rs1 : Gpr) (imm : BitVec 16)
  /-- SB (R147). -/
  | sb (c : Ctx) (rs2 rs1 : Gpr) (imm : BitVec 16)
  /-- SH (R147). -/
  | sh (c : Ctx) (rs2 rs1 : Gpr) (imm : BitVec 16)
  /-- SW (R147). -/
  | sw (c : Ctx) (rs2 rs1 : Gpr) (imm : BitVec 16)
  /-- SD (R147). -/
  | sd (c : Ctx) (rs2 rs1 : Gpr) (imm : BitVec 16)
  /-- SP24 (R147). -/
  | sp24 (c : Ctx) (rs2 rs1 : Gpr) (imm : BitVec 16)
  /-- PADD (R149). -/
  | padd (c : Ctx) (px : Bool) (rd rs1 rs2 : Gpr)
  /-- PSUB (R149). -/
  | psub (c : Ctx) (px : Bool) (rd rs1 rs2 : Gpr)
  /-- PMUL (R149). -/
  | pmul (c : Ctx) (px : Bool) (rd rs1 rs2 : Gpr)
  /-- PMIN (R149). -/
  | pmin (c : Ctx) (px : Bool) (rd rs1 rs2 : Gpr)
  /-- PMAX (R149). -/
  | pmax (c : Ctx) (px : Bool) (rd rs1 rs2 : Gpr)
  /-- PAVG (R149). -/
  | pavg (c : Ctx) (px : Bool) (rd rs1 rs2 : Gpr)
  /-- PABS (R149). -/
  | pabs (c : Ctx) (rd rs1 : Gpr)
  /-- PNEG (R149). -/
  | pneg (c : Ctx) (rd rs1 : Gpr)
  /-- PSRA (R149). -/
  | psra (c : Ctx) (rd rs1 rs2 : Gpr)
  /-- PSLS (R149). -/
  | psls (c : Ctx) (rd rs1 rs2 : Gpr)
  /-- PSWAP (R149). -/
  | pswap (c : Ctx) (px : Bool) (rd rs1 : Gpr)
  /-- PDUP (R149). -/
  | pdup (c : Ctx) (px : Bool) (rd rs1 : Gpr)
  /-- X4P (R149). -/
  | x4p (c : Ctx) (rd rs1 : Gpr)
  /-- P4X (R149). -/
  | p4x (c : Ctx) (px : Bool) (rd rs1 : Gpr)
  /-- FADD (R150). -/
  | fadd (c : Ctx) (dbl : Bool) (rd rs1 rs2 : Gpr)
  /-- FSUB (R150). -/
  | fsub (c : Ctx) (dbl : Bool) (rd rs1 rs2 : Gpr)
  /-- FMUL (R150). -/
  | fmul (c : Ctx) (dbl : Bool) (rd rs1 rs2 : Gpr)
  /-- FDIV (R150). -/
  | fdiv (c : Ctx) (dbl : Bool) (rd rs1 rs2 : Gpr)
  /-- FSQRT (R150). -/
  | fsqrt (c : Ctx) (dbl : Bool) (rd rs1 : Gpr)
  /-- FMAC (R150). -/
  | fmac (c : Ctx) (dbl : Bool) (rd rs1 rs2 : Gpr)
  /-- FMIN (R151). -/
  | fmin (c : Ctx) (dbl : Bool) (rd rs1 rs2 : Gpr)
  /-- FMAX (R151). -/
  | fmax (c : Ctx) (dbl : Bool) (rd rs1 rs2 : Gpr)
  /-- FNEG (R151). -/
  | fneg (c : Ctx) (dbl : Bool) (rd rs1 : Gpr)
  /-- FABS (R151). -/
  | fabs (c : Ctx) (dbl : Bool) (rd rs1 : Gpr)
  /-- FEQ (R151). -/
  | feq (c : Ctx) (dbl : Bool) (rd rs1 rs2 : Gpr)
  /-- FLT (R151). -/
  | flt (c : Ctx) (dbl : Bool) (rd rs1 rs2 : Gpr)
  /-- FLE (R151). -/
  | fle (c : Ctx) (dbl : Bool) (rd rs1 rs2 : Gpr)
  /-- FCMP (R151). -/
  | fcmp (c : Ctx) (dbl : Bool) (rs1 rs2 : Gpr)
  /-- FCLASS (R151). -/
  | fclass (c : Ctx) (dbl : Bool) (rd rs1 : Gpr)
  /-- CVT (R152). -/
  | cvt (c : Ctx) (src dst : BitVec 3) (rd rs1 : Gpr)
  /-- BEQ (R153). -/
  | beq (c : Ctx) (annul : Bool) (rs1 rs2 : Gpr) (disp : BitVec 15)
  /-- BNE (R153). -/
  | bne (c : Ctx) (annul : Bool) (rs1 rs2 : Gpr) (disp : BitVec 15)
  /-- BLT (R153). -/
  | blt (c : Ctx) (annul : Bool) (rs1 rs2 : Gpr) (disp : BitVec 15)
  /-- BGE (R153). -/
  | bge (c : Ctx) (annul : Bool) (rs1 rs2 : Gpr) (disp : BitVec 15)
  /-- BLTU (R153). -/
  | bltu (c : Ctx) (annul : Bool) (rs1 rs2 : Gpr) (disp : BitVec 15)
  /-- BGEU (R153). -/
  | bgeu (c : Ctx) (annul : Bool) (rs1 rs2 : Gpr) (disp : BitVec 15)
  /-- BF (R153). -/
  | bf (c : Ctx) (cond : BitVec 4) (annul : Bool) (disp : BitVec 21)
  /-- J (R153). -/
  | jump (c : Ctx) (disp : BitVec 26)
  /-- CALL (R153). -/
  | call (c : Ctx) (disp : BitVec 26)
  /-- JR (R153). -/
  | jr (c : Ctx) (rs1 : Gpr)
  /-- CALLR (R153). -/
  | callr (c : Ctx) (rs1 : Gpr)
  /-- RET (R153). -/
  | ret (c : Ctx)
  /-- LOOP (R154). -/
  | hwLoop (c : Ctx) (rs1 : Gpr) (len : BitVec 16)
  /-- MOVE (R157). -/
  | moveB (c : Ctx)
  /-- FILL (R157). -/
  | fill (c : Ctx) (es : BitVec 2)
  /-- CMP (R157). -/
  | cmp (c : Ctx) (es : BitVec 2)
  /-- SCAN (R157). -/
  | scan (c : Ctx) (es : BitVec 2)
  /-- AM_SWAP (R160). -/
  | amSwap (c : Ctx) (ord : BitVec 2) (sz : Bool) (rd rs1 rs2 : Gpr)
  /-- AM_ADD (R160). -/
  | amAdd (c : Ctx) (ord : BitVec 2) (sz : Bool) (rd rs1 rs2 : Gpr)
  /-- AM_SUB (R160). -/
  | amSub (c : Ctx) (ord : BitVec 2) (sz : Bool) (rd rs1 rs2 : Gpr)
  /-- AM_AND (R160). -/
  | amAnd (c : Ctx) (ord : BitVec 2) (sz : Bool) (rd rs1 rs2 : Gpr)
  /-- AM_OR (R160). -/
  | amOr (c : Ctx) (ord : BitVec 2) (sz : Bool) (rd rs1 rs2 : Gpr)
  /-- AM_XOR (R160). -/
  | amXor (c : Ctx) (ord : BitVec 2) (sz : Bool) (rd rs1 rs2 : Gpr)
  /-- AM_MINS (R160). -/
  | amMins (c : Ctx) (ord : BitVec 2) (sz : Bool) (rd rs1 rs2 : Gpr)
  /-- AM_MAXS (R160). -/
  | amMaxs (c : Ctx) (ord : BitVec 2) (sz : Bool) (rd rs1 rs2 : Gpr)
  /-- AM_MINU (R160). -/
  | amMinu (c : Ctx) (ord : BitVec 2) (sz : Bool) (rd rs1 rs2 : Gpr)
  /-- AM_MAXU (R160). -/
  | amMaxu (c : Ctx) (ord : BitVec 2) (sz : Bool) (rd rs1 rs2 : Gpr)
  /-- AM_INCW (R160). -/
  | amIncw (c : Ctx) (ord : BitVec 2) (sz : Bool) (rd rs1 rs2 : Gpr)
  /-- AM_CAS (R160). -/
  | amCas (c : Ctx) (ord : BitVec 2) (sz : Bool) (rd rs1 rs2 : Gpr)
  /-- FENCE (R162). -/
  | fence (c : Ctx)
  /-- FENCE_S (R162). -/
  | fenceS (c : Ctx)
  /-- FENCE_L (R162). -/
  | fenceL (c : Ctx)
  /-- FENCE_A (R162). -/
  | fenceA (c : Ctx)
  /-- IFENCE (R96). -/
  | ifence (c : Ctx)
  /-- RDC (R163). -/
  | rdc (c : Ctx) (rd : Gpr) (num : BitVec 12)
  /-- WRC (R163). -/
  | wrc (c : Ctx) (rs2 : Gpr) (num : BitVec 12)
  /-- MODE_SHADOW_END (R116). -/
  | modeShadowEnd (c : Ctx)
  /-- EMULATION_TRAP (R137). -/
  | emulationTrap (c : Ctx) (word : Word)
  /-- PIN_IN (R164). -/
  | pinIn (c : Ctx) (rd : Gpr)
  /-- PIN_OUT (R164). -/
  | pinOut (c : Ctx) (rs1 : Gpr)
  /-- PIN_SET (R164). -/
  | pinSet (c : Ctx) (rs1 : Gpr)
  /-- PIN_CLR (R164). -/
  | pinClr (c : Ctx) (rs1 : Gpr)
  /-- PIN_TGL (R164). -/
  | pinTgl (c : Ctx) (rs1 : Gpr)
  /-- PIN_OE (R164). -/
  | pinOe (c : Ctx) (rs1 : Gpr)
  /-- PIN_RDO (R164). -/
  | pinRdo (c : Ctx) (rd : Gpr)
  /-- PIN_RDE (R164). -/
  | pinRde (c : Ctx) (rd : Gpr)
  /-- GATE (R183). -/
  | gate (c : Ctx) (rs1 : Gpr)
  /-- ERET (R176). -/
  | eret (c : Ctx)
  /-- STOP (R101). -/
  | stop (c : Ctx)
  /-- SLEEP (R251). -/
  | sleep (c : Ctx)
  /-- TACK (R194). -/
  | tack (c : Ctx) (rs1 : Gpr)
  /-- UNTACK (R195). -/
  | untack (c : Ctx)
  /-- BRK (R531). -/
  | brk (c : Ctx)
  /-- TLBI_VA (R211). -/
  | tlbiVa (c : Ctx) (rs1 rs2 : Gpr)
  /-- TLBI_AS (R211). -/
  | tlbiAs (c : Ctx) (rs2 : Gpr)
  /-- TLBI_ALL (R211). -/
  | tlbiAll (c : Ctx)
  /-- DC_CLN (R217). -/
  | dcCln (c : Ctx) (rs1 : Gpr)
  /-- DC_INV (R217). -/
  | dcInv (c : Ctx) (rs1 : Gpr)
  /-- DC_CI (R217). -/
  | dcCi (c : Ctx) (rs1 : Gpr)
  /-- DC_ZERO (R217). -/
  | dcZero (c : Ctx) (rs1 : Gpr)
  /-- LINE_FILL_COMPLETE (R216). -/
  | lineFillComplete (c : Ctx) (upsets : Upsets)
  /-- TABLE_WALK (R207). -/
  | tableWalk (c : Ctx) (upsets : Upsets)
  /-- LATCH_REFILL (R125). -/
  | latchRefill (c : Ctx)
  /-- EXCEPTION_ENTRY (R174). -/
  | exceptionEntry (c : Ctx)
  /-- EVENT_ENTRY (R192). -/
  | eventEntry (c : Ctx)
  /-- ENTRY_FRAME_ACCEPTED (R175). -/
  | entryFrameAccepted (c : Ctx)
  /-- LINING_ENTRY (R185). -/
  | liningEntry (c : Ctx)
  /-- LINING_CAUSE_PENDING (R187). -/
  | liningCausePending (c : Ctx) (cause : LCause)
  /-- TACK_EXPIRY (R195). -/
  | tackExpiry (c : Ctx)
  /-- RSV_WRITE (R229). -/
  | rsvWrite (who : Who) (n : Fin 4) (data : Word)
  /-- RSV_APPLY (R229). -/
  | rsvApply (n : Fin 4)
  /-- DDR_SCRUB_READ (R235). -/
  | ddrScrubRead (n : Fin 4) (upsets : Upsets)
  /-- FM_SCRUB_READ (R235). -/
  | fmScrubRead (upsets : Upsets)
  /-- DDR_MACHINE_CHECK (R236). -/
  | ddrMachineCheck (n : Fin 4) (kind : Fin 3)
  /-- DRAMSZ_WRITE (R489). -/
  | dramszWrite (who : Who) (data : Word)
  /-- CHANNEL_TRAINED (R489). -/
  | channelTrained (n : Fin 4) (ok : Bool)
  /-- EVENT_OCCURRENCE (R239). -/
  | eventOccurrence (n : Fin 1536)
  /-- GROUP_DEADLINE (R253). -/
  | groupDeadline (g : Fin 256)
  /-- EVC_DOORBELL (R239). -/
  | evcDoorbell (who : Who) (data : Word)
  /-- EVENT_CLAIM (R244). -/
  | eventClaim (sixth : Option Ctx)
  /-- EVC_CLAIM_READ (R245). -/
  | evcClaimRead (who : Who)
  /-- EVC_COMPLETE (R247). -/
  | evcComplete (who : Who) (data : Word)
  /-- SOURCE_RELEASE (R248). -/
  | sourceRelease (c : Ctx)
  /-- SCFG_WRITE (R249). -/
  | scfgWrite (who : Who) (n : Fin 1536) (data : Word)
  /-- TGT3_WRITE (R250). -/
  | tgt3Write (who : Who) (n : Fin 1536) (data : Word)
  /-- GROUP_CONFIG_WRITE (R254). -/
  | groupConfigWrite (who : Who) (g : Fin 256) (time : Bool) (data : Word)
  /-- WAKE_EVENT (R252). -/
  | wakeEvent (n : Fin 1536)
  /-- FRAME_LATCH (R263). -/
  | frameLatch (p : Fin 4) (upsets : Upsets)
  /-- COMMIT_GO (R263). -/
  | commitGo (who : Who) (p : Fin 4) (data : Word)
  /-- PIPE_ENABLE (R265). -/
  | pipeEnable (who : Who) (p : Fin 4) (data : Word)
  /-- FRAME_END (R266). -/
  | frameEnd (p : Fin 4)
  /-- LINE_MATCH (R290). -/
  | lineMatch (p : Fin 4)
  /-- LINE_FETCH_START (R300). -/
  | lineFetchStart (p : Fin 4)
  /-- PLANE_FETCH_RESPONSE (R301). -/
  | planeFetchResponse (p : Fin 4) (upsets : Upsets)
  /-- BUDGET_OVERRUN (R302). -/
  | budgetOverrun (p : Fin 4)
  /-- COMPOSE_START (R303). -/
  | composeStart (p : Fin 4)
  /-- OUTSEL_WRITE (R281). -/
  | outselWrite (who : Who) (p : Fin 4) (data : Word)
  /-- LINK_TRAIN (R283). -/
  | linkTrain (who : Who) (p : Fin 4) (data : Word)
  /-- LINK_TRAIN_END (R283). -/
  | linkTrainEnd (p : Fin 4) (answers : TrainAnswers)
  /-- AUX_TRANSACTION (R282). -/
  | auxTransaction (who : Who) (p : Fin 4) (data : Word)
  /-- AUX_DONE (R282). -/
  | auxDone (p : Fin 4) (reply : BitVec 2) (count : Fin 17) (bytes : List Byte)
  /-- HPD_PLUG (R282). -/
  | hpdPlug (p : Fin 4)
  /-- HPD_UNPLUG (R282). -/
  | hpdUnplug (p : Fin 4)
  /-- IRQ_HPD (R282). -/
  | irqHpd (p : Fin 4)
  /-- WRITEBACK_DONE (R287). -/
  | writebackDone (p : Fin 4) (overflow : Bool)
  /-- RR_KICK (R288). -/
  | rrKick (who : Who) (p : Fin 4) (data : Word)
  /-- LL_END (R307). -/
  | llEnd (p : Fin 4)
  /-- LL_WAIT (R307). -/
  | llWait (p : Fin 4)
  /-- LL_WREG (R307). -/
  | llWreg (p : Fin 4)
  /-- LL_WREGT (R307). -/
  | llWregt (p : Fin 4)
  /-- LL_REP (R307). -/
  | llRep (p : Fin 4)
  /-- LL_RAISE (R307). -/
  | llRaise (p : Fin 4)
  /-- PRS_START (R317). -/
  | prsStart (who : Who) (data : Word) (upsets : Upsets)
  /-- PRS_COPY (R320). -/
  | prsCopy (upsets : Upsets)
  /-- PRS_FILL (R320). -/
  | prsFill (upsets : Upsets)
  /-- PRS_CKEY (R320). -/
  | prsCkey (upsets : Upsets)
  /-- PRS_BLEND (R320). -/
  | prsBlend (upsets : Upsets)
  /-- PRS_ROP (R320). -/
  | prsRop (upsets : Upsets)
  /-- PRS_ROPF (R320). -/
  | prsRopf (upsets : Upsets)
  /-- PRS_ROW_LANDED (R323). -/
  | prsRowLanded (upsets : Upsets)
  /-- PRS_ABORT (R328). -/
  | prsAbort (who : Who) (data : Word)
  /-- PRS_ABORT_COMPLETE (R328). -/
  | prsAbortComplete
  /-- SHU_GO (R333). -/
  | shuGo (who : Who) (n : Fin 64)
  /-- SHU_PAUSE (R343). -/
  | shuPause (who : Who) (n : Fin 64)
  /-- SHU_RESUME (R333). -/
  | shuResume (who : Who) (n : Fin 64)
  /-- SHU_ABORT (R345). -/
  | shuAbort (who : Who) (n : Fin 64)
  /-- SHU_LINEAR (R339). -/
  | shuLinear (n : Fin 64)
  /-- SHU_INTERLEAVE (R340). -/
  | shuInterleave (n : Fin 64)
  /-- SHU_DEINTERLEAVE (R340). -/
  | shuDeinterleave (n : Fin 64)
  /-- SHU_SPLIT (R341). -/
  | shuSplit (n : Fin 64)
  /-- SHU_MERGE (R341). -/
  | shuMerge (n : Fin 64)
  /-- SHU_READ_RESPONSE (R336). -/
  | shuReadResponse (n : Fin 64) (upsets : Upsets)
  /-- SHU_PAUSED (R343). -/
  | shuPaused (n : Fin 64)
  /-- SHU_DONE (R344). -/
  | shuDone (n : Fin 64)
  /-- SHU_ABORT_COMPLETE (R345). -/
  | shuAbortComplete (n : Fin 64)
  /-- SAMPLE_TICK (R351). -/
  | sampleTick (upsets : Upsets)
  /-- VOICE_KEY_ON (R356). -/
  | voiceKeyOn (who : Who) (v : Fin 64) (off : Bool)
  /-- VOICE_KEY_OFF (R356). -/
  | voiceKeyOff (who : Who) (v : Fin 64)
  /-- MIX_END (R365). -/
  | mixEnd
  /-- MIX_CLR (R365). -/
  | mixClr
  /-- MIX_MIX (R365). -/
  | mixMix
  /-- MIX_MIXA (R367). -/
  | mixMixa
  /-- MIX_OUT (R365). -/
  | mixOut
  /-- MIX_NOP (R365). -/
  | mixNop
  /-- TDM_RECEIVE_FRAME (R359). -/
  | tdmReceiveFrame (p : Fin 8) (slots : List Word)
  /-- STREAM_ENABLE (R363). -/
  | streamEnable (who : Who) (writer : Bool) (n : Fin 64) (data : Word)
  /-- WRITER_FRAME_LANDED (R362). -/
  | writerFrameLanded (w : Fin 64) (upsets : Upsets)
  /-- PROGRAM_LOAD (R370). -/
  | programLoad (who : Who) (data : Word)
  /-- PROGRAM_LOAD_END (R370). -/
  | programLoadEnd (upsets : Upsets)
  /-- SPL_GAIN_WRITE (R371). -/
  | splGainWrite (who : Who) (g : Fin 1024) (data : Word)
  /-- SPL_ABORT (R372). -/
  | splAbort (who : Who) (data : Word)
  /-- SPL_TSL_READ (R352). -/
  | splTslRead (who : Who)
  /-- FRAME_RECEIVE (R379). -/
  | frameReceive (p : Fin 10) (frame : List Byte) (ago : Nat) (upsets : Upsets)
  /-- FRAME_SELECT (R386). -/
  | frameSelect (p : Fin 10)
  /-- FRAME_TRANSMIT_END (R396). -/
  | frameTransmitEnd (p : Fin 10) (ago : Nat)
  /-- GATE_SET (R386). -/
  | gateSet (who : Who) (p : Fin 8) (data : Word)
  /-- AGEING_SCAN (R380). -/
  | ageingScan (upsets : Upsets)
  /-- CB_RECOVERY_RESET (R385). -/
  | cbRecoveryReset (c : Fin 2048)
  /-- PDELAY_REQ_SEND (R390). -/
  | pdelayReqSend (p : Fin 8)
  /-- SYNC_SEND (R390). -/
  | syncSend (p : Fin 8)
  /-- SYNC_ACCEPT (R391). -/
  | syncAccept
  /-- HOLDOVER_ENTER (R392). -/
  | holdoverEnter
  /-- QUEUE_ENABLE (R394). -/
  | queueEnable (who : Who) (rx : Bool) (q : Fin 8192) (data : Word)
  /-- TX_DOORBELL (R395). -/
  | txDoorbell (who : Who) (data : Word)
  /-- RX_DOORBELL (R395). -/
  | rxDoorbell (who : Who) (data : Word)
  /-- TX_DESCRIPTOR_FETCH (R396). -/
  | txDescriptorFetch (q : Fin 8192) (upsets : Upsets)
  /-- RX_COMPLETION_LANDED (R399). -/
  | rxCompletionLanded (upsets : Upsets)
  /-- QUEUE_ABORT (R401). -/
  | queueAbort (who : Who) (data : Word)
  /-- QUEUE_ABORT_COMPLETE (R401). -/
  | queueAbortComplete (rx : Bool) (q : Fin 8192)
  /-- TELEGRAM_INSERT (R406). -/
  | telegramInsert (who : Who) (k : Fin 32768)
  /-- TELEGRAM_DELETE (R406). -/
  | telegramDelete (who : Who) (k : Fin 32768)
  /-- PUBLISH (R408). -/
  | publish (who : Who) (data : Word)
  /-- TELEGRAM_BUILD (R409). -/
  | telegramBuild (g : Fin 256) (upsets : Upsets)
  /-- SUPERVISION_VISIT (R414). -/
  | supervisionVisit (upsets : Upsets)
  /-- PORT_STATUS_CHANGE (R419). -/
  | portStatusChange (p : Fin 10) (link : Bool) (speed : Fin 6) (verified : Bool)
  /-- MEASUREMENT_SAMPLE (R428). -/
  | measurementSample (streams : List (List Bool))
  /-- MODULATOR_FAULT (R429). -/
  | modulatorFault (ch : Fin 8) (ranged : Bool)
  /-- SECOND_END (R430). -/
  | secondEnd
  /-- DATA_PERIOD_END (R434). -/
  | dataPeriodEnd (verified : Bool)
  /-- TIME_MESSAGE (R432). -/
  | timeMessage (bytes : List Byte)
  /-- PPS_EDGE (R432). -/
  | ppsEdge (after : Fin 1000)
  /-- SYNC_STATE_CHANGE (R433). -/
  | syncStateChange
  /-- POWER_FAIL (R435). -/
  | powerFail
  /-- ISLAND_RESTART (R436). -/
  | islandRestart
  /-- MAILBOX_SEND (R438). -/
  | mailboxSend
  /-- READY_RISE (R440). -/
  | readyRise
  /-- READY_FALL (R440). -/
  | readyFall
  /-- MAILBOX_MESSAGE_WRITE (R442). -/
  | mailboxMessageWrite
  /-- SELM_SLOT_LANDED (R442). -/
  | selmSlotLanded
  /-- SELM_ENABLE (R444). -/
  | selmEnable (who : Who) (data : Word)
  /-- ILINK_CHANGE (R445). -/
  | ilinkChange
  /-- CFG_READ_IDENTITY (R447). -/
  | cfgReadIdentity
  /-- CFG_WRITE_PARAMETERS (R447). -/
  | cfgWriteParameters (block : List Byte)
  /-- CFG_GENERATE_KEY (R447). -/
  | cfgGenerateKey
  /-- CFG_DEBUG_ACCESS (R447). -/
  | cfgDebugAccess
  /-- SEAL (R448). -/
  | seal
  /-- UNSEAL (R449). -/
  | unseal (low : Bool)
  /-- TIMER_TICK (R452). -/
  | timerTick (u : Fin 32)
  /-- TIMER_RELOAD (R453). -/
  | timerReload (u : Fin 32)
  /-- COMPARE_FIRE (R454). -/
  | compareFire (u : Fin 32) (ch : Fin 4)
  /-- CAPTURE (R455). -/
  | capture (u : Fin 32) (ch : Fin 4) (level : Bool)
  /-- TRIGGER_GATE (R458). -/
  | triggerGate (u : Fin 32)
  /-- TRIGGER_RESET (R458). -/
  | triggerReset (u : Fin 32)
  /-- TRIGGER_CLOCK (R458). -/
  | triggerClock (u : Fin 32)
  /-- TRIGGER_START (R458). -/
  | triggerStart (u : Fin 32)
  /-- TIMER_ENABLE (R452). -/
  | timerEnable (who : Who) (u : Fin 32) (data : Word)
  /-- CNTL_READ (R457). -/
  | cntlRead (who : Who) (u : Fin 32)
  /-- CAPL_READ (R456). -/
  | caplRead (who : Who) (u : Fin 32) (ch : Fin 4)
  /-- CNTL_WRITE (R457). -/
  | cntlWrite (who : Who) (u : Fin 32) (data : Word)
  /-- PERL_WRITE (R452). -/
  | perlWrite (who : Who) (u : Fin 32) (data : Word)
  /-- CMPL_WRITE (R454). -/
  | cmplWrite (who : Who) (u : Fin 32) (ch : Fin 4) (data : Word)
  /-- CCTL_MODE_WRITE (R454). -/
  | cctlModeWrite (who : Who) (u : Fin 32) (ch : Fin 4) (data : Word)
  /-- DEBUG_FREEZE (R459). -/
  | debugFreeze (u : Fin 32)
  /-- PIN_DSET (R462). -/
  | pinDset (who : Who) (port : Fin 5) (data : Word)
  /-- PIN_DCLR (R462). -/
  | pinDclr (who : Who) (port : Fin 5) (data : Word)
  /-- PIN_DTGL (R462). -/
  | pinDtgl (who : Who) (port : Fin 5) (data : Word)
  /-- PIN_DRIVE_CHANGE (R466). -/
  | pinDriveChange (who : Who) (addr : Nat) (data : Word)
  /-- ISEL_WRITE (R464). -/
  | iselWrite (who : Who) (g : Fin 168) (data : Word)
  /-- PIN_IRQ_OCCURRENCE (R468). -/
  | pinIrqOccurrence (n : Fin 16) (level : Bool)
  /-- IRQCFG_WRITE (R468). -/
  | irqcfgWrite (who : Who) (n : Fin 16) (data : Word)
  /-- BLOCK_POWER_OFF (R474). -/
  | blockPowerOff (who : Who) (b : Block)
  /-- BLOCK_POWER_ON (R475). -/
  | blockPowerOn (who : Who) (b : Block)
  /-- BLOCK_POWER_CHANGE_DONE (R474). -/
  | blockPowerChangeDone (b : Block)
  /-- DVFS_REQUEST (R477). -/
  | dvfsRequest (who : Who) (q : Fin 4) (data : Word)
  /-- DVFS_DIVIDER_CHANGE (R478). -/
  | dvfsDividerChange (q : Fin 4)
  /-- DVFS_SETTLE_END (R477). -/
  | dvfsSettleEnd (q : Fin 4) (good : Bool)
  /-- DVFS_FAULT (R479). -/
  | dvfsFault (q : Fin 4)
  /-- STANDBY_ARM (R480). -/
  | standbyArm (who : Who) (data : Word)
  /-- STANDBY_ENTRY (R481). -/
  | standbyEntry (steps : Fin 6)
  /-- WAKE_SOURCE (R483). -/
  | wakeSource (src : Fin 18)
  /-- WAKE_COMPLETE (R485). -/
  | wakeComplete
  /-- PLL_LOCK (R486). -/
  | pllLock (n : Fin 14)
  /-- PLL_LOCK_LOST (R486). -/
  | pllLockLost (n : Fin 14)
  /-- PXCTL_WRITE (R487). -/
  | pxctlWrite (who : Who) (n : Fin 4) (data : Word)
  /-- PWRON_RST_N (R490). -/
  | pwronRstN
  /-- SYS_RST_N (R490). -/
  | sysRstN
  /-- SYSRST (R491). -/
  | sysrst (who : Who)
  /-- BRST (R491). -/
  | brst (who : Who) (b : Block)
  /-- RESET_RELEASE (R490). -/
  | resetRelease (pulled : BitVec 3)
  /-- SEL_RST_N (R426). -/
  | selRstN
  /-- SYS_FAULT_WRITE (R493). -/
  | sysFaultWrite (who : Who) (data : Word)
  /-- BOOT_START (R495). -/
  | bootStart
  /-- BOOT_COPY_CHECK (R498). -/
  | bootCopyCheck (copy : BootCopy) (failure : Fin 3)
  /-- RC_FIELD_READ (R6). -/
  | rcFieldRead (who : Who) (addr : Nat) (hwSet : Word)
  /-- FRAME_DONE (R290). -/
  | frameDone (p : Fin 4)
  /-- ISLAND_POWER_LOST (R450). -/
  | islandPowerLost
  deriving DecidableEq, Repr

end Sys2Proof
end

