-- ==== Sys2Proof/Decode.lean ====
section
/-! DEFINITION. Reading and writing the 32-bit words of Hymota instructions (R132 to R141, and the fn tables of R142 to R166), and
the host's `decodeTableWord`: no row of spec/opcode_table.json gives bits, so it reads no command from a word. Readings and choices: log 65. -/

namespace Sys2Proof
open Machine

/-- The command that a word of the opcode table spells: the table gives no row any bits. -/
def decodeTableWord (_nbits _w : Nat) : Option Instr := none

namespace Hymota

/-- The control registers that exist (R113, R181, R209). -/
def cregs : List Nat :=
  [0x000, 0x001, 0x002, 0x003, 0x004, 0x005, 0x010, 0x011, 0x012, 0x018, 0x019, 0x01A] ++
  [0x030, 0x031, 0x032, 0x033, 0x034, 0x035, 0x036, 0x037, 0x040, 0x041, 0x042, 0x043, 0x080, 0x081, 0x0E0]

/-- The control registers with no write column (R113, R181, R209). -/
def readOnlyCregs : List Nat := [0x002, 0x003, 0x033, 0x034, 0x037, 0x041, 0x042, 0x043, 0x081, 0x0E0]

/-- RDC of this number is no reserved encoding (R136). -/
def readable (n : BitVec 12) : Bool := cregs.contains n.toNat

/-- WRC of this number is no reserved encoding (R136). -/
def writable (n : BitVec 12) : Bool := cregs.contains n.toNat && !readOnlyCregs.contains n.toNat

/-- The type pairs that CVT converts (R152). -/
def convertible (src dst : BitVec 3) : Bool :=
  (src.toNat < 4 && (dst = 4 || dst = 5)) || ((src = 4 || src = 5) && dst.toNat < 4) ||
  (src = 4 && dst = 5) || (src = 5 && dst = 4)

/-- Bits [hi:lo] of a word, as a number. -/
def bits (w : Word) (lo len : Nat) : Nat := w.toNat / 2 ^ lo % 2 ^ len

/-- Where a condition holds, a value. -/
def when {α : Type} (b : Bool) (v : α) : Option α := if b then some v else none

section
variable (c : Ctx)

/-- The ALU group (R142): S in fn[10], COND in fn[9:6], OP2 in fn[5:0]. -/
def decodeAlu (rd rs1 rs2 : Gpr) (fn : Nat) : Option Instr :=
  let sf : Bool := fn / 1024 = 1
  let cond := fn / 64 % 16
  match fn % 64 with
  | 1 => when (cond = 0) (.add c sf rd rs1 rs2)
  | 2 => when (cond = 0) (.sub c sf rd rs1 rs2)
  | 3 => when (cond = 0) (.addc c sf rd rs1 rs2)
  | 4 => when (cond = 0) (.subc c sf rd rs1 rs2)
  | 5 => when (cond = 0) (.andR c sf rd rs1 rs2)
  | 6 => when (cond = 0) (.orR c sf rd rs1 rs2)
  | 7 => when (cond = 0) (.xorR c sf rd rs1 rs2)
  | 8 => when (cond = 0) (.andn c sf rd rs1 rs2)
  | 9 => when (cond = 0) (.orn c sf rd rs1 rs2)
  | 10 => when (cond = 0 && !sf) (.slt c rd rs1 rs2)
  | 11 => when (cond = 0 && !sf) (.sltu c rd rs1 rs2)
  | 12 => when (cond = 0 && !sf) (.minS c rd rs1 rs2)
  | 13 => when (cond = 0 && !sf) (.maxS c rd rs1 rs2)
  | 14 => when (cond = 0 && !sf) (.minu c rd rs1 rs2)
  | 15 => when (cond = 0 && !sf) (.maxu c rd rs1 rs2)
  | 16 => when (cond = 0) (.addw c sf rd rs1 rs2)
  | 17 => when (cond = 0) (.subw c sf rd rs1 rs2)
  | 18 => when (cond = 0 && !sf && rs2 = 0) (.sextb c rd rs1)
  | 19 => when (cond = 0 && !sf && rs2 = 0) (.sexth c rd rs1)
  | 20 => when (cond = 0 && !sf && rs2 = 0) (.sextw c rd rs1)
  | 21 => when (cond = 0 && !sf && rs2 = 0) (.zextb c rd rs1)
  | 22 => when (cond = 0 && !sf && rs2 = 0) (.zexth c rd rs1)
  | 23 => when (cond = 0 && !sf && rs2 = 0) (.zextw c rd rs1)
  | 24 => when (cond = 0 && !sf && rs2 = 0) (.clz c rd rs1)
  | 25 => when (cond = 0 && !sf && rs2 = 0) (.ctz c rd rs1)
  | 26 => when (cond = 0 && !sf && rs2 = 0) (.popc c rd rs1)
  | 27 => when (cond = 0 && !sf && rs2 = 0) (.bswap c rd rs1)
  | 28 => when (!sf) (.cpick c (BitVec.ofNat 4 cond) rd rs1 rs2)
  | _ => none

/-- The MULDIV group (R145): fn is one code. -/
def decodeMulDiv (rd rs1 rs2 : Gpr) (fn : Nat) : Option Instr :=
  match fn with
  | 16 => some (.mulLo c rd rs1 rs2)
  | 17 => some (.mulHs c rd rs1 rs2)
  | 18 => some (.mulHu c rd rs1 rs2)
  | 19 => some (.mulHx c rd rs1 rs2)
  | 20 => some (.mulW c rd rs1 rs2)
  | 32 => some (.quoS c rd rs1 rs2)
  | 33 => some (.quoU c rd rs1 rs2)
  | 34 => some (.rmdS c rd rs1 rs2)
  | 35 => some (.rmdU c rd rs1 rs2)
  | 48 => some (.quoSw c rd rs1 rs2)
  | 49 => some (.quoUw c rd rs1 rs2)
  | 50 => some (.rmdSw c rd rs1 rs2)
  | 51 => some (.rmdUw c rd rs1 rs2)
  | _ => none

/-- The SHIFT group (R146): I in fn[10], OP2 in fn[9:6], SH in fn[5:0]. -/
def decodeShift (rd rs1 rs2 : Gpr) (fn : Nat) : Option Instr :=
  let imm : Bool := fn / 1024 = 1
  let sh := fn % 64
  let amt : Amt := if imm then .imm (BitVec.ofNat 6 sh) else .reg rs2
  let ok : Bool := if imm then rs2 = 0 else sh = 0
  match fn / 64 % 16 with
  | 1 => when (ok) (.sll c rd rs1 amt)
  | 2 => when (ok) (.srl c rd rs1 amt)
  | 3 => when (ok) (.sra c rd rs1 amt)
  | 4 => when (ok) (.ror c rd rs1 amt)
  | 5 => when (ok && sh < 32) (.sllw c rd rs1 amt)
  | 6 => when (ok && sh < 32) (.srlw c rd rs1 amt)
  | 7 => when (ok && sh < 32) (.sraw c rd rs1 amt)
  | _ => none

/-- The P24 group (R149): FORM in fn[10], OP2 in fn[5:0]. -/
def decodeP24 (rd rs1 rs2 : Gpr) (fn : Nat) : Option Instr :=
  let px : Bool := fn / 1024 = 1
  if fn / 64 % 16 ≠ 0 then none else
  match fn % 64 with
  | 1 => some (.padd c px rd rs1 rs2)
  | 2 => some (.psub c px rd rs1 rs2)
  | 3 => some (.pmul c px rd rs1 rs2)
  | 4 => some (.pmin c px rd rs1 rs2)
  | 5 => some (.pmax c px rd rs1 rs2)
  | 6 => some (.pavg c px rd rs1 rs2)
  | 7 => when (!px && rs2 = 0) (.pabs c rd rs1)
  | 8 => when (!px && rs2 = 0) (.pneg c rd rs1)
  | 9 => when (!px) (.psra c rd rs1 rs2)
  | 10 => when (!px) (.psls c rd rs1 rs2)
  | 11 => when (rs2 = 0) (.pswap c px rd rs1)
  | 12 => when (rs2 = 0) (.pdup c px rd rs1)
  | 16 => when (!px && rs2 = 0) (.x4p c rd rs1)
  | 17 => when (rs2 = 0) (.p4x c px rd rs1)
  | _ => none

/-- The FP32 and FP64 groups (R150): fn[10:6] = 0. -/
def decodeFp (dbl : Bool) (rd rs1 rs2 : Gpr) (fn : Nat) : Option Instr :=
  match fn with
  | 1 => some (.fadd c dbl rd rs1 rs2)
  | 2 => some (.fsub c dbl rd rs1 rs2)
  | 3 => some (.fmul c dbl rd rs1 rs2)
  | 4 => some (.fdiv c dbl rd rs1 rs2)
  | 5 => when (rs2 = 0) (.fsqrt c dbl rd rs1)
  | 6 => some (.fmac c dbl rd rs1 rs2)
  | 7 => some (.fmin c dbl rd rs1 rs2)
  | 8 => some (.fmax c dbl rd rs1 rs2)
  | 9 => when (rs2 = 0) (.fneg c dbl rd rs1)
  | 10 => when (rs2 = 0) (.fabs c dbl rd rs1)
  | 11 => some (.feq c dbl rd rs1 rs2)
  | 12 => some (.flt c dbl rd rs1 rs2)
  | 13 => some (.fle c dbl rd rs1 rs2)
  | 14 => when (rd = 0) (.fcmp c dbl rs1 rs2)
  | 15 => when (rs2 = 0) (.fclass c dbl rd rs1)
  | _ => none

/-- The CVT group (R152): source type in fn[5:3], destination type in fn[2:0]. -/
def decodeCvt (rd rs1 rs2 : Gpr) (fn : Nat) : Option Instr :=
  let src := BitVec.ofNat 3 (fn / 8)
  let dst := BitVec.ofNat 3 fn
  when (fn < 64 && rs2 = 0 && convertible src dst) (.cvt c src dst rd rs1)

/-- The JX group (R153). -/
def decodeJx (rd rs1 rs2 : Gpr) (fn : Nat) : Option Instr :=
  if rd ≠ 0 || rs2 ≠ 0 then none else
  match fn with
  | 1 => some (.jr c rs1)
  | 2 => some (.callr c rs1)
  | 3 => when (rs1 = 0) (.ret c)
  | _ => none

/-- The BRPT group (R156): OP2 in fn[5:2], ES in fn[1:0]. -/
def decodeBrpt (rd rs1 rs2 : Gpr) (fn : Nat) : Option Instr :=
  let es := BitVec.ofNat 2 fn
  if rd ≠ 0 || rs1 ≠ 0 || rs2 ≠ 0 then none else
  match fn / 4 with
  | 1 => when (es = 0) (.moveB c)
  | 2 => some (.fill c es)
  | 3 => some (.cmp c es)
  | 4 => some (.scan c es)
  | _ => none

/-- The ATOM group (R160): ORD in fn[10:9], SZ in fn[8], OP2 in fn[4:0]. -/
def decodeAtom (rd rs1 rs2 : Gpr) (fn : Nat) : Option Instr :=
  let ord := BitVec.ofNat 2 (fn / 512)
  let sz : Bool := fn / 256 % 2 = 1
  if fn / 32 % 8 ≠ 0 then none else
  match fn % 32 with
  | 1 => some (.amSwap c ord sz rd rs1 rs2)
  | 2 => some (.amAdd c ord sz rd rs1 rs2)
  | 3 => some (.amSub c ord sz rd rs1 rs2)
  | 4 => some (.amAnd c ord sz rd rs1 rs2)
  | 5 => some (.amOr c ord sz rd rs1 rs2)
  | 6 => some (.amXor c ord sz rd rs1 rs2)
  | 8 => some (.amMins c ord sz rd rs1 rs2)
  | 9 => some (.amMaxs c ord sz rd rs1 rs2)
  | 10 => some (.amMinu c ord sz rd rs1 rs2)
  | 11 => some (.amMaxu c ord sz rd rs1 rs2)
  | 12 => some (.amIncw c ord sz rd rs1 rs2)
  | 16 => some (.amCas c ord sz rd rs1 rs2)
  | _ => none

/-- The FENCE group (R162). -/
def decodeFence (rd rs1 rs2 : Gpr) (fn : Nat) : Option Instr :=
  if rd ≠ 0 || rs1 ≠ 0 || rs2 ≠ 0 then none else
  match fn with
  | 1 => some (.fence c)
  | 2 => some (.fenceS c)
  | 3 => some (.fenceL c)
  | 4 => some (.fenceA c)
  | 5 => some (.ifence c)
  | _ => none

/-- The PINX group (R164). -/
def decodePinx (rd rs1 rs2 : Gpr) (fn : Nat) : Option Instr :=
  if rs2 ≠ 0 then none else
  match fn with
  | 1 => when (rs1 = 0) (.pinIn c rd)
  | 2 => when (rd = 0) (.pinOut c rs1)
  | 3 => when (rd = 0) (.pinSet c rs1)
  | 4 => when (rd = 0) (.pinClr c rs1)
  | 5 => when (rd = 0) (.pinTgl c rs1)
  | 6 => when (rd = 0) (.pinOe c rs1)
  | 7 => when (rs1 = 0) (.pinRdo c rd)
  | 8 => when (rs1 = 0) (.pinRde c rd)
  | _ => none

/-- The SYS group (R166). -/
def decodeSys (rd rs1 rs2 : Gpr) (fn : Nat) : Option Instr :=
  if rd ≠ 0 then none else
  match fn with
  | 1 => when (rs2 = 0) (.gate c rs1)
  | 2 => when (rs1 = 0 && rs2 = 0) (.eret c)
  | 3 => when (rs1 = 0 && rs2 = 0) (.stop c)
  | 4 => when (rs1 = 0 && rs2 = 0) (.sleep c)
  | 5 => when (rs2 = 0) (.tack c rs1)
  | 6 => when (rs1 = 0 && rs2 = 0) (.untack c)
  | 7 => when (rs1 = 0 && rs2 = 0) (.brk c)
  | 16 => some (.tlbiVa c rs1 rs2)
  | 17 => when (rs1 = 0) (.tlbiAs c rs2)
  | 18 => when (rs1 = 0 && rs2 = 0) (.tlbiAll c)
  | 24 => when (rs2 = 0) (.dcCln c rs1)
  | 25 => when (rs2 = 0) (.dcInv c rs1)
  | 26 => when (rs2 = 0) (.dcCi c rs1)
  | 27 => when (rs2 = 0) (.dcZero c rs1)
  | _ => none

/-- The instruction of context `c` that a word encodes, or none for a reserved encoding (R135, R136, R141). -/
def decode (w : Word) : Option Instr :=
  let rd := BitVec.ofNat 5 (bits w 21 5)
  let rs1 := BitVec.ofNat 5 (bits w 16 5)
  let rs2 := BitVec.ofNat 5 (bits w 11 5)
  let fn := bits w 0 11
  let imm := BitVec.ofNat 16 (bits w 0 16)
  match bits w 26 6 with
  | 0x00 => decodeAlu c rd rs1 rs2 fn
  | 0x01 => decodeMulDiv c rd rs1 rs2 fn
  | 0x02 => decodeShift c rd rs1 rs2 fn
  | 0x03 => decodeP24 c rd rs1 rs2 fn
  | 0x04 => decodeFp c false rd rs1 rs2 fn
  | 0x05 => decodeFp c true rd rs1 rs2 fn
  | 0x06 => decodeCvt c rd rs1 rs2 fn
  | 0x08 => some (.addi c rd rs1 imm)
  | 0x09 => some (.andi c rd rs1 imm)
  | 0x0A => some (.ori c rd rs1 imm)
  | 0x0B => some (.xori c rd rs1 imm)
  | 0x0C => some (.slti c rd rs1 imm)
  | 0x0D => some (.sltiu c rd rs1 imm)
  | 0x0E => some (.lui c rd (BitVec.ofNat 21 (bits w 0 21)))
  | 0x0F => some (.auipc c rd (BitVec.ofNat 21 (bits w 0 21)))
  | 0x10 => some (.lb c rd rs1 imm)
  | 0x11 => some (.lh c rd rs1 imm)
  | 0x12 => some (.lw c rd rs1 imm)
  | 0x13 => some (.ld c rd rs1 imm)
  | 0x14 => some (.lbu c rd rs1 imm)
  | 0x15 => some (.lhu c rd rs1 imm)
  | 0x16 => some (.lwu c rd rs1 imm)
  | 0x17 => some (.lp24 c rd rs1 imm)
  | 0x18 => some (.sb c rd rs1 imm)
  | 0x19 => some (.sh c rd rs1 imm)
  | 0x1A => some (.sw c rd rs1 imm)
  | 0x1B => some (.sd c rd rs1 imm)
  | 0x1C => some (.sp24 c rd rs1 imm)
  | 0x20 => some (.beq c (bits w 15 1 = 1) rd rs1 (BitVec.ofNat 15 (bits w 0 15)))
  | 0x21 => some (.bne c (bits w 15 1 = 1) rd rs1 (BitVec.ofNat 15 (bits w 0 15)))
  | 0x22 => some (.blt c (bits w 15 1 = 1) rd rs1 (BitVec.ofNat 15 (bits w 0 15)))
  | 0x23 => some (.bge c (bits w 15 1 = 1) rd rs1 (BitVec.ofNat 15 (bits w 0 15)))
  | 0x24 => some (.bltu c (bits w 15 1 = 1) rd rs1 (BitVec.ofNat 15 (bits w 0 15)))
  | 0x25 => some (.bgeu c (bits w 15 1 = 1) rd rs1 (BitVec.ofNat 15 (bits w 0 15)))
  | 0x26 => some (.bf c (BitVec.ofNat 4 (bits w 22 4)) (bits w 21 1 = 1) (BitVec.ofNat 21 (bits w 0 21)))
  | 0x28 => some (.jump c (BitVec.ofNat 26 (bits w 0 26)))
  | 0x29 => some (.call c (BitVec.ofNat 26 (bits w 0 26)))
  | 0x2A => decodeJx c rd rs1 rs2 fn
  | 0x2B => when (rs1 = 0) (.hwLoop c rd imm)
  | 0x2C => decodeBrpt c rd rs1 rs2 fn
  | 0x2D => decodeAtom c rd rs1 rs2 fn
  | 0x2E => decodeFence c rd rs1 rs2 fn
  | 0x2F => decodePinx c rd rs1 rs2 fn
  | 0x30 => decodeSys c rd rs1 rs2 fn
  | 0x31 => let n := BitVec.ofNat 12 (bits w 0 12); when (rs1 = 0 && bits w 12 4 = 0 && readable n) (.rdc c rd n)
  | 0x32 => let n := BitVec.ofNat 12 (bits w 0 12); when (rs1 = 0 && bits w 12 4 = 0 && writable n) (.wrc c rd n)
  | _ => none

end


/-- A word from its fields, R format (R132). -/
def wordR (op : Nat) (rd rs1 rs2 : Gpr) (fn : Nat) : Word :=
  BitVec.ofNat 32 (op * 2 ^ 26 + rd.toNat * 2 ^ 21 + rs1.toNat * 2 ^ 16 + rs2.toNat * 2 ^ 11 + fn)

/-- A word from its fields, I and S formats (R132). -/
def wordI (op : Nat) (r rs1 : Gpr) (imm : BitVec 16) : Word :=
  BitVec.ofNat 32 (op * 2 ^ 26 + r.toNat * 2 ^ 21 + rs1.toNat * 2 ^ 16 + imm.toNat)

/-- A word from its fields, B format (R132). -/
def wordB (op : Nat) (rs1 rs2 : Gpr) (a : Bool) (d : BitVec 15) : Word :=
  BitVec.ofNat 32 (op * 2 ^ 26 + rs1.toNat * 2 ^ 21 + rs2.toNat * 2 ^ 16 + a.toNat * 2 ^ 15 + d.toNat)

/-- fn of a shift (R146). -/
def shiftFn (op2 : Nat) : Amt → Nat
  | .imm n => 1024 + op2 * 64 + n.toNat
  | .reg _ => op2 * 64

/-- rs2 of a shift (R146). -/
def shiftRs2 : Amt → Gpr
  | .imm _ => 0
  | .reg r => r

/-- The word that encodes an instruction of a context, or none where the command is no Hymota instruction (R132 to R166). -/
def encode : Instr → Option Word
  | .add _ sf rd rs1 rs2 => some (wordR 0 rd rs1 rs2 (sf.toNat * 1024 + 1))
  | .sub _ sf rd rs1 rs2 => some (wordR 0 rd rs1 rs2 (sf.toNat * 1024 + 2))
  | .addc _ sf rd rs1 rs2 => some (wordR 0 rd rs1 rs2 (sf.toNat * 1024 + 3))
  | .subc _ sf rd rs1 rs2 => some (wordR 0 rd rs1 rs2 (sf.toNat * 1024 + 4))
  | .andR _ sf rd rs1 rs2 => some (wordR 0 rd rs1 rs2 (sf.toNat * 1024 + 5))
  | .orR _ sf rd rs1 rs2 => some (wordR 0 rd rs1 rs2 (sf.toNat * 1024 + 6))
  | .xorR _ sf rd rs1 rs2 => some (wordR 0 rd rs1 rs2 (sf.toNat * 1024 + 7))
  | .andn _ sf rd rs1 rs2 => some (wordR 0 rd rs1 rs2 (sf.toNat * 1024 + 8))
  | .orn _ sf rd rs1 rs2 => some (wordR 0 rd rs1 rs2 (sf.toNat * 1024 + 9))
  | .slt _ rd rs1 rs2 => some (wordR 0 rd rs1 rs2 10)
  | .sltu _ rd rs1 rs2 => some (wordR 0 rd rs1 rs2 11)
  | .minS _ rd rs1 rs2 => some (wordR 0 rd rs1 rs2 12)
  | .maxS _ rd rs1 rs2 => some (wordR 0 rd rs1 rs2 13)
  | .minu _ rd rs1 rs2 => some (wordR 0 rd rs1 rs2 14)
  | .maxu _ rd rs1 rs2 => some (wordR 0 rd rs1 rs2 15)
  | .addw _ sf rd rs1 rs2 => some (wordR 0 rd rs1 rs2 (sf.toNat * 1024 + 16))
  | .subw _ sf rd rs1 rs2 => some (wordR 0 rd rs1 rs2 (sf.toNat * 1024 + 17))
  | .sextb _ rd rs1 => some (wordR 0 rd rs1 0 18)
  | .sexth _ rd rs1 => some (wordR 0 rd rs1 0 19)
  | .sextw _ rd rs1 => some (wordR 0 rd rs1 0 20)
  | .zextb _ rd rs1 => some (wordR 0 rd rs1 0 21)
  | .zexth _ rd rs1 => some (wordR 0 rd rs1 0 22)
  | .zextw _ rd rs1 => some (wordR 0 rd rs1 0 23)
  | .clz _ rd rs1 => some (wordR 0 rd rs1 0 24)
  | .ctz _ rd rs1 => some (wordR 0 rd rs1 0 25)
  | .popc _ rd rs1 => some (wordR 0 rd rs1 0 26)
  | .bswap _ rd rs1 => some (wordR 0 rd rs1 0 27)
  | .cpick _ cond rd rs1 rs2 => some (wordR 0 rd rs1 rs2 (cond.toNat * 64 + 28))
  | .addi _ rd rs1 imm => some (wordI 8 rd rs1 imm)
  | .andi _ rd rs1 imm => some (wordI 9 rd rs1 imm)
  | .ori _ rd rs1 imm => some (wordI 10 rd rs1 imm)
  | .xori _ rd rs1 imm => some (wordI 11 rd rs1 imm)
  | .slti _ rd rs1 imm => some (wordI 12 rd rs1 imm)
  | .sltiu _ rd rs1 imm => some (wordI 13 rd rs1 imm)
  | .lb _ rd rs1 imm => some (wordI 16 rd rs1 imm)
  | .lh _ rd rs1 imm => some (wordI 17 rd rs1 imm)
  | .lw _ rd rs1 imm => some (wordI 18 rd rs1 imm)
  | .ld _ rd rs1 imm => some (wordI 19 rd rs1 imm)
  | .lbu _ rd rs1 imm => some (wordI 20 rd rs1 imm)
  | .lhu _ rd rs1 imm => some (wordI 21 rd rs1 imm)
  | .lwu _ rd rs1 imm => some (wordI 22 rd rs1 imm)
  | .lp24 _ rd rs1 imm => some (wordI 23 rd rs1 imm)
  | .lui _ rd imm => some (BitVec.ofNat 32 (14 * 2 ^ 26 + rd.toNat * 2 ^ 21 + imm.toNat))
  | .auipc _ rd imm => some (BitVec.ofNat 32 (15 * 2 ^ 26 + rd.toNat * 2 ^ 21 + imm.toNat))
  | .mulLo _ rd rs1 rs2 => some (wordR 1 rd rs1 rs2 16)
  | .mulHs _ rd rs1 rs2 => some (wordR 1 rd rs1 rs2 17)
  | .mulHu _ rd rs1 rs2 => some (wordR 1 rd rs1 rs2 18)
  | .mulHx _ rd rs1 rs2 => some (wordR 1 rd rs1 rs2 19)
  | .mulW _ rd rs1 rs2 => some (wordR 1 rd rs1 rs2 20)
  | .quoS _ rd rs1 rs2 => some (wordR 1 rd rs1 rs2 32)
  | .quoU _ rd rs1 rs2 => some (wordR 1 rd rs1 rs2 33)
  | .rmdS _ rd rs1 rs2 => some (wordR 1 rd rs1 rs2 34)
  | .rmdU _ rd rs1 rs2 => some (wordR 1 rd rs1 rs2 35)
  | .quoSw _ rd rs1 rs2 => some (wordR 1 rd rs1 rs2 48)
  | .quoUw _ rd rs1 rs2 => some (wordR 1 rd rs1 rs2 49)
  | .rmdSw _ rd rs1 rs2 => some (wordR 1 rd rs1 rs2 50)
  | .rmdUw _ rd rs1 rs2 => some (wordR 1 rd rs1 rs2 51)
  | .sll _ rd rs1 amt => some (wordR 2 rd rs1 (shiftRs2 amt) (shiftFn 1 amt))
  | .srl _ rd rs1 amt => some (wordR 2 rd rs1 (shiftRs2 amt) (shiftFn 2 amt))
  | .sra _ rd rs1 amt => some (wordR 2 rd rs1 (shiftRs2 amt) (shiftFn 3 amt))
  | .ror _ rd rs1 amt => some (wordR 2 rd rs1 (shiftRs2 amt) (shiftFn 4 amt))
  | .sllw _ rd rs1 amt => some (wordR 2 rd rs1 (shiftRs2 amt) (shiftFn 5 amt))
  | .srlw _ rd rs1 amt => some (wordR 2 rd rs1 (shiftRs2 amt) (shiftFn 6 amt))
  | .sraw _ rd rs1 amt => some (wordR 2 rd rs1 (shiftRs2 amt) (shiftFn 7 amt))
  | .sb _ rs2 rs1 imm => some (wordI 24 rs2 rs1 imm)
  | .sh _ rs2 rs1 imm => some (wordI 25 rs2 rs1 imm)
  | .sw _ rs2 rs1 imm => some (wordI 26 rs2 rs1 imm)
  | .sd _ rs2 rs1 imm => some (wordI 27 rs2 rs1 imm)
  | .sp24 _ rs2 rs1 imm => some (wordI 28 rs2 rs1 imm)
  | .padd _ px rd rs1 rs2 => some (wordR 3 rd rs1 rs2 (px.toNat * 1024 + 1))
  | .psub _ px rd rs1 rs2 => some (wordR 3 rd rs1 rs2 (px.toNat * 1024 + 2))
  | .pmul _ px rd rs1 rs2 => some (wordR 3 rd rs1 rs2 (px.toNat * 1024 + 3))
  | .pmin _ px rd rs1 rs2 => some (wordR 3 rd rs1 rs2 (px.toNat * 1024 + 4))
  | .pmax _ px rd rs1 rs2 => some (wordR 3 rd rs1 rs2 (px.toNat * 1024 + 5))
  | .pavg _ px rd rs1 rs2 => some (wordR 3 rd rs1 rs2 (px.toNat * 1024 + 6))
  | .pabs _ rd rs1 => some (wordR 3 rd rs1 0 7)
  | .pneg _ rd rs1 => some (wordR 3 rd rs1 0 8)
  | .psra _ rd rs1 rs2 => some (wordR 3 rd rs1 rs2 9)
  | .psls _ rd rs1 rs2 => some (wordR 3 rd rs1 rs2 10)
  | .pswap _ px rd rs1 => some (wordR 3 rd rs1 0 (px.toNat * 1024 + 11))
  | .pdup _ px rd rs1 => some (wordR 3 rd rs1 0 (px.toNat * 1024 + 12))
  | .x4p _ rd rs1 => some (wordR 3 rd rs1 0 16)
  | .p4x _ px rd rs1 => some (wordR 3 rd rs1 0 (px.toNat * 1024 + 17))
  | .fadd _ dbl rd rs1 rs2 => some (wordR (4 + dbl.toNat) rd rs1 rs2 1)
  | .fsub _ dbl rd rs1 rs2 => some (wordR (4 + dbl.toNat) rd rs1 rs2 2)
  | .fmul _ dbl rd rs1 rs2 => some (wordR (4 + dbl.toNat) rd rs1 rs2 3)
  | .fdiv _ dbl rd rs1 rs2 => some (wordR (4 + dbl.toNat) rd rs1 rs2 4)
  | .fsqrt _ dbl rd rs1 => some (wordR (4 + dbl.toNat) rd rs1 0 5)
  | .fmac _ dbl rd rs1 rs2 => some (wordR (4 + dbl.toNat) rd rs1 rs2 6)
  | .fmin _ dbl rd rs1 rs2 => some (wordR (4 + dbl.toNat) rd rs1 rs2 7)
  | .fmax _ dbl rd rs1 rs2 => some (wordR (4 + dbl.toNat) rd rs1 rs2 8)
  | .fneg _ dbl rd rs1 => some (wordR (4 + dbl.toNat) rd rs1 0 9)
  | .fabs _ dbl rd rs1 => some (wordR (4 + dbl.toNat) rd rs1 0 10)
  | .feq _ dbl rd rs1 rs2 => some (wordR (4 + dbl.toNat) rd rs1 rs2 11)
  | .flt _ dbl rd rs1 rs2 => some (wordR (4 + dbl.toNat) rd rs1 rs2 12)
  | .fle _ dbl rd rs1 rs2 => some (wordR (4 + dbl.toNat) rd rs1 rs2 13)
  | .fcmp _ dbl rs1 rs2 => some (wordR (4 + dbl.toNat) 0 rs1 rs2 14)
  | .fclass _ dbl rd rs1 => some (wordR (4 + dbl.toNat) rd rs1 0 15)
  | .cvt _ src dst rd rs1 => some (wordR 6 rd rs1 0 (src.toNat * 8 + dst.toNat))
  | .beq _ a rs1 rs2 d => some (wordB 32 rs1 rs2 a d)
  | .bne _ a rs1 rs2 d => some (wordB 33 rs1 rs2 a d)
  | .blt _ a rs1 rs2 d => some (wordB 34 rs1 rs2 a d)
  | .bge _ a rs1 rs2 d => some (wordB 35 rs1 rs2 a d)
  | .bltu _ a rs1 rs2 d => some (wordB 36 rs1 rs2 a d)
  | .bgeu _ a rs1 rs2 d => some (wordB 37 rs1 rs2 a d)
  | .bf _ cond a d => some (BitVec.ofNat 32 (0x26 * 2 ^ 26 + cond.toNat * 2 ^ 22 + a.toNat * 2 ^ 21 + d.toNat))
  | .jump _ d => some (BitVec.ofNat 32 (0x28 * 2 ^ 26 + d.toNat))
  | .call _ d => some (BitVec.ofNat 32 (0x29 * 2 ^ 26 + d.toNat))
  | .jr _ rs1 => some (wordR 0x2A 0 rs1 0 1)
  | .callr _ rs1 => some (wordR 0x2A 0 rs1 0 2)
  | .ret _ => some (wordR 0x2A 0 0 0 3)
  | .hwLoop _ rs1 len => some (wordI 0x2B rs1 0 len)
  | .moveB _ => some (wordR 0x2C 0 0 0 4)
  | .fill _ es => some (wordR 0x2C 0 0 0 (8 + es.toNat))
  | .cmp _ es => some (wordR 0x2C 0 0 0 (12 + es.toNat))
  | .scan _ es => some (wordR 0x2C 0 0 0 (16 + es.toNat))
  | .amSwap _ ord sz rd rs1 rs2 => some (wordR 0x2D rd rs1 rs2 (ord.toNat * 512 + sz.toNat * 256 + 1))
  | .amAdd _ ord sz rd rs1 rs2 => some (wordR 0x2D rd rs1 rs2 (ord.toNat * 512 + sz.toNat * 256 + 2))
  | .amSub _ ord sz rd rs1 rs2 => some (wordR 0x2D rd rs1 rs2 (ord.toNat * 512 + sz.toNat * 256 + 3))
  | .amAnd _ ord sz rd rs1 rs2 => some (wordR 0x2D rd rs1 rs2 (ord.toNat * 512 + sz.toNat * 256 + 4))
  | .amOr _ ord sz rd rs1 rs2 => some (wordR 0x2D rd rs1 rs2 (ord.toNat * 512 + sz.toNat * 256 + 5))
  | .amXor _ ord sz rd rs1 rs2 => some (wordR 0x2D rd rs1 rs2 (ord.toNat * 512 + sz.toNat * 256 + 6))
  | .amMins _ ord sz rd rs1 rs2 => some (wordR 0x2D rd rs1 rs2 (ord.toNat * 512 + sz.toNat * 256 + 8))
  | .amMaxs _ ord sz rd rs1 rs2 => some (wordR 0x2D rd rs1 rs2 (ord.toNat * 512 + sz.toNat * 256 + 9))
  | .amMinu _ ord sz rd rs1 rs2 => some (wordR 0x2D rd rs1 rs2 (ord.toNat * 512 + sz.toNat * 256 + 10))
  | .amMaxu _ ord sz rd rs1 rs2 => some (wordR 0x2D rd rs1 rs2 (ord.toNat * 512 + sz.toNat * 256 + 11))
  | .amIncw _ ord sz rd rs1 rs2 => some (wordR 0x2D rd rs1 rs2 (ord.toNat * 512 + sz.toNat * 256 + 12))
  | .amCas _ ord sz rd rs1 rs2 => some (wordR 0x2D rd rs1 rs2 (ord.toNat * 512 + sz.toNat * 256 + 16))
  | .fence _ => some (wordR 0x2E 0 0 0 1)
  | .fenceS _ => some (wordR 0x2E 0 0 0 2)
  | .fenceL _ => some (wordR 0x2E 0 0 0 3)
  | .fenceA _ => some (wordR 0x2E 0 0 0 4)
  | .ifence _ => some (wordR 0x2E 0 0 0 5)
  | .rdc _ rd n => some (BitVec.ofNat 32 (0x31 * 2 ^ 26 + rd.toNat * 2 ^ 21 + n.toNat))
  | .wrc _ rs2 n => some (BitVec.ofNat 32 (0x32 * 2 ^ 26 + rs2.toNat * 2 ^ 21 + n.toNat))
  | .pinIn _ rd => some (wordR 0x2F rd 0 0 1)
  | .pinOut _ rs1 => some (wordR 0x2F 0 rs1 0 2)
  | .pinSet _ rs1 => some (wordR 0x2F 0 rs1 0 3)
  | .pinClr _ rs1 => some (wordR 0x2F 0 rs1 0 4)
  | .pinTgl _ rs1 => some (wordR 0x2F 0 rs1 0 5)
  | .pinOe _ rs1 => some (wordR 0x2F 0 rs1 0 6)
  | .pinRdo _ rd => some (wordR 0x2F rd 0 0 7)
  | .pinRde _ rd => some (wordR 0x2F rd 0 0 8)
  | .gate _ rs1 => some (wordR 0x30 0 rs1 0 1)
  | .eret _ => some (wordR 0x30 0 0 0 2)
  | .stop _ => some (wordR 0x30 0 0 0 3)
  | .sleep _ => some (wordR 0x30 0 0 0 4)
  | .tack _ rs1 => some (wordR 0x30 0 rs1 0 5)
  | .untack _ => some (wordR 0x30 0 0 0 6)
  | .brk _ => some (wordR 0x30 0 0 0 7)
  | .tlbiVa _ rs1 rs2 => some (wordR 0x30 0 rs1 rs2 16)
  | .tlbiAs _ rs2 => some (wordR 0x30 0 0 rs2 17)
  | .tlbiAll _ => some (wordR 0x30 0 0 0 18)
  | .dcCln _ rs1 => some (wordR 0x30 0 rs1 0 24)
  | .dcInv _ rs1 => some (wordR 0x30 0 rs1 0 25)
  | .dcCi _ rs1 => some (wordR 0x30 0 rs1 0 26)
  | .dcZero _ rs1 => some (wordR 0x30 0 rs1 0 27)
  | _ => none

end Hymota
end Sys2Proof
end

