-- ==== Sys2Proof/Config.lean ====
section
/-! DEFINITION. What one part fixes and what the spec leaves without a value: free values, constants with no body, so that
no proof can lean on a number. Each is named in the assumption log. -/

namespace Sys2Proof.Config

/-- A byte of the boot ROM, whose contents the spec does not list (log 4). -/
opaque romByte : Nat → BitVec 8

/-- The set of the level-two TLB that a virtual page falls in: "a hash of the virtual address that is not stated"
(R526, log 15). -/
opaque tlbHash : Nat → Nat

/-- The n-th random private key that the island's key generator draws (R447, log 16). -/
opaque randomKey : Nat → BitVec 256

/-- The byte that a torn or otherwise bounded-but-unstated outcome leaves, the n-th time one arises (log 11). -/
opaque freeBit : Nat → Bool

/-- The n-th free number, for an outcome the spec bounds without choosing (log 11). -/
opaque freeNat : Nat → Nat

/-- Whether a floating-point result is taken as tiny after rounding (true) or before it: IEEE 754, which R130 follows, allows
either (log 21). -/
opaque tinyAfterRounding : Bool

/-- Whether a fused multiply-add of zero and infinity with a quiet NaN addend sets NV: IEEE 754 allows either (log 21). -/
opaque fmaInvalidWithNan : Bool

/-- The egress class of the messages that the seam's time engine sends, which the spec does not give (log 31). -/
opaque ptpClass : Nat

/-- The next instruction of a context stands in its latch in a core cycle of its quad, with its sources ready (R76, R79): what the front end has
fetched and what is still on its way to the register file are not in the state (log 77). -/
opaque latched : Nat → Nat → Bool

/-- A byte of the island's OTP below 0x040: the identity from manufacture (R446, log 41). -/
opaque otpByte : Nat → BitVec 8

/-- The island's all-pass filters (R431): whether the one for 50 Hz, its state, a voltage; the voltage shifted, as numerator and denominator,
and the state after it. The spec gives the shift at the nominal frequency and no filter (log 42). -/
opaque allPass : Bool → Nat → Rat → Int × Nat × Nat

/-- The version of the island's mask ROM (R439, R446), whose value and place in OTP the spec does not give (log 43). -/
opaque maskRomVersion : BitVec 32

/-- A byte of the island's 128 KiB mask ROM (R425), whose contents the spec does not list (log 41). -/
opaque maskRomByte : Nat → BitVec 8

/-- The n-th operation on the island's flash fails (R437): which ones do is not stated (log 45). -/
opaque flashFails : Nat → Bool

/-- A byte that the n-th operation on the island's flash leaves where it fails (R435, R437): what a torn write leaves is not stated (log 45). -/
opaque flashTorn : Nat → Nat → BitVec 8

/-- What the equipment drives a ball of pins PA0–PE31 to, or nothing, at the n-th draw (log 52). -/
opaque equipment : Nat → Nat → Option Bool

/-- What a ball with no determined level reads as, at the n-th draw (R512, log 11). -/
opaque ballReads : Nat → Nat → Bool

/-- The MAC address of the management port, from fuses (R496, log 44). -/
opaque macAddress : BitVec 48

/-- The root-key hash that a fuse slot holds, or nothing where it is not programmed (R498, log 44). -/
opaque rootKeyHash : Nat → Option (List (BitVec 8))

/-- One less than the number of 64-byte lines of DRAM that the equipment has installed (R489, log 56). -/
opaque dramLines : Nat

/-- The line that the DRAM devices' address decoding selects, among the installed ones, for a line above them (R489, log 56). -/
opaque dramSelect : Nat → Nat

/-- The part is an SX1640-N; otherwise it is an SX1640-C (R1 to R3, log 47). -/
opaque variantN : Bool

end Sys2Proof.Config
end

