-- ==== Sys2Proof/Machine/RegMap.lean ====
section
/-! DEFINITION. The device registers: the address of every register, the place of every field, its access code and its
reset value, as the register tables of spec/ give them (R6, R7, R9, R17; the rule that gives a register is named beside it). -/

namespace Sys2Proof.Machine

/-- A bit field of a 32-bit register: its lowest bit and its width. -/
structure Fld where
  lo : Nat
  len : Nat
  deriving DecidableEq, Repr

/-- The access codes of R6. -/
inductive Acc where
  | rw | ro | wo | w1c | w1s | rc | rwl
  deriving DecidableEq, Repr

/-- One field of a register: its place, its access code, its reset value, and the ranges of written values that store
another value (a triple: from, to, what is stored). -/
structure FieldDef where
  fld : Fld
  acc : Acc
  reset : Nat
  stores : List (Nat × Nat × Nat) := []
  deriving DecidableEq, Repr

/-- A register, or an array of registers with one or two indices (count and stride of each). -/
structure RegDef where
  base : Nat
  n1 : Nat
  s1 : Nat
  n2 : Nat
  s2 : Nat
  fields : List FieldDef
  deriving DecidableEq, Repr

/-- The register, or a member of its array, lies at `a`. -/
def RegDef.holds (d : RegDef) (a : Nat) : Bool :=
  d.base ≤ a && (let o := a - d.base
    o / d.s1 < d.n1 && (o % d.s1) % d.s2 == 0 && (o % d.s1) / d.s2 < d.n2)

namespace Reg

/-- SYS_DEVID (R3). -/
def SYS_DEVID : Nat := 0x10000000
/-- SYS_STRAP (R501). -/
def SYS_STRAP : Nat := 0x10000004
/-- SYS_RSTSTAT (R501). -/
def SYS_RSTSTAT : Nat := 0x10000008
/-- SYS_RSTCTL (R501). -/
def SYS_RSTCTL : Nat := 0x1000000C
/-- SYS_BOOTSTAT (R501). -/
def SYS_BOOTSTAT : Nat := 0x10000010
/-- SYS_FAULT (R493). -/
def SYS_FAULT : Nat := 0x10000014
/-- SYS_VSETTLE (R501). -/
def SYS_VSETTLE : Nat := 0x10000030
/-- SYS_BPWR (R501). -/
def SYS_BPWR : Nat := 0x10000040
/-- SYS_BPSTAT (R501). -/
def SYS_BPSTAT : Nat := 0x10000044
/-- SYS_STBY (R501). -/
def SYS_STBY : Nat := 0x10000050
/-- SYS_STBYSTAT (R501). -/
def SYS_STBYSTAT : Nat := 0x10000054
/-- SYS_FMRET (R501). -/
def SYS_FMRET : Nat := 0x10000058
/-- SYS_WAKEEN (R501). -/
def SYS_WAKEEN : Nat := 0x10000060
/-- SYS_WAKESRC (R501). -/
def SYS_WAKESRC : Nat := 0x10000064
/-- SYS_APLL (R501). -/
def SYS_APLL : Nat := 0x100000C0
/-- SYS_APHL (R501). -/
def SYS_APHL : Nat := 0x100000C4
/-- SYS_APHH (R501). -/
def SYS_APHH : Nat := 0x100000C8
/-- SYS_CLKSTAT (R501). -/
def SYS_CLKSTAT : Nat := 0x100000D0
/-- SYS_QDVFSq (R501). -/
def SYS_QDVFS (q : Nat) : Nat := 0x10000020 + 4 * q
/-- SYS_PXCTLn (R501). -/
def SYS_PXCTL (n : Nat) : Nat := 0x10000080 + 16 * n
/-- SYS_PXFRACn (R501). -/
def SYS_PXFRAC (n : Nat) : Nat := 0x10000084 + 16 * n
/-- SYS_PXMODn (R501). -/
def SYS_PXMOD (n : Nat) : Nat := 0x10000088 + 16 * n
/-- FAB_CTRL (R22). -/
def FAB_CTRL : Nat := 0x10400000
/-- FAB_VSTAT (R22). -/
def FAB_VSTAT : Nat := 0x10400004
/-- FAB_VADDR_LO (R23). -/
def FAB_VADDR_LO : Nat := 0x10400008
/-- FAB_VADDR_HI (R23). -/
def FAB_VADDR_HI : Nat := 0x1040000C
/-- FAB_IGRPn (R23). -/
def FAB_IGRP (n : Nat) : Nat := 0x10400100 + 4 * n
/-- FAB_RBASEr (R23). -/
def FAB_RBASE (r : Nat) : Nat := 0x10400400 + 16 * r
/-- FAB_RLIMr (R23). -/
def FAB_RLIM (r : Nat) : Nat := 0x10400404 + 16 * r
/-- FAB_RPERMr (R23). -/
def FAB_RPERM (r : Nat) : Nat := 0x10400408 + 16 * r
/-- FAB_RCTLr (R23). -/
def FAB_RCTL (r : Nat) : Nat := 0x1040040C + 16 * r
/-- FAB_APCTL (R315). -/
def FAB_APCTL : Nat := 0x10400800
/-- FAB_APOWNk (R315). -/
def FAB_APOWN (k : Nat) : Nat := 0x10400810 + 4 * k
/-- PSQ_OWNER (R72). -/
def PSQ_OWNER : Nat := 0x10200000
/-- PSQ_JDONE (R72). -/
def PSQ_JDONE : Nat := 0x10200004
/-- PSQ_SWAP (R72). -/
def PSQ_SWAP : Nat := 0x10200010
/-- PSQ_SWAPSTAT (R72). -/
def PSQ_SWAPSTAT : Nat := 0x10200014
/-- PSQ_DTF (R72). -/
def PSQ_DTF : Nat := 0x10200100
/-- PSQ_DTL (R72). -/
def PSQ_DTL : Nat := 0x10200104
/-- PSQ_DTH (R72). -/
def PSQ_DTH : Nat := 0x10200108
/-- PSQ_DTINCL (R72). -/
def PSQ_DTINCL : Nat := 0x10200110
/-- PSQ_DTINCH (R72). -/
def PSQ_DTINCH : Nat := 0x10200114
/-- PSQ_DTADJ (R72). -/
def PSQ_DTADJ : Nat := 0x10200118
/-- PSQ_DTCTRL (R72). -/
def PSQ_DTCTRL : Nat := 0x1020011C
/-- PSQ_DTSETL (R72). -/
def PSQ_DTSETL : Nat := 0x10200120
/-- PSQ_DTSETH (R72). -/
def PSQ_DTSETH : Nat := 0x10200124
/-- PSQ_LCMDl (R72). -/
def PSQ_LCMD (l : Nat) : Nat := 0x10201000 + 64 * l
/-- PSQ_LSTATl (R72). -/
def PSQ_LSTAT (l : Nat) : Nat := 0x10201004 + 64 * l
/-- PSQ_LSTARTLl (R72). -/
def PSQ_LSTARTL (l : Nat) : Nat := 0x10201008 + 64 * l
/-- PSQ_LSTARTHl (R72). -/
def PSQ_LSTARTH (l : Nat) : Nat := 0x1020100C + 64 * l
/-- PSQ_LLAGl (R72). -/
def PSQ_LLAG (l : Nat) : Nat := 0x10201010 + 64 * l
/-- PSQ_LPCNTl (R72). -/
def PSQ_LPCNT (l : Nat) : Nat := 0x10201014 + 64 * l
/-- PSQ_LENTl (R72). -/
def PSQ_LENT (l : Nat) : Nat := 0x10201018 + 64 * l
/-- PSQ_LEVTENl (R72). -/
def PSQ_LEVTEN (l : Nat) : Nat := 0x1020101C + 64 * l
/-- PSQ_LPEAKl (R72). -/
def PSQ_LPEAK (l : Nat) : Nat := 0x10201020 + 64 * l
/-- PSQ_LREFLl (R72). -/
def PSQ_LREFL (l : Nat) : Nat := 0x10201024 + 64 * l
/-- PSQ_LREFHl (R72). -/
def PSQ_LREFH (l : Nat) : Nat := 0x10201028 + 64 * l
/-- PSQ_CJOBn (R72). -/
def PSQ_CJOB (n : Nat) : Nat := 0x10202000 + 4 * n
/-- DBG_CTRL (R534). -/
def DBG_CTRL : Nat := 0x11000000
/-- DBG_STAT (R534). -/
def DBG_STAT : Nat := 0x11000004
/-- DBG_EADRL (R534). -/
def DBG_EADRL : Nat := 0x11000008
/-- DBG_EADRH (R534). -/
def DBG_EADRH : Nat := 0x1100000C
/-- DBG_RSEL (R534). -/
def DBG_RSEL : Nat := 0x11000010
/-- DBG_RDATL (R534). -/
def DBG_RDATL : Nat := 0x11000014
/-- DBG_RDATH (R534). -/
def DBG_RDATH : Nat := 0x11000018
/-- DBG_HALTw (R534). -/
def DBG_HALT (w : Nat) : Nat := 0x11000100 + 4 * w
/-- DBG_RESUMEw (R534). -/
def DBG_RESUME (w : Nat) : Nat := 0x11000110 + 4 * w
/-- DBG_HSTATw (R534). -/
def DBG_HSTAT (w : Nat) : Nat := 0x11000120 + 4 * w
/-- DBG_BSTATw (R534). -/
def DBG_BSTAT (w : Nat) : Nat := 0x11000130 + 4 * w
/-- HYC_WHEELLOk (R108). -/
def HYC_WHEELLO (k : Nat) : Nat := 0x11100000 + 256 * k
/-- HYC_WHEELHIk (R108). -/
def HYC_WHEELHI (k : Nat) : Nat := 0x11100004 + 256 * k
/-- HYC_CORECTLk (R108). -/
def HYC_CORECTL (k : Nat) : Nat := 0x11100008 + 256 * k
/-- HYC_CORESTATk (R108). -/
def HYC_CORESTAT (k : Nat) : Nat := 0x1110000C + 256 * k
/-- HYC_CCTLn (R108). -/
def HYC_CCTL (n : Nat) : Nat := 0x11102000 + 32 * n
/-- HYC_CSTATn (R108). -/
def HYC_CSTAT (n : Nat) : Nat := 0x11102004 + 32 * n
/-- HYC_CCMDn (R108). -/
def HYC_CCMD (n : Nat) : Nat := 0x11102008 + 32 * n
/-- HYC_CSTARTLn (R108). -/
def HYC_CSTARTL (n : Nat) : Nat := 0x1110200C + 32 * n
/-- HYC_CSTARTHn (R108). -/
def HYC_CSTARTH (n : Nat) : Nat := 0x11102010 + 32 * n
/-- HYC_LSCTL (R108). -/
def HYC_LSCTL : Nat := 0x11104000
/-- HYC_LSSTAT (R108). -/
def HYC_LSSTAT : Nat := 0x11104004
/-- HYC_LSVC (R190). -/
def HYC_LSVC : Nat := 0x11104008
/-- MEM_CTRL (R237). -/
def MEM_CTRL : Nat := 0x10300000
/-- MEM_STAT (R237). -/
def MEM_STAT : Nat := 0x10300004
/-- MEM_SCRUB (R237). -/
def MEM_SCRUB : Nat := 0x10300020
/-- MEM_ECCSTAT (R237). -/
def MEM_ECCSTAT : Nat := 0x10300030
/-- MEM_ECCADDRL (R237). -/
def MEM_ECCADDRL : Nat := 0x10300034
/-- MEM_ECCADDRH (R237). -/
def MEM_ECCADDRH : Nat := 0x10300038
/-- MEM_CECNT (R237). -/
def MEM_CECNT : Nat := 0x10300040
/-- MEM_UECNT (R237). -/
def MEM_UECNT : Nat := 0x10300044
/-- MEM_RSVn (R237). -/
def MEM_RSV (n : Nat) : Nat := 0x10300010 + 4 * n
/-- MEM_MCSTATn (R237). -/
def MEM_MCSTAT (n : Nat) : Nat := 0x10300050 + 4 * n
/-- EVC_STAT (R258). -/
def EVC_STAT : Nat := 0x10100000
/-- EVC_SPUR (R258). -/
def EVC_SPUR : Nat := 0x10100004
/-- EVC_CLAIM (R258). -/
def EVC_CLAIM : Nat := 0x10100010
/-- EVC_COMPLETE (R258). -/
def EVC_COMPLETE : Nat := 0x10100014
/-- EVC_DOORBELL (R258). -/
def EVC_DOORBELL : Nat := 0x10100020
/-- EVC_SCFGn (R258). -/
def EVC_SCFG (n : Nat) : Nat := 0x10110000 + 4 * n
/-- EVC_SSTATn (R258). -/
def EVC_SSTAT (n : Nat) : Nat := 0x10120000 + 4 * n
/-- EVC_GCFGg (R258). -/
def EVC_GCFG (g : Nat) : Nat := 0x10130000 + 8 * g
/-- EVC_GTIMEg (R258). -/
def EVC_GTIME (g : Nat) : Nat := 0x10130004 + 8 * g
/-- EVC_GSTATg (R258). -/
def EVC_GSTAT (g : Nat) : Nat := 0x10131000 + 4 * g
/-- EVC_TGTwn (R258). -/
def EVC_TGT (n w : Nat) : Nat := 0x10140000 + 16 * n + 4 * w
/-- EVC_CPRESn (R258). -/
def EVC_CPRES (n : Nat) : Nat := 0x10150000 + 4 * n
/-- DPn_CTRL (R291). -/
def DP_CTRL (p : Nat) : Nat := 0x10700000 + 1048576 * p
/-- DPn_STAT (R291). -/
def DP_STAT (p : Nat) : Nat := 0x10700004 + 1048576 * p
/-- DPn_COMMIT (R291). -/
def DP_COMMIT (p : Nat) : Nat := 0x10700008 + 1048576 * p
/-- DPn_POS (R291). -/
def DP_POS (p : Nat) : Nat := 0x1070000C + 1048576 * p
/-- DPn_EVTEN (R291). -/
def DP_EVTEN (p : Nat) : Nat := 0x10700010 + 1048576 * p
/-- DPn_LMATCH (R291). -/
def DP_LMATCH (p : Nat) : Nat := 0x10700014 + 1048576 * p
/-- DPn_GLERR (R291). -/
def DP_GLERR (p : Nat) : Nat := 0x10700018 + 1048576 * p
/-- DPn_FSIG (R291). -/
def DP_FSIG (p : Nat) : Nat := 0x1070001C + 1048576 * p
/-- DPn_WBSTAT (R291). -/
def DP_WBSTAT (p : Nat) : Nat := 0x10700020 + 1048576 * p
/-- DPn_RRKICK (R291). -/
def DP_RRKICK (p : Nat) : Nat := 0x10700024 + 1048576 * p
/-- DPn_HTIM0 (R291). -/
def DP_HTIM0 (p : Nat) : Nat := 0x10700100 + 1048576 * p
/-- DPn_HTIM1 (R291). -/
def DP_HTIM1 (p : Nat) : Nat := 0x10700104 + 1048576 * p
/-- DPn_VTIM0 (R291). -/
def DP_VTIM0 (p : Nat) : Nat := 0x10700108 + 1048576 * p
/-- DPn_VTIM1 (R291). -/
def DP_VTIM1 (p : Nat) : Nat := 0x1070010C + 1048576 * p
/-- DPn_BGCOL (R291). -/
def DP_BGCOL (p : Nat) : Nat := 0x10700110 + 1048576 * p
/-- DPn_ZORDER (R291). -/
def DP_ZORDER (p : Nat) : Nat := 0x10700114 + 1048576 * p
/-- DPn_GLCTL (R291). -/
def DP_GLCTL (p : Nat) : Nat := 0x10700120 + 1048576 * p
/-- DPn_GLPERL (R291). -/
def DP_GLPERL (p : Nat) : Nat := 0x10700124 + 1048576 * p
/-- DPn_GLPERF (R291). -/
def DP_GLPERF (p : Nat) : Nat := 0x10700128 + 1048576 * p
/-- DPn_GLPHL (R291). -/
def DP_GLPHL (p : Nat) : Nat := 0x1070012C + 1048576 * p
/-- DPn_GLPHH (R291). -/
def DP_GLPHH (p : Nat) : Nat := 0x10700130 + 1048576 * p
/-- DPn_RRCTL (R291). -/
def DP_RRCTL (p : Nat) : Nat := 0x10700140 + 1048576 * p
/-- DPn_OUTSEL (R291). -/
def DP_OUTSEL (p : Nat) : Nat := 0x10700150 + 1048576 * p
/-- DPn_CSC (R291). -/
def DP_CSC (p : Nat) : Nat := 0x10700154 + 1048576 * p
/-- DPn_WBCTL (R291). -/
def DP_WBCTL (p : Nat) : Nat := 0x107001A0 + 1048576 * p
/-- DPn_BCTL (R291). -/
def DP_BCTL (p : Nat) : Nat := 0x10700300 + 1048576 * p
/-- DPn_BBASEL (R291). -/
def DP_BBASEL (p : Nat) : Nat := 0x10700304 + 1048576 * p
/-- DPn_BBASEH (R291). -/
def DP_BBASEH (p : Nat) : Nat := 0x10700308 + 1048576 * p
/-- DPn_BPITCH (R291). -/
def DP_BPITCH (p : Nat) : Nat := 0x1070030C + 1048576 * p
/-- DPn_BPOS (R291). -/
def DP_BPOS (p : Nat) : Nat := 0x10700310 + 1048576 * p
/-- DPn_BSIZE (R291). -/
def DP_BSIZE (p : Nat) : Nat := 0x10700314 + 1048576 * p
/-- DPn_SCTL (R291). -/
def DP_SCTL (p : Nat) : Nat := 0x10700340 + 1048576 * p
/-- DPn_OCTL (R291). -/
def DP_OCTL (p : Nat) : Nat := 0x10780000 + 1048576 * p
/-- DPn_OSTAT (R291). -/
def DP_OSTAT (p : Nat) : Nat := 0x10780004 + 1048576 * p
/-- DPn_AUXCMD (R291). -/
def DP_AUXCMD (p : Nat) : Nat := 0x10780010 + 1048576 * p
/-- DPn_AUXSTAT (R291). -/
def DP_AUXSTAT (p : Nat) : Nat := 0x10780024 + 1048576 * p
/-- DPn_ISTAT (R315). -/
def DP_ISTAT (p : Nat) : Nat := 0x10740000 + 1048576 * p
/-- DPn_UCNT (R315). -/
def DP_UCNT (p : Nat) : Nat := 0x10740004 + 1048576 * p
/-- DPn_OCNT (R315). -/
def DP_OCNT (p : Nat) : Nat := 0x10740008 + 1048576 * p
/-- DPn_ULINE (R315). -/
def DP_ULINE (p : Nat) : Nat := 0x1074000C + 1048576 * p
/-- DPn_LLSTAT (R315). -/
def DP_LLSTAT (p : Nat) : Nat := 0x10740010 + 1048576 * p
/-- DPn_RFAULT (R315). -/
def DP_RFAULT (p : Nat) : Nat := 0x10740014 + 1048576 * p
/-- DPn_APSTAT (R315). -/
def DP_APSTAT (p : Nat) : Nat := 0x10740018 + 1048576 * p
/-- DPn_LBUD (R315). -/
def DP_LBUD (p : Nat) : Nat := 0x10741000 + 1048576 * p
/-- DPn_UCOL (R315). -/
def DP_UCOL (p : Nat) : Nat := 0x10741004 + 1048576 * p
/-- DPn_LLCTL (R315). -/
def DP_LLCTL (p : Nat) : Nat := 0x10741008 + 1048576 * p
/-- DPn_ICTL (R315). -/
def DP_ICTL (p : Nat) : Nat := 0x1074100C + 1048576 * p
/-- DPn_MTXCk (R291). -/
def DP_MTXC (p k : Nat) : Nat := 0x10700160 + 1048576 * p + 4 * k
/-- DPn_MTXOi (R291). -/
def DP_MTXO (p i : Nat) : Nat := 0x10700190 + 1048576 * p + 4 * i
/-- DPn_WBAbL (R291). -/
def DP_WBAL (p b : Nat) : Nat := 0x107001A4 + 1048576 * p + 8 * b
/-- DPn_WBAbH (R291). -/
def DP_WBAH (p b : Nat) : Nat := 0x107001A8 + 1048576 * p + 8 * b
/-- DPn_TCTLt (R291). -/
def DP_TCTL (p t : Nat) : Nat := 0x10700200 + 1048576 * p + 64 * t
/-- DPn_TMAPLt (R291). -/
def DP_TMAPL (p t : Nat) : Nat := 0x10700204 + 1048576 * p + 64 * t
/-- DPn_TMAPHt (R291). -/
def DP_TMAPH (p t : Nat) : Nat := 0x10700208 + 1048576 * p + 64 * t
/-- DPn_TTILLt (R291). -/
def DP_TTILL (p t : Nat) : Nat := 0x1070020C + 1048576 * p + 64 * t
/-- DPn_TTILHt (R291). -/
def DP_TTILH (p t : Nat) : Nat := 0x10700210 + 1048576 * p + 64 * t
/-- DPn_TSCRt (R291). -/
def DP_TSCR (p t : Nat) : Nat := 0x10700214 + 1048576 * p + 64 * t
/-- DPn_TWIN0t (R291). -/
def DP_TWIN0 (p t : Nat) : Nat := 0x10700218 + 1048576 * p + 64 * t
/-- DPn_TWIN1t (R291). -/
def DP_TWIN1 (p t : Nat) : Nat := 0x1070021C + 1048576 * p + 64 * t
/-- DPn_AUXDk (R291). -/
def DP_AUXD (p k : Nat) : Nat := 0x10780014 + 1048576 * p + 4 * k
/-- DPn_RSIGr (R315). -/
def DP_RSIG (p r : Nat) : Nat := 0x10740100 + 1048576 * p + 4 * r
/-- DPn_RREPr (R315). -/
def DP_RREP (p r : Nat) : Nat := 0x10740140 + 1048576 * p + 4 * r
/-- DPn_RXr (R315). -/
def DP_RX (p r : Nat) : Nat := 0x10741100 + 1048576 * p + 16 * r
/-- DPn_RYr (R315). -/
def DP_RY (p r : Nat) : Nat := 0x10741104 + 1048576 * p + 16 * r
/-- DPn_RCFGr (R315). -/
def DP_RCFG (p r : Nat) : Nat := 0x10741108 + 1048576 * p + 16 * r
/-- DPn_REXPr (R315). -/
def DP_REXP (p r : Nat) : Nat := 0x1074110C + 1048576 * p + 16 * r
/-- PRS_START (R331). -/
def PRS_START : Nat := 0x10600000
/-- PRS_CMD (R331). -/
def PRS_CMD : Nat := 0x10600004
/-- PRS_STAT (R331). -/
def PRS_STAT : Nat := 0x10600008
/-- PRS_CUR (R331). -/
def PRS_CUR : Nat := 0x1060000C
/-- PRS_EADRL (R331). -/
def PRS_EADRL : Nat := 0x10600010
/-- PRS_EADRH (R331). -/
def PRS_EADRH : Nat := 0x10600014
/-- SHU_SRCn (R349). -/
def SHU_SRC (n : Nat) : Nat := 0x10500000 + 64 * n
/-- SHU_SRCHn (R349). -/
def SHU_SRCH (n : Nat) : Nat := 0x10500004 + 64 * n
/-- SHU_DSTn (R349). -/
def SHU_DST (n : Nat) : Nat := 0x10500008 + 64 * n
/-- SHU_DSTHn (R349). -/
def SHU_DSTH (n : Nat) : Nat := 0x1050000C + 64 * n
/-- SHU_CNTn (R349). -/
def SHU_CNT (n : Nat) : Nat := 0x10500010 + 64 * n
/-- SHU_CTRLn (R349). -/
def SHU_CTRL (n : Nat) : Nat := 0x10500014 + 64 * n
/-- SHU_GEOMn (R349). -/
def SHU_GEOM (n : Nat) : Nat := 0x10500018 + 64 * n
/-- SHU_STRn (R349). -/
def SHU_STR (n : Nat) : Nat := 0x1050001C + 64 * n
/-- SHU_POSn (R349). -/
def SHU_POS (n : Nat) : Nat := 0x10500020 + 64 * n
/-- SHU_CMDn (R349). -/
def SHU_CMD (n : Nat) : Nat := 0x10500024 + 64 * n
/-- SHU_STATn (R349). -/
def SHU_STAT (n : Nat) : Nat := 0x10500028 + 64 * n
/-- SHU_EADRn (R349). -/
def SHU_EADR (n : Nat) : Nat := 0x1050002C + 64 * n
/-- SHU_EADRHn (R349). -/
def SHU_EADRH (n : Nat) : Nat := 0x10500030 + 64 * n
/-- SPL_CTRL (R375). -/
def SPL_CTRL : Nat := 0x10B00000
/-- SPL_STAT (R375). -/
def SPL_STAT : Nat := 0x10B00004
/-- SPL_CMD (R375). -/
def SPL_CMD : Nat := 0x10B00008
/-- SPL_PLOAD (R375). -/
def SPL_PLOAD : Nat := 0x10B0000C
/-- SPL_EVTEN (R375). -/
def SPL_EVTEN : Nat := 0x10B00010
/-- SPL_TSL (R375). -/
def SPL_TSL : Nat := 0x10B00014
/-- SPL_TSH (R375). -/
def SPL_TSH : Nat := 0x10B00018
/-- SPL_SCNT (R375). -/
def SPL_SCNT : Nat := 0x10B0001C
/-- SPL_IMUTEw (R375). -/
def SPL_IMUTE (w : Nat) : Nat := 0x10B00020 + 4 * w
/-- SPL_VENDL (R375). -/
def SPL_VENDL : Nat := 0x10B00040
/-- SPL_VENDH (R375). -/
def SPL_VENDH : Nat := 0x10B00044
/-- SPL_RUNDL (R375). -/
def SPL_RUNDL : Nat := 0x10B00048
/-- SPL_RUNDH (R375). -/
def SPL_RUNDH : Nat := 0x10B0004C
/-- SPL_WOVFL (R375). -/
def SPL_WOVFL : Nat := 0x10B00050
/-- SPL_WOVFH (R375). -/
def SPL_WOVFH : Nat := 0x10B00054
/-- SPL_EADRL (R375). -/
def SPL_EADRL : Nat := 0x10B00058
/-- SPL_EADRH (R375). -/
def SPL_EADRH : Nat := 0x10B0005C
/-- SPL_TDMCTLp (R375). -/
def SPL_TDMCTL (p : Nat) : Nat := 0x10B00100 + 4 * p
/-- SPL_VCTLv (R375). -/
def SPL_VCTL (v : Nat) : Nat := 0x10B01000 + 32 * v
/-- SPL_VSTARTv (R375). -/
def SPL_VSTART (v : Nat) : Nat := 0x10B01004 + 32 * v
/-- SPL_VLENv (R375). -/
def SPL_VLEN (v : Nat) : Nat := 0x10B01008 + 32 * v
/-- SPL_VLOOPv (R375). -/
def SPL_VLOOP (v : Nat) : Nat := 0x10B0100C + 32 * v
/-- SPL_VINCv (R375). -/
def SPL_VINC (v : Nat) : Nat := 0x10B01010 + 32 * v
/-- SPL_VENVv (R375). -/
def SPL_VENV (v : Nat) : Nat := 0x10B01014 + 32 * v
/-- SPL_VRELv (R375). -/
def SPL_VREL (v : Nat) : Nat := 0x10B01018 + 32 * v
/-- SPL_VKEYv (R375). -/
def SPL_VKEY (v : Nat) : Nat := 0x10B0101C + 32 * v
/-- SPL_RCTLr (R375). -/
def SPL_RCTL (r : Nat) : Nat := 0x10B02000 + 32 * r
/-- SPL_RBASELr (R375). -/
def SPL_RBASEL (r : Nat) : Nat := 0x10B02004 + 32 * r
/-- SPL_RBASEHr (R375). -/
def SPL_RBASEH (r : Nat) : Nat := 0x10B02008 + 32 * r
/-- SPL_RSIZEr (R375). -/
def SPL_RSIZE (r : Nat) : Nat := 0x10B0200C + 32 * r
/-- SPL_RRIDXr (R375). -/
def SPL_RRIDX (r : Nat) : Nat := 0x10B02010 + 32 * r
/-- SPL_RWIDXr (R375). -/
def SPL_RWIDX (r : Nat) : Nat := 0x10B02014 + 32 * r
/-- SPL_WCTLw (R375). -/
def SPL_WCTL (w : Nat) : Nat := 0x10B03000 + 32 * w
/-- SPL_WBASELw (R375). -/
def SPL_WBASEL (w : Nat) : Nat := 0x10B03004 + 32 * w
/-- SPL_WBASEHw (R375). -/
def SPL_WBASEH (w : Nat) : Nat := 0x10B03008 + 32 * w
/-- SPL_WSIZEw (R375). -/
def SPL_WSIZE (w : Nat) : Nat := 0x10B0300C + 32 * w
/-- SPL_WWIDXw (R375). -/
def SPL_WWIDX (w : Nat) : Nat := 0x10B03010 + 32 * w
/-- SPL_WRIDXw (R375). -/
def SPL_WRIDX (w : Nat) : Nat := 0x10B03014 + 32 * w
/-- SPL_GAINg (R375). -/
def SPL_GAIN (g : Nat) : Nat := 0x10B04000 + 4 * g
/-- SEAM_CTRL (R421). -/
def SEAM_CTRL : Nat := 0x10C00000
/-- SEAM_STAT (R421). -/
def SEAM_STAT : Nat := 0x10C00004
/-- SEAM_HMACL (R421). -/
def SEAM_HMACL : Nat := 0x10C00008
/-- SEAM_HMACH (R421). -/
def SEAM_HMACH : Nat := 0x10C0000C
/-- SEAM_HIP (R421). -/
def SEAM_HIP : Nat := 0x10C00010
/-- SEAM_TOPO0 (R421). -/
def SEAM_TOPO0 : Nat := 0x10C00014
/-- SEAM_TOPO1 (R421). -/
def SEAM_TOPO1 : Nat := 0x10C00018
/-- SEAM_TCMD (R421). -/
def SEAM_TCMD : Nat := 0x10C00020
/-- SEAM_TSTAT (R421). -/
def SEAM_TSTAT : Nat := 0x10C00024
/-- SEAM_TXDB (R421). -/
def SEAM_TXDB : Nat := 0x10C00030
/-- SEAM_RXDB (R421). -/
def SEAM_RXDB : Nat := 0x10C00034
/-- SEAM_QCMD (R421). -/
def SEAM_QCMD : Nat := 0x10C00038
/-- SEAM_QSTAT (R421). -/
def SEAM_QSTAT : Nat := 0x10C0003C
/-- SEAM_PUB (R421). -/
def SEAM_PUB : Nat := 0x10C00040
/-- SEAM_RXDEF (R421). -/
def SEAM_RXDEF : Nat := 0x10C00044
/-- SEAM_EVTEN (R421). -/
def SEAM_EVTEN : Nat := 0x10C00048
/-- SEAM_EADRL (R421). -/
def SEAM_EADRL : Nat := 0x10C0004C
/-- SEAM_EADRH (R421). -/
def SEAM_EADRH : Nat := 0x10C00050
/-- SEAM_PTPCTL (R421). -/
def SEAM_PTPCTL : Nat := 0x10C00080
/-- SEAM_PTPSTAT (R421). -/
def SEAM_PTPSTAT : Nat := 0x10C00084
/-- SEAM_PTPOFFL (R421). -/
def SEAM_PTPOFFL : Nat := 0x10C00088
/-- SEAM_PTPOFFH (R421). -/
def SEAM_PTPOFFH : Nat := 0x10C0008C
/-- SEAM_PTPRATE (R421). -/
def SEAM_PTPRATE : Nat := 0x10C00090
/-- SEAM_SGATEw (R421). -/
def SEAM_SGATE (w : Nat) : Nat := 0x10C00100 + 4 * w
/-- SEAM_PGSTATg (R421). -/
def SEAM_PGSTAT (g : Nat) : Nat := 0x10C00400 + 4 * g
/-- SEAM_PCTLp (R421). -/
def SEAM_PCTL (p : Nat) : Nat := 0x10C01000 + 64 * p
/-- SEAM_PSTATp (R421). -/
def SEAM_PSTAT (p : Nat) : Nat := 0x10C01004 + 64 * p
/-- SEAM_GSETp (R421). -/
def SEAM_GSET (p : Nat) : Nat := 0x10C01008 + 64 * p
/-- SEAM_GATEp (R421). -/
def SEAM_GATE (p : Nat) : Nat := 0x10C0100C + 64 * p
/-- SEAM_PPREp (R421). -/
def SEAM_PPRE (p : Nat) : Nat := 0x10C01010 + 64 * p
/-- SEAM_PTCMp (R421). -/
def SEAM_PTCM (p : Nat) : Nat := 0x10C01014 + 64 * p
/-- SEAM_POVRp (R421). -/
def SEAM_POVR (p : Nat) : Nat := 0x10C01018 + 64 * p
/-- SEAM_PDROPp (R421). -/
def SEAM_PDROP (p : Nat) : Nat := 0x10C0101C + 64 * p
/-- SEAM_PMDLp (R421). -/
def SEAM_PMDL (p : Nat) : Nat := 0x10C01020 + 64 * p
/-- SELM_MCTL (R444). -/
def SELM_MCTL : Nat := 0x10F00000
/-- SELM_MSTAT (R444). -/
def SELM_MSTAT : Nat := 0x10F00004
/-- SELM_RBASEL (R444). -/
def SELM_RBASEL : Nat := 0x10F00008
/-- SELM_RBASEH (R444). -/
def SELM_RBASEH : Nat := 0x10F0000C
/-- SELM_WIDX (R444). -/
def SELM_WIDX : Nat := 0x10F00010
/-- SELM_RIDX (R444). -/
def SELM_RIDX : Nat := 0x10F00014
/-- SELM_EADRL (R444). -/
def SELM_EADRL : Nat := 0x10F00018
/-- SELM_EADRH (R444). -/
def SELM_EADRH : Nat := 0x10F0001C
/-- SELM_MCNT (R444). -/
def SELM_MCNT : Nat := 0x10F00020
/-- TMR_CTLu (R461). -/
def TMR_CTL (u : Nat) : Nat := 0x10D00000 + 256 * u
/-- TMR_STATu (R461). -/
def TMR_STAT (u : Nat) : Nat := 0x10D00004 + 256 * u
/-- TMR_CNTLu (R461). -/
def TMR_CNTL (u : Nat) : Nat := 0x10D00008 + 256 * u
/-- TMR_CNTHu (R461). -/
def TMR_CNTH (u : Nat) : Nat := 0x10D0000C + 256 * u
/-- TMR_PERLu (R461). -/
def TMR_PERL (u : Nat) : Nat := 0x10D00010 + 256 * u
/-- TMR_PERHu (R461). -/
def TMR_PERH (u : Nat) : Nat := 0x10D00014 + 256 * u
/-- TMR_TRIGu (R461). -/
def TMR_TRIG (u : Nat) : Nat := 0x10D00018 + 256 * u
/-- TMR_DTSTEPu (R461). -/
def TMR_DTSTEP (u : Nat) : Nat := 0x10D0001C + 256 * u
/-- TMR_IENu (R461). -/
def TMR_IEN (u : Nat) : Nat := 0x10D00020 + 256 * u
/-- TMR_OWNu (R461). -/
def TMR_OWN (u : Nat) : Nat := 0x10D00024 + 256 * u
/-- TMR_CCTLcu (R461). -/
def TMR_CCTL (u c : Nat) : Nat := 0x10D00040 + 256 * u + 32 * c
/-- TMR_CMPLcu (R461). -/
def TMR_CMPL (u c : Nat) : Nat := 0x10D00044 + 256 * u + 32 * c
/-- TMR_CMPHcu (R461). -/
def TMR_CMPH (u c : Nat) : Nat := 0x10D00048 + 256 * u + 32 * c
/-- TMR_CAPLcu (R461). -/
def TMR_CAPL (u c : Nat) : Nat := 0x10D0004C + 256 * u + 32 * c
/-- TMR_CAPHcu (R461). -/
def TMR_CAPH (u c : Nat) : Nat := 0x10D00050 + 256 * u + 32 * c
/-- PIN_CTRL (R471). -/
def PIN_CTRL : Nat := 0x10E00000
/-- PIN_DOUTx (R471). -/
def PIN_DOUT (x : Nat) : Nat := 0x10E00100 + 32 * x
/-- PIN_DSETx (R471). -/
def PIN_DSET (x : Nat) : Nat := 0x10E00104 + 32 * x
/-- PIN_DCLRx (R471). -/
def PIN_DCLR (x : Nat) : Nat := 0x10E00108 + 32 * x
/-- PIN_DTGLx (R471). -/
def PIN_DTGL (x : Nat) : Nat := 0x10E0010C + 32 * x
/-- PIN_OEx (R471). -/
def PIN_OE (x : Nat) : Nat := 0x10E00110 + 32 * x
/-- PIN_DINx (R471). -/
def PIN_DIN (x : Nat) : Nat := 0x10E00114 + 32 * x
/-- PIN_CFGp (R471). -/
def PIN_CFG (p : Nat) : Nat := 0x10E01000 + 4 * p
/-- PIN_OSELf (R471). -/
def PIN_OSEL (f : Nat) : Nat := 0x10E02000 + 4 * f
/-- PIN_ISELg (R471). -/
def PIN_ISEL (g : Nat) : Nat := 0x10E02400 + 4 * g
/-- PIN_PPCTLk (R471). -/
def PIN_PPCTL (k : Nat) : Nat := 0x10E03000 + 8 * k
/-- PIN_PPMSKk (R471). -/
def PIN_PPMSK (k : Nat) : Nat := 0x10E03004 + 8 * k
/-- PIN_IRQCFGn (R471). -/
def PIN_IRQCFG (n : Nat) : Nat := 0x10E03400 + 4 * n
/-- PIN_IRQSTAT (R471). -/
def PIN_IRQSTAT : Nat := 0x10E03440

end Reg

namespace Fld

def SYS_DEVID_REV : Fld := ⟨28, 4⟩
def SYS_DEVID_PART : Fld := ⟨16, 12⟩
def SYS_DEVID_VARIANT : Fld := ⟨12, 4⟩
def SYS_DEVID_MAKER : Fld := ⟨0, 12⟩
def FAB_CTRL_LOCK : Fld := ⟨31, 1⟩
def FAB_CTRL_DEFAULT : Fld := ⟨0, 1⟩
def FAB_VSTAT_VALID : Fld := ⟨31, 1⟩
def FAB_VSTAT_OVF : Fld := ⟨30, 1⟩
def FAB_VSTAT_LINING : Fld := ⟨20, 1⟩
def FAB_VSTAT_WRITE : Fld := ⟨19, 1⟩
def FAB_VSTAT_CAUSE : Fld := ⟨16, 3⟩
def FAB_VSTAT_REGION : Fld := ⟨8, 5⟩
def FAB_VSTAT_INIT : Fld := ⟨0, 8⟩
def FAB_VADDR_LO_ADDR : Fld := ⟨0, 32⟩
def FAB_VADDR_HI_ADDR : Fld := ⟨0, 8⟩
def FAB_IGRP_GRP : Fld := ⟨0, 32⟩
def FAB_RBASE_BASE : Fld := ⟨0, 28⟩
def FAB_RLIM_LIMIT : Fld := ⟨0, 28⟩
def FAB_RPERM_WMASK : Fld := ⟨16, 16⟩
def FAB_RPERM_RMASK : Fld := ⟨0, 16⟩
def FAB_RCTL_EN : Fld := ⟨0, 1⟩
def FAB_APCTL_LOCK : Fld := ⟨31, 1⟩
def FAB_APOWN_EN : Fld := ⟨31, 1⟩
def FAB_APOWN_ID : Fld := ⟨0, 8⟩
def PSQ_OWNER_LOCK : Fld := ⟨31, 1⟩
def PSQ_OWNER_CTX : Fld := ⟨0, 7⟩
def PSQ_JDONE_LANE : Fld := ⟨0, 4⟩
def PSQ_SWAP_FLIP : Fld := ⟨0, 1⟩
def PSQ_SWAPSTAT_PENDING : Fld := ⟨31, 1⟩
def PSQ_SWAPSTAT_BWI : Fld := ⟨30, 1⟩
def PSQ_SWAPSTAT_FREF : Fld := ⟨29, 1⟩
def PSQ_SWAPSTAT_TARGET : Fld := ⟨16, 1⟩
def PSQ_SWAPSTAT_LBANK : Fld := ⟨0, 16⟩
def PSQ_DTF_FRAC : Fld := ⟨0, 16⟩
def PSQ_DTL_NSLO : Fld := ⟨0, 32⟩
def PSQ_DTH_NSHI : Fld := ⟨0, 32⟩
def PSQ_DTINCL_INCLO : Fld := ⟨0, 32⟩
def PSQ_DTINCH_INCHI : Fld := ⟨0, 4⟩
def PSQ_DTADJ_ADJ : Fld := ⟨0, 32⟩
def PSQ_DTCTRL_DISC : Fld := ⟨31, 1⟩
def PSQ_DTCTRL_SLEW : Fld := ⟨16, 5⟩
def PSQ_DTCTRL_HOLD : Fld := ⟨8, 1⟩
def PSQ_DTCTRL_SREF : Fld := ⟨1, 1⟩
def PSQ_DTCTRL_STEP : Fld := ⟨0, 1⟩
def PSQ_DTSETL_SETLO : Fld := ⟨0, 32⟩
def PSQ_DTSETH_SETHI : Fld := ⟨0, 32⟩
def PSQ_LCMD_FINISH : Fld := ⟨2, 1⟩
def PSQ_LCMD_STOP : Fld := ⟨1, 1⟩
def PSQ_LCMD_START : Fld := ⟨0, 1⟩
def PSQ_LSTAT_STATE : Fld := ⟨29, 3⟩
def PSQ_LSTAT_BANK : Fld := ⟨16, 1⟩
def PSQ_LSTAT_CAUSE : Fld := ⟨8, 4⟩
def PSQ_LSTAT_ERR : Fld := ⟨7, 1⟩
def PSQ_LSTAT_LAGMAX : Fld := ⟨6, 1⟩
def PSQ_LSTAT_LATE : Fld := ⟨5, 1⟩
def PSQ_LSTAT_DONE : Fld := ⟨4, 1⟩
def PSQ_LSTAT_ABLATE : Fld := ⟨3, 1⟩
def PSQ_LSTARTL_T0LO : Fld := ⟨0, 32⟩
def PSQ_LSTARTH_T0HI : Fld := ⟨0, 32⟩
def PSQ_LLAG_LAG : Fld := ⟨0, 32⟩
def PSQ_LPCNT_PCNT : Fld := ⟨0, 32⟩
def PSQ_LENT_ENTRY : Fld := ⟨0, 13⟩
def PSQ_LEVTEN_EN : Fld := ⟨0, 8⟩
def PSQ_LPEAK_PEAK : Fld := ⟨0, 32⟩
def PSQ_LREFL_REFLO : Fld := ⟨0, 32⟩
def PSQ_LREFH_REFHI : Fld := ⟨0, 32⟩
def PSQ_CJOB_LANES : Fld := ⟨0, 16⟩
def DBG_CTRL_LOCK : Fld := ⟨31, 1⟩
def DBG_CTRL_NOHALT : Fld := ⟨1, 1⟩
def DBG_CTRL_BRKCLAIM : Fld := ⟨0, 1⟩
def DBG_STAT_AERR : Fld := ⟨31, 1⟩
def DBG_STAT_OVF : Fld := ⟨30, 1⟩
def DBG_STAT_RERR : Fld := ⟨29, 1⟩
def DBG_STAT_CAUSE : Fld := ⟨16, 3⟩
def DBG_EADRL_ADDR : Fld := ⟨0, 32⟩
def DBG_EADRH_ADDR : Fld := ⟨0, 8⟩
def DBG_RSEL_CTX : Fld := ⟨16, 7⟩
def DBG_RSEL_REG : Fld := ⟨0, 14⟩
def DBG_RDATL_DATA : Fld := ⟨0, 32⟩
def DBG_RDATH_DATA : Fld := ⟨0, 32⟩
def DBG_HALT_CTX : Fld := ⟨0, 32⟩
def DBG_RESUME_CTX : Fld := ⟨0, 32⟩
def DBG_HSTAT_CTX : Fld := ⟨0, 32⟩
def DBG_BSTAT_CTX : Fld := ⟨0, 32⟩
def HYC_WHEELLO_SLOT7_SLOT0 : Fld := ⟨0, 32⟩
def HYC_WHEELHI_SLOT15_SLOT8 : Fld := ⟨0, 32⟩
def HYC_CORECTL_LOCK : Fld := ⟨31, 1⟩
def HYC_CORECTL_TBFLUSH : Fld := ⟨0, 1⟩
def HYC_CORESTAT_WREF : Fld := ⟨31, 1⟩
def HYC_CORESTAT_WPEND : Fld := ⟨30, 1⟩
def HYC_CORESTAT_KDONE : Fld := ⟨8, 8⟩
def HYC_CCTL_TBOFF : Fld := ⟨1, 1⟩
def HYC_CCTL_STRICT : Fld := ⟨0, 1⟩
def HYC_CSTAT_STATE : Fld := ⟨29, 3⟩
def HYC_CSTAT_EXH : Fld := ⟨5, 1⟩
def HYC_CSTAT_STRICTA : Fld := ⟨4, 1⟩
def HYC_CSTAT_KILLED : Fld := ⟨3, 1⟩
def HYC_CSTAT_STOPPED : Fld := ⟨2, 1⟩
def HYC_CSTAT_ABLATE : Fld := ⟨1, 1⟩
def HYC_CCMD_KILL : Fld := ⟨1, 1⟩
def HYC_CCMD_START : Fld := ⟨0, 1⟩
def HYC_CSTARTL_PCLO : Fld := ⟨2, 30⟩
def HYC_CSTARTH_PCHI : Fld := ⟨0, 16⟩
def HYC_LSCTL_ACTIVE : Fld := ⟨31, 1⟩
def HYC_LSSTAT_MIS : Fld := ⟨31, 1⟩
def HYC_LSSTAT_SPLIT : Fld := ⟨30, 1⟩
def HYC_LSSTAT_KIND : Fld := ⟨27, 3⟩
def HYC_LSVC_LOCK : Fld := ⟨31, 1⟩
def HYC_LSVC_CTX : Fld := ⟨0, 7⟩
def MEM_CTRL_LOCK : Fld := ⟨31, 1⟩
def MEM_CTRL_DRAMSZ : Fld := ⟨0, 3⟩
def MEM_STAT_RREF : Fld := ⟨31, 1⟩
def MEM_STAT_CHRDY : Fld := ⟨0, 4⟩
def MEM_SCRUB_DEN : Fld := ⟨31, 1⟩
def MEM_SCRUB_FEN : Fld := ⟨30, 1⟩
def MEM_SCRUB_FMINT : Fld := ⟨16, 8⟩
def MEM_SCRUB_DDRINT : Fld := ⟨0, 16⟩
def MEM_ECCSTAT_VALID : Fld := ⟨31, 1⟩
def MEM_ECCSTAT_OVF : Fld := ⟨30, 1⟩
def MEM_ECCSTAT_UE : Fld := ⟨29, 1⟩
def MEM_ECCSTAT_SRC : Fld := ⟨24, 4⟩
def MEM_ECCSTAT_SYN : Fld := ⟨16, 8⟩
def MEM_ECCSTAT_INIT : Fld := ⟨8, 8⟩
def MEM_ECCADDRL_ADDR : Fld := ⟨3, 29⟩
def MEM_ECCADDRH_ADDR : Fld := ⟨0, 8⟩
def MEM_CECNT_COUNT : Fld := ⟨0, 32⟩
def MEM_UECNT_COUNT : Fld := ⟨0, 32⟩
def MEM_RSV_BKMIN : Fld := ⟨16, 6⟩
def MEM_RSV_RT1 : Fld := ⟨8, 6⟩
def MEM_RSV_RT0 : Fld := ⟨0, 6⟩
def MEM_MCSTAT_VALID : Fld := ⟨31, 1⟩
def MEM_MCSTAT_KIND : Fld := ⟨0, 4⟩
def EVC_STAT_CERR : Fld := ⟨31, 1⟩
def EVC_STAT_REL : Fld := ⟨30, 1⟩
def EVC_STAT_RSTD : Fld := ⟨29, 1⟩
def EVC_STAT_CNUM : Fld := ⟨8, 11⟩
def EVC_STAT_CINIT : Fld := ⟨0, 8⟩
def EVC_SPUR_COUNT : Fld := ⟨0, 32⟩
def EVC_CLAIM_NUM : Fld := ⟨0, 11⟩
def EVC_COMPLETE_NUM : Fld := ⟨0, 11⟩
def EVC_DOORBELL_CTX : Fld := ⟨0, 7⟩
def EVC_SCFG_LOCK : Fld := ⟨31, 1⟩
def EVC_SCFG_GEN : Fld := ⟨16, 1⟩
def EVC_SCFG_GRP : Fld := ⟨8, 8⟩
def EVC_SCFG_PRIO : Fld := ⟨4, 4⟩
def EVC_SCFG_EN : Fld := ⟨0, 1⟩
def EVC_SSTAT_PEND : Fld := ⟨31, 1⟩
def EVC_SSTAT_ACT : Fld := ⟨30, 1⟩
def EVC_SSTAT_HELD : Fld := ⟨29, 1⟩
def EVC_SSTAT_OWNER : Fld := ⟨0, 7⟩
def EVC_GCFG_EN : Fld := ⟨31, 1⟩
def EVC_GCFG_COUNT : Fld := ⟨0, 11⟩
def EVC_GTIME_TIMEOUT : Fld := ⟨0, 32⟩
def EVC_GSTAT_ARMED : Fld := ⟨31, 1⟩
def EVC_GSTAT_COUNT : Fld := ⟨0, 11⟩
def EVC_TGT_MASK : Fld := ⟨0, 32⟩
def EVC_CPRES_VALID : Fld := ⟨31, 1⟩
def EVC_CPRES_NUM : Fld := ⟨0, 11⟩
def DP_CTRL_LOCK : Fld := ⟨31, 1⟩
def DP_CTRL_EN : Fld := ⟨0, 1⟩
def DP_STAT_CREF : Fld := ⟨31, 1⟩
def DP_STAT_AWI : Fld := ⟨30, 1⟩
def DP_STAT_XREF : Fld := ⟨29, 1⟩
def DP_STAT_SPOVF : Fld := ⟨28, 1⟩
def DP_STAT_SLIP : Fld := ⟨27, 1⟩
def DP_STAT_RRACT : Fld := ⟨26, 1⟩
def DP_STAT_RUN : Fld := ⟨25, 1⟩
def DP_STAT_CAUSE : Fld := ⟨16, 4⟩
def DP_STAT_GAMB : Fld := ⟨2, 1⟩
def DP_STAT_SPRB : Fld := ⟨1, 1⟩
def DP_STAT_PALB : Fld := ⟨0, 1⟩
def DP_COMMIT_PENDING : Fld := ⟨31, 1⟩
def DP_COMMIT_GAM : Fld := ⟨3, 1⟩
def DP_COMMIT_SPR : Fld := ⟨2, 1⟩
def DP_COMMIT_PAL : Fld := ⟨1, 1⟩
def DP_COMMIT_GO : Fld := ⟨0, 1⟩
def DP_POS_LINE : Fld := ⟨16, 16⟩
def DP_POS_PIXEL : Fld := ⟨0, 16⟩
def DP_EVTEN_EN : Fld := ⟨0, 16⟩
def DP_LMATCH_LINE : Fld := ⟨0, 13⟩
def DP_GLERR_ERR : Fld := ⟨0, 32⟩
def DP_FSIG_CRC : Fld := ⟨0, 32⟩
def DP_WBSTAT_OVF : Fld := ⟨31, 1⟩
def DP_WBSTAT_DONE : Fld := ⟨30, 1⟩
def DP_WBSTAT_LAST : Fld := ⟨1, 1⟩
def DP_WBSTAT_NEXT : Fld := ⟨0, 1⟩
def DP_RRKICK_KICK : Fld := ⟨0, 1⟩
def DP_HTIM0_HTOT : Fld := ⟨16, 13⟩
def DP_HTIM0_HACT : Fld := ⟨0, 13⟩
def DP_HTIM1_HPOL : Fld := ⟨31, 1⟩
def DP_HTIM1_HSW : Fld := ⟨16, 13⟩
def DP_HTIM1_HSS : Fld := ⟨0, 13⟩
def DP_VTIM0_VTOT : Fld := ⟨16, 13⟩
def DP_VTIM0_VACT : Fld := ⟨0, 13⟩
def DP_VTIM1_VPOL : Fld := ⟨31, 1⟩
def DP_VTIM1_VSW : Fld := ⟨16, 13⟩
def DP_VTIM1_VSS : Fld := ⟨0, 13⟩
def DP_BGCOL_R : Fld := ⟨20, 10⟩
def DP_BGCOL_G : Fld := ⟨10, 10⟩
def DP_BGCOL_B : Fld := ⟨0, 10⟩
def DP_ZORDER_D5_D0 : Fld := ⟨0, 18⟩
def DP_GLCTL_EN : Fld := ⟨31, 1⟩
def DP_GLPERL_PER : Fld := ⟨0, 32⟩
def DP_GLPERF_FRAC : Fld := ⟨0, 16⟩
def DP_GLPHL_PH : Fld := ⟨0, 32⟩
def DP_GLPHH_PH : Fld := ⟨0, 32⟩
def DP_RRCTL_EN : Fld := ⟨31, 1⟩
def DP_RRCTL_RRDIV : Fld := ⟨24, 4⟩
def DP_RRCTL_RRN : Fld := ⟨16, 8⟩
def DP_RRCTL_RRVTOT : Fld := ⟨0, 13⟩
def DP_OUTSEL_OUT : Fld := ⟨0, 3⟩
def DP_CSC_MTX : Fld := ⟨2, 1⟩
def DP_CSC_POSTGAM : Fld := ⟨1, 1⟩
def DP_CSC_PREGAM : Fld := ⟨0, 1⟩
def DP_WBCTL_EN : Fld := ⟨31, 1⟩
def DP_WBCTL_FMT : Fld := ⟨28, 2⟩
def DP_WBCTL_DIV : Fld := ⟨24, 4⟩
def DP_WBCTL_PITCH : Fld := ⟨0, 16⟩
def DP_BCTL_EN : Fld := ⟨31, 1⟩
def DP_BCTL_BPP : Fld := ⟨28, 2⟩
def DP_BCTL_F16 : Fld := ⟨27, 1⟩
def DP_BCTL_TRANS0 : Fld := ⟨26, 1⟩
def DP_BCTL_ADD : Fld := ⟨25, 1⟩
def DP_BCTL_PAL : Fld := ⟨22, 3⟩
def DP_BCTL_ALPHA : Fld := ⟨0, 8⟩
def DP_BBASEL_BASE : Fld := ⟨6, 26⟩
def DP_BBASEH_BASE : Fld := ⟨0, 8⟩
def DP_BPITCH_PITCH : Fld := ⟨0, 16⟩
def DP_BPOS_Y : Fld := ⟨16, 13⟩
def DP_BPOS_X : Fld := ⟨0, 13⟩
def DP_BSIZE_HM1 : Fld := ⟨16, 13⟩
def DP_BSIZE_WM1 : Fld := ⟨0, 13⟩
def DP_SCTL_EN : Fld := ⟨31, 1⟩
def DP_SCTL_ADD : Fld := ⟨25, 1⟩
def DP_SCTL_ALPHA : Fld := ⟨0, 8⟩
def DP_OCTL_EN : Fld := ⟨31, 1⟩
def DP_OCTL_TRAIN : Fld := ⟨30, 1⟩
def DP_OCTL_SSC : Fld := ⟨29, 1⟩
def DP_OCTL_BPC10 : Fld := ⟨8, 1⟩
def DP_OCTL_RATE : Fld := ⟨4, 2⟩
def DP_OCTL_LANES : Fld := ⟨0, 2⟩
def DP_OCTL_DUAL : Fld := ⟨2, 1⟩
def DP_OCTL_JEIDA : Fld := ⟨1, 1⟩
def DP_OCTL_SIX : Fld := ⟨0, 1⟩
def DP_OSTAT_HPD : Fld := ⟨31, 1⟩
def DP_OSTAT_TRAINED : Fld := ⟨30, 1⟩
def DP_OSTAT_TFAIL : Fld := ⟨29, 1⟩
def DP_OSTAT_BWERR : Fld := ⟨28, 1⟩
def DP_OSTAT_PLUG : Fld := ⟨27, 1⟩
def DP_OSTAT_UNPLUG : Fld := ⟨26, 1⟩
def DP_OSTAT_IRQ : Fld := ⟨25, 1⟩
def DP_OSTAT_CFGERR : Fld := ⟨24, 1⟩
def DP_AUXCMD_CMD : Fld := ⟨28, 4⟩
def DP_AUXCMD_ADDR : Fld := ⟨8, 20⟩
def DP_AUXCMD_LENM1 : Fld := ⟨0, 4⟩
def DP_AUXSTAT_BUSY : Fld := ⟨31, 1⟩
def DP_AUXSTAT_DONE : Fld := ⟨30, 1⟩
def DP_AUXSTAT_REPLY : Fld := ⟨28, 2⟩
def DP_AUXSTAT_COUNT : Fld := ⟨0, 5⟩
def DP_ISTAT_UNDR : Fld := ⟨31, 1⟩
def DP_ISTAT_BOVR : Fld := ⟨30, 1⟩
def DP_ISTAT_FRZ : Fld := ⟨29, 1⟩
def DP_ISTAT_APH : Fld := ⟨28, 1⟩
def DP_ISTAT_LLERR : Fld := ⟨27, 1⟩
def DP_ISTAT_LLOVR : Fld := ⟨26, 1⟩
def DP_UCNT_COUNT : Fld := ⟨0, 32⟩
def DP_OCNT_COUNT : Fld := ⟨0, 32⟩
def DP_ULINE_LINE : Fld := ⟨0, 13⟩
def DP_LLSTAT_STATE : Fld := ⟨30, 2⟩
def DP_LLSTAT_CAUSE : Fld := ⟨16, 4⟩
def DP_LLSTAT_LATE : Fld := ⟨15, 1⟩
def DP_LLSTAT_PC : Fld := ⟨0, 10⟩
def DP_RFAULT_REG : Fld := ⟨0, 16⟩
def DP_APSTAT_ACT : Fld := ⟨31, 1⟩
def DP_APSTAT_SEQ : Fld := ⟨0, 16⟩
def DP_LBUD_RINT : Fld := ⟨16, 4⟩
def DP_LBUD_BUDGET : Fld := ⟨0, 13⟩
def DP_UCOL_R : Fld := ⟨20, 10⟩
def DP_UCOL_G : Fld := ⟨10, 10⟩
def DP_UCOL_B : Fld := ⟨0, 10⟩
def DP_LLCTL_EN : Fld := ⟨31, 1⟩
def DP_LLCTL_BANK : Fld := ⟨16, 1⟩
def DP_LLCTL_START : Fld := ⟨0, 10⟩
def DP_ICTL_MCHKU : Fld := ⟨1, 1⟩
def DP_ICTL_MCHKF : Fld := ⟨0, 1⟩
def DP_MTXC_C : Fld := ⟨0, 16⟩
def DP_MTXO_OFF : Fld := ⟨0, 14⟩
def DP_WBAL_ADDR : Fld := ⟨6, 26⟩
def DP_WBAH_ADDR : Fld := ⟨0, 8⟩
def DP_TCTL_EN : Fld := ⟨31, 1⟩
def DP_TCTL_T16 : Fld := ⟨30, 1⟩
def DP_TCTL_BPP : Fld := ⟨28, 2⟩
def DP_TCTL_F16 : Fld := ⟨27, 1⟩
def DP_TCTL_TRANS0 : Fld := ⟨26, 1⟩
def DP_TCTL_ADD : Fld := ⟨25, 1⟩
def DP_TCTL_PAL : Fld := ⟨22, 3⟩
def DP_TCTL_MAPHL : Fld := ⟨16, 4⟩
def DP_TCTL_MAPWL : Fld := ⟨12, 4⟩
def DP_TCTL_ALPHA : Fld := ⟨0, 8⟩
def DP_TMAPL_MAPBASE : Fld := ⟨6, 26⟩
def DP_TMAPH_MAPBASE : Fld := ⟨0, 8⟩
def DP_TTILL_TILEBASE : Fld := ⟨6, 26⟩
def DP_TTILH_TILEBASE : Fld := ⟨0, 8⟩
def DP_TSCR_SCY : Fld := ⟨16, 13⟩
def DP_TSCR_SCX : Fld := ⟨0, 13⟩
def DP_TWIN0_WY0 : Fld := ⟨16, 13⟩
def DP_TWIN0_WX0 : Fld := ⟨0, 13⟩
def DP_TWIN1_WY1 : Fld := ⟨16, 13⟩
def DP_TWIN1_WX1 : Fld := ⟨0, 13⟩
def DP_AUXD_DATA : Fld := ⟨0, 32⟩
def DP_RSIG_CRC : Fld := ⟨0, 32⟩
def DP_RREP_COUNT : Fld := ⟨0, 8⟩
def DP_RX_X1 : Fld := ⟨16, 13⟩
def DP_RX_X0 : Fld := ⟨0, 13⟩
def DP_RY_Y1 : Fld := ⟨16, 13⟩
def DP_RY_Y0 : Fld := ⟨0, 13⟩
def DP_RCFG_MODE : Fld := ⟨16, 2⟩
def DP_RCFG_N : Fld := ⟨0, 8⟩
def DP_REXP_CRC : Fld := ⟨0, 32⟩
def PRS_START_DADDR : Fld := ⟨0, 32⟩
def PRS_CMD_ABORT : Fld := ⟨0, 1⟩
def PRS_STAT_STATE : Fld := ⟨30, 2⟩
def PRS_STAT_DONE : Fld := ⟨29, 1⟩
def PRS_STAT_ERR : Fld := ⟨28, 1⟩
def PRS_STAT_ABORTED : Fld := ⟨27, 1⟩
def PRS_STAT_ABLATE : Fld := ⟨26, 1⟩
def PRS_STAT_SREF : Fld := ⟨25, 1⟩
def PRS_STAT_WM : Fld := ⟨24, 1⟩
def PRS_STAT_CAUSE : Fld := ⟨16, 4⟩
def PRS_STAT_RDONE : Fld := ⟨0, 14⟩
def PRS_CUR_DADDR : Fld := ⟨0, 32⟩
def PRS_EADRL_ADDR : Fld := ⟨0, 32⟩
def PRS_EADRH_ADDR : Fld := ⟨0, 8⟩
def SHU_SRC_ADDR : Fld := ⟨0, 32⟩
def SHU_SRCH_ADDR : Fld := ⟨0, 8⟩
def SHU_DST_ADDR : Fld := ⟨0, 32⟩
def SHU_DSTH_ADDR : Fld := ⟨0, 8⟩
def SHU_CNT_COUNT : Fld := ⟨0, 32⟩
def SHU_CTRL_ARRIVE : Fld := ⟨31, 1⟩
def SHU_CTRL_COH : Fld := ⟨30, 1⟩
def SHU_CTRL_CLASS : Fld := ⟨28, 2⟩
def SHU_CTRL_MODE : Fld := ⟨0, 4⟩
def SHU_GEOM_PB : Fld := ⟨8, 4⟩
def SHU_GEOM_KM1 : Fld := ⟨4, 4⟩
def SHU_GEOM_ESZ : Fld := ⟨0, 2⟩
def SHU_STR_STRIDE : Fld := ⟨0, 32⟩
def SHU_POS_POS : Fld := ⟨0, 32⟩
def SHU_CMD_ABORT : Fld := ⟨3, 1⟩
def SHU_CMD_RESUME : Fld := ⟨2, 1⟩
def SHU_CMD_PAUSE : Fld := ⟨1, 1⟩
def SHU_CMD_GO : Fld := ⟨0, 1⟩
def SHU_STAT_STATE : Fld := ⟨29, 3⟩
def SHU_STAT_DONE : Fld := ⟨28, 1⟩
def SHU_STAT_ERR : Fld := ⟨27, 1⟩
def SHU_STAT_ABORTED : Fld := ⟨26, 1⟩
def SHU_STAT_ABLATE : Fld := ⟨25, 1⟩
def SHU_STAT_WIGN : Fld := ⟨24, 1⟩
def SHU_STAT_CAUSE : Fld := ⟨16, 4⟩
def SHU_EADR_ADDR : Fld := ⟨0, 32⟩
def SHU_EADRH_ADDR : Fld := ⟨0, 8⟩
def SPL_CTRL_COH : Fld := ⟨1, 1⟩
def SPL_CTRL_RUN : Fld := ⟨0, 1⟩
def SPL_STAT_LREF : Fld := ⟨31, 1⟩
def SPL_STAT_LERR : Fld := ⟨30, 1⟩
def SPL_STAT_PERR : Fld := ⟨29, 1⟩
def SPL_STAT_CLIP : Fld := ⟨28, 1⟩
def SPL_STAT_ABORTED : Fld := ⟨27, 1⟩
def SPL_STAT_ABLATE : Fld := ⟨26, 1⟩
def SPL_STAT_CREF : Fld := ⟨25, 1⟩
def SPL_STAT_LPEND : Fld := ⟨24, 1⟩
def SPL_STAT_BANK : Fld := ⟨23, 1⟩
def SPL_STAT_CAUSE : Fld := ⟨16, 4⟩
def SPL_STAT_EPC : Fld := ⟨0, 12⟩
def SPL_CMD_ABORT : Fld := ⟨0, 1⟩
def SPL_PLOAD_ADDR : Fld := ⟨0, 32⟩
def SPL_EVTEN_EN : Fld := ⟨0, 10⟩
def SPL_TSL_TS : Fld := ⟨0, 32⟩
def SPL_TSH_TS : Fld := ⟨0, 32⟩
def SPL_SCNT_COUNT : Fld := ⟨0, 32⟩
def SPL_IMUTE_MUTE : Fld := ⟨0, 32⟩
def SPL_VENDL_VOICE : Fld := ⟨0, 32⟩
def SPL_VENDH_VOICE : Fld := ⟨0, 32⟩
def SPL_RUNDL_READER : Fld := ⟨0, 32⟩
def SPL_RUNDH_READER : Fld := ⟨0, 32⟩
def SPL_WOVFL_WRITER : Fld := ⟨0, 32⟩
def SPL_WOVFH_WRITER : Fld := ⟨0, 32⟩
def SPL_EADRL_ADDR : Fld := ⟨0, 32⟩
def SPL_EADRH_ADDR : Fld := ⟨0, 8⟩
def SPL_TDMCTL_TXEN : Fld := ⟨31, 1⟩
def SPL_TDMCTL_RXEN : Fld := ⟨30, 1⟩
def SPL_TDMCTL_DELAY : Fld := ⟨29, 1⟩
def SPL_TDMCTL_RXSLOT : Fld := ⟨0, 16⟩
def SPL_VCTL_STATE : Fld := ⟨29, 3⟩
def SPL_VCTL_EVT : Fld := ⟨28, 1⟩
def SPL_VCTL_LOOP : Fld := ⟨27, 1⟩
def SPL_VCTL_LEVEL : Fld := ⟨0, 17⟩
def SPL_VSTART_START : Fld := ⟨0, 16⟩
def SPL_VLEN_LEN : Fld := ⟨0, 17⟩
def SPL_VLOOP_LOOPST : Fld := ⟨0, 16⟩
def SPL_VINC_INC : Fld := ⟨0, 24⟩
def SPL_VENV_AR : Fld := ⟨16, 16⟩
def SPL_VENV_DR : Fld := ⟨0, 16⟩
def SPL_VREL_SL : Fld := ⟨16, 16⟩
def SPL_VREL_RR : Fld := ⟨0, 16⟩
def SPL_VKEY_OFF : Fld := ⟨1, 1⟩
def SPL_VKEY_ON : Fld := ⟨0, 1⟩
def SPL_RCTL_EN : Fld := ⟨31, 1⟩
def SPL_RCTL_COH : Fld := ⟨30, 1⟩
def SPL_RCTL_FIRST : Fld := ⟨16, 8⟩
def SPL_RCTL_KM1 : Fld := ⟨8, 4⟩
def SPL_RCTL_ESZ : Fld := ⟨0, 1⟩
def SPL_RBASEL_BASE : Fld := ⟨0, 32⟩
def SPL_RBASEH_BASE : Fld := ⟨0, 8⟩
def SPL_RSIZE_SIZE : Fld := ⟨0, 16⟩
def SPL_RRIDX_IDX : Fld := ⟨0, 16⟩
def SPL_RWIDX_IDX : Fld := ⟨0, 16⟩
def SPL_WCTL_EN : Fld := ⟨31, 1⟩
def SPL_WCTL_COH : Fld := ⟨30, 1⟩
def SPL_WCTL_FIRST : Fld := ⟨16, 8⟩
def SPL_WCTL_KM1 : Fld := ⟨8, 4⟩
def SPL_WCTL_ESZ : Fld := ⟨0, 1⟩
def SPL_WBASEL_BASE : Fld := ⟨0, 32⟩
def SPL_WBASEH_BASE : Fld := ⟨0, 8⟩
def SPL_WSIZE_SIZE : Fld := ⟨0, 16⟩
def SPL_WWIDX_IDX : Fld := ⟨0, 16⟩
def SPL_WRIDX_IDX : Fld := ⟨0, 16⟩
def SPL_GAIN_G : Fld := ⟨0, 16⟩
def SEAM_CTRL_EN : Fld := ⟨31, 1⟩
def SEAM_CTRL_LEARN : Fld := ⟨30, 1⟩
def SEAM_CTRL_AGE : Fld := ⟨0, 10⟩
def SEAM_STAT_PREF : Fld := ⟨31, 1⟩
def SEAM_STAT_QWI : Fld := ⟨30, 1⟩
def SEAM_STAT_DMAERR : Fld := ⟨29, 1⟩
def SEAM_STAT_LFULL : Fld := ⟨28, 1⟩
def SEAM_HMACL_MAC : Fld := ⟨0, 32⟩
def SEAM_HMACH_MAC : Fld := ⟨0, 16⟩
def SEAM_HIP_IP : Fld := ⟨0, 32⟩
def SEAM_TOPO0_CNT : Fld := ⟨0, 32⟩
def SEAM_TOPO1_CNT : Fld := ⟨0, 32⟩
def SEAM_TCMD_CMD : Fld := ⟨30, 2⟩
def SEAM_TCMD_INDEX : Fld := ⟨0, 15⟩
def SEAM_TSTAT_BUSY : Fld := ⟨31, 1⟩
def SEAM_TSTAT_TREF : Fld := ⟨30, 1⟩
def SEAM_TSTAT_TWI : Fld := ⟨29, 1⟩
def SEAM_TSTAT_RES : Fld := ⟨0, 3⟩
def SEAM_TXDB_QUEUE : Fld := ⟨16, 13⟩
def SEAM_TXDB_TAIL : Fld := ⟨0, 12⟩
def SEAM_RXDB_QUEUE : Fld := ⟨16, 13⟩
def SEAM_RXDB_TAIL : Fld := ⟨0, 12⟩
def SEAM_QCMD_ABORT : Fld := ⟨31, 1⟩
def SEAM_QCMD_RX : Fld := ⟨30, 1⟩
def SEAM_QCMD_QUEUE : Fld := ⟨0, 13⟩
def SEAM_QSTAT_BUSY : Fld := ⟨31, 1⟩
def SEAM_QSTAT_ABORTED : Fld := ⟨30, 1⟩
def SEAM_QSTAT_ABLATE : Fld := ⟨29, 1⟩
def SEAM_PUB_GROUP : Fld := ⟨0, 8⟩
def SEAM_RXDEF_EN : Fld := ⟨31, 1⟩
def SEAM_RXDEF_QUEUE : Fld := ⟨0, 13⟩
def SEAM_EVTEN_EN : Fld := ⟨0, 16⟩
def SEAM_EADRL_ADDR : Fld := ⟨0, 32⟩
def SEAM_EADRH_ADDR : Fld := ⟨0, 8⟩
def SEAM_PTPCTL_EN : Fld := ⟨31, 1⟩
def SEAM_PTPCTL_ISTEP : Fld := ⟨30, 1⟩
def SEAM_PTPCTL_SRTO : Fld := ⟨26, 4⟩
def SEAM_PTPCTL_RSH : Fld := ⟨22, 4⟩
def SEAM_PTPCTL_LOGPD : Fld := ⟨18, 4⟩
def SEAM_PTPCTL_LOGSYNC : Fld := ⟨14, 4⟩
def SEAM_PTPCTL_MQ : Fld := ⟨0, 13⟩
def SEAM_PTPSTAT_OVALID : Fld := ⟨31, 1⟩
def SEAM_PTPOFFL_OFF : Fld := ⟨0, 32⟩
def SEAM_PTPOFFH_OFF : Fld := ⟨0, 32⟩
def SEAM_PTPRATE_RATE : Fld := ⟨0, 32⟩
def SEAM_SGATE_OPEN : Fld := ⟨0, 32⟩
def SEAM_PGSTAT_BUSY : Fld := ⟨1, 1⟩
def SEAM_PGSTAT_FRONT : Fld := ⟨0, 1⟩
def SEAM_PCTL_EN : Fld := ⟨31, 1⟩
def SEAM_PCTL_MODE : Fld := ⟨30, 1⟩
def SEAM_PCTL_STATE : Fld := ⟨28, 2⟩
def SEAM_PCTL_ROLE : Fld := ⟨26, 2⟩
def SEAM_PCTL_DPCP : Fld := ⟨16, 3⟩
def SEAM_PCTL_PVID : Fld := ⟨0, 12⟩
def SEAM_PSTAT_LINK : Fld := ⟨31, 1⟩
def SEAM_PSTAT_SPEED : Fld := ⟨28, 3⟩
def SEAM_PSTAT_VERIFIED : Fld := ⟨27, 1⟩
def SEAM_GSET_MASK : Fld := ⟨8, 8⟩
def SEAM_GSET_VAL : Fld := ⟨0, 8⟩
def SEAM_GATE_GATES : Fld := ⟨0, 8⟩
def SEAM_PPRE_VERIFY : Fld := ⟨31, 1⟩
def SEAM_PPRE_ADDFRAG : Fld := ⟨8, 2⟩
def SEAM_PPRE_PMASK : Fld := ⟨0, 8⟩
def SEAM_PTCM_PCPN : Fld := ⟨0, 24⟩
def SEAM_POVR_COUNT : Fld := ⟨0, 32⟩
def SEAM_PDROP_COUNT : Fld := ⟨0, 32⟩
def SEAM_PMDL_MDL : Fld := ⟨0, 32⟩
def SELM_MCTL_EN : Fld := ⟨31, 1⟩
def SELM_MCTL_COH : Fld := ⟨30, 1⟩
def SELM_MCTL_SZL : Fld := ⟨0, 4⟩
def SELM_MSTAT_ILINK : Fld := ⟨31, 1⟩
def SELM_MSTAT_READY : Fld := ⟨30, 1⟩
def SELM_MSTAT_WAIT : Fld := ⟨29, 1⟩
def SELM_MSTAT_MERR : Fld := ⟨28, 1⟩
def SELM_MSTAT_WIGN : Fld := ⟨27, 1⟩
def SELM_RBASEL_ADDR : Fld := ⟨9, 23⟩
def SELM_RBASEH_ADDR : Fld := ⟨0, 8⟩
def SELM_WIDX_IDX : Fld := ⟨0, 12⟩
def SELM_RIDX_IDX : Fld := ⟨0, 12⟩
def SELM_EADRL_ADDR : Fld := ⟨0, 32⟩
def SELM_EADRH_ADDR : Fld := ⟨0, 8⟩
def SELM_MCNT_COUNT : Fld := ⟨0, 32⟩
def TMR_CTL_EN : Fld := ⟨31, 1⟩
def TMR_CTL_FRZ : Fld := ⟨30, 1⟩
def TMR_CTL_CLKSEL : Fld := ⟨24, 2⟩
def TMR_CTL_EDGE : Fld := ⟨20, 2⟩
def TMR_CTL_PRE : Fld := ⟨0, 8⟩
def TMR_STAT_FROZEN : Fld := ⟨31, 1⟩
def TMR_STAT_CAPPEND : Fld := ⟨16, 4⟩
def TMR_STAT_COVR : Fld := ⟨8, 4⟩
def TMR_STAT_PERF : Fld := ⟨4, 1⟩
def TMR_STAT_CHF : Fld := ⟨0, 4⟩
def TMR_CNTL_CNT : Fld := ⟨0, 32⟩
def TMR_CNTH_CNT : Fld := ⟨0, 16⟩
def TMR_PERL_PER : Fld := ⟨0, 32⟩
def TMR_PERH_PER : Fld := ⟨0, 16⟩
def TMR_TRIG_SRC : Fld := ⟨24, 5⟩
def TMR_TRIG_MODE : Fld := ⟨20, 3⟩
def TMR_TRIG_SIG : Fld := ⟨16, 3⟩
def TMR_DTSTEP_STEP : Fld := ⟨0, 32⟩
def TMR_IEN_EN : Fld := ⟨0, 6⟩
def TMR_OWN_CTX : Fld := ⟨0, 7⟩
def TMR_CCTL_LEVEL : Fld := ⟨31, 1⟩
def TMR_CCTL_CVAL : Fld := ⟨16, 1⟩
def TMR_CCTL_CEDGE : Fld := ⟨8, 2⟩
def TMR_CCTL_OUTMODE : Fld := ⟨4, 3⟩
def TMR_CCTL_MODE : Fld := ⟨0, 2⟩
def TMR_CMPL_CMP : Fld := ⟨0, 32⟩
def TMR_CMPH_CMP : Fld := ⟨0, 16⟩
def TMR_CAPL_CAP : Fld := ⟨0, 32⟩
def TMR_CAPH_CAP : Fld := ⟨0, 16⟩
def PIN_CTRL_LOCK : Fld := ⟨31, 1⟩
def PIN_DOUT_OUT : Fld := ⟨0, 32⟩
def PIN_DSET_BITS : Fld := ⟨0, 32⟩
def PIN_DCLR_BITS : Fld := ⟨0, 32⟩
def PIN_DTGL_BITS : Fld := ⟨0, 32⟩
def PIN_OE_OE : Fld := ⟨0, 32⟩
def PIN_DIN_IN : Fld := ⟨0, 32⟩
def PIN_CFG_SLOW : Fld := ⟨12, 1⟩
def PIN_CFG_DRV : Fld := ⟨8, 2⟩
def PIN_CFG_PULL : Fld := ⟨4, 2⟩
def PIN_CFG_OD : Fld := ⟨2, 1⟩
def PIN_CFG_MODE : Fld := ⟨0, 2⟩
def PIN_OSEL_PIN : Fld := ⟨0, 8⟩
def PIN_ISEL_PIN : Fld := ⟨0, 8⟩
def PIN_PPCTL_EN : Fld := ⟨31, 1⟩
def PIN_PPCTL_PORT : Fld := ⟨24, 3⟩
def PIN_PPCTL_RING : Fld := ⟨16, 2⟩
def PIN_PPCTL_CTX : Fld := ⟨0, 8⟩
def PIN_PPMSK_MASK : Fld := ⟨0, 32⟩
def PIN_IRQCFG_EN : Fld := ⟨31, 1⟩
def PIN_IRQCFG_PORT : Fld := ⟨24, 3⟩
def PIN_IRQCFG_TRIG : Fld := ⟨16, 3⟩
def PIN_IRQCFG_FILT : Fld := ⟨0, 4⟩
def PIN_IRQSTAT_LINE : Fld := ⟨0, 16⟩
def SYS_STRAP_LSREQ : Fld := ⟨2, 1⟩
def SYS_STRAP_BOOTSRC : Fld := ⟨0, 2⟩
def SYS_RSTSTAT_CAUSE : Fld := ⟨0, 4⟩
def SYS_RSTCTL_SYSRST : Fld := ⟨31, 1⟩
def SYS_RSTCTL_BRST : Fld := ⟨0, 18⟩
def SYS_BOOTSTAT_OK : Fld := ⟨31, 1⟩
def SYS_BOOTSTAT_OPEN : Fld := ⟨30, 1⟩
def SYS_BOOTSTAT_KEYIDX : Fld := ⟨28, 2⟩
def SYS_BOOTSTAT_SRC : Fld := ⟨26, 2⟩
def SYS_BOOTSTAT_COPY : Fld := ⟨25, 1⟩
def SYS_BOOTSTAT_ERR : Fld := ⟨0, 8⟩
def SYS_FAULT_FORCE : Fld := ⟨31, 1⟩
def SYS_FAULT_BOOT : Fld := ⟨2, 1⟩
def SYS_FAULT_LEXH : Fld := ⟨1, 1⟩
def SYS_FAULT_LSMIS : Fld := ⟨0, 1⟩
def SYS_VSETTLE_US : Fld := ⟨0, 16⟩
def SYS_BPWR_OFF : Fld := ⟨5, 8⟩
def SYS_BPSTAT_REF : Fld := ⟨31, 1⟩
def SYS_BPSTAT_OFF : Fld := ⟨5, 8⟩
def SYS_STBY_GO : Fld := ⟨31, 1⟩
def SYS_STBYSTAT_REF : Fld := ⟨31, 1⟩
def SYS_STBYSTAT_CAUSE : Fld := ⟨0, 4⟩
def SYS_FMRET_BANKS : Fld := ⟨0, 32⟩
def SYS_WAKEEN_EN : Fld := ⟨0, 18⟩
def SYS_WAKESRC_VALID : Fld := ⟨31, 1⟩
def SYS_WAKESRC_SRC : Fld := ⟨0, 5⟩
def SYS_APLL_DTLOCK : Fld := ⟨31, 1⟩
def SYS_APLL_LOCKED : Fld := ⟨30, 1⟩
def SYS_APHL_APH : Fld := ⟨0, 32⟩
def SYS_APHH_APH : Fld := ⟨0, 32⟩
def SYS_CLKSTAT_PWI : Fld := ⟨31, 1⟩
def SYS_CLKSTAT_LOST : Fld := ⟨0, 14⟩
def SYS_QDVFS_BUSY : Fld := ⟨31, 1⟩
def SYS_QDVFS_ERR : Fld := ⟨30, 1⟩
def SYS_QDVFS_PEND : Fld := ⟨29, 1⟩
def SYS_QDVFS_CUR : Fld := ⟨4, 2⟩
def SYS_QDVFS_TARGET : Fld := ⟨0, 2⟩
def SYS_PXCTL_EN : Fld := ⟨31, 1⟩
def SYS_PXCTL_LOCK : Fld := ⟨30, 1⟩
def SYS_PXCTL_INT : Fld := ⟨16, 7⟩
def SYS_PXCTL_DIV : Fld := ⟨0, 7⟩
def SYS_PXFRAC_FRAC : Fld := ⟨0, 24⟩
def SYS_PXMOD_MOD : Fld := ⟨0, 24⟩

end Fld

namespace RegMap
open Fld Sys2Proof.Machine.Acc

/-- The registers of block SYS. -/
def blockSYS : List RegDef :=
  [⟨0x10000000, 1, 4, 1, 4, [⟨SYS_DEVID_REV, ro, 0x1, []⟩, ⟨SYS_DEVID_PART, ro, 0x640, []⟩, ⟨SYS_DEVID_VARIANT, ro, 0, []⟩, ⟨SYS_DEVID_MAKER, ro, 0x5E1, []⟩]⟩,
   ⟨0x10000004, 1, 4, 1, 4, [⟨SYS_STRAP_LSREQ, ro, 0, []⟩, ⟨SYS_STRAP_BOOTSRC, ro, 0, []⟩]⟩,
   ⟨0x10000008, 1, 4, 1, 4, [⟨SYS_RSTSTAT_CAUSE, ro, 0x1, []⟩]⟩,
   ⟨0x1000000C, 1, 4, 1, 4, [⟨SYS_RSTCTL_SYSRST, wo, 0, []⟩, ⟨SYS_RSTCTL_BRST, w1s, 0, []⟩]⟩,
   ⟨0x10000010, 1, 4, 1, 4, [⟨SYS_BOOTSTAT_OK, rw, 0, []⟩, ⟨SYS_BOOTSTAT_OPEN, rw, 0, []⟩, ⟨SYS_BOOTSTAT_KEYIDX, rw, 0, []⟩, ⟨SYS_BOOTSTAT_SRC, rw, 0, []⟩, ⟨SYS_BOOTSTAT_COPY, rw, 0, []⟩, ⟨SYS_BOOTSTAT_ERR, rw, 0, []⟩]⟩,
   ⟨0x10000014, 1, 4, 1, 4, [⟨SYS_FAULT_FORCE, rw, 0, []⟩, ⟨SYS_FAULT_BOOT, w1s, 0, []⟩, ⟨SYS_FAULT_LEXH, ro, 0, []⟩, ⟨SYS_FAULT_LSMIS, ro, 0, []⟩]⟩,
   ⟨0x10000030, 1, 4, 1, 4, [⟨SYS_VSETTLE_US, rw, 0x14, [(0, 0, 1)]⟩]⟩,
   ⟨0x10000040, 1, 4, 1, 4, [⟨SYS_BPWR_OFF, rw, 0, []⟩]⟩,
   ⟨0x10000044, 1, 4, 1, 4, [⟨SYS_BPSTAT_REF, w1c, 0, []⟩, ⟨SYS_BPSTAT_OFF, ro, 0, []⟩]⟩,
   ⟨0x10000050, 1, 4, 1, 4, [⟨SYS_STBY_GO, w1s, 0, []⟩]⟩,
   ⟨0x10000054, 1, 4, 1, 4, [⟨SYS_STBYSTAT_REF, w1c, 0, []⟩, ⟨SYS_STBYSTAT_CAUSE, ro, 0, []⟩]⟩,
   ⟨0x10000058, 1, 4, 1, 4, [⟨SYS_FMRET_BANKS, rw, 0xFFFFFFFF, []⟩]⟩] ++
  [⟨0x10000060, 1, 4, 1, 4, [⟨SYS_WAKEEN_EN, rw, 0x20000, []⟩]⟩,
   ⟨0x10000064, 1, 4, 1, 4, [⟨SYS_WAKESRC_VALID, w1c, 0, []⟩, ⟨SYS_WAKESRC_SRC, ro, 0, []⟩]⟩,
   ⟨0x100000C0, 1, 4, 1, 4, [⟨SYS_APLL_DTLOCK, rw, 0, []⟩, ⟨SYS_APLL_LOCKED, ro, 0, []⟩]⟩,
   ⟨0x100000C4, 1, 4, 1, 4, [⟨SYS_APHL_APH, rw, 0, []⟩]⟩,
   ⟨0x100000C8, 1, 4, 1, 4, [⟨SYS_APHH_APH, rw, 0, []⟩]⟩,
   ⟨0x100000D0, 1, 4, 1, 4, [⟨SYS_CLKSTAT_PWI, w1c, 0, []⟩, ⟨SYS_CLKSTAT_LOST, w1c, 0, []⟩]⟩,
   ⟨0x10000020, 4, 4, 1, 4, [⟨SYS_QDVFS_BUSY, ro, 0, []⟩, ⟨SYS_QDVFS_ERR, w1c, 0, []⟩, ⟨SYS_QDVFS_PEND, ro, 0, []⟩, ⟨SYS_QDVFS_CUR, ro, 0x2, []⟩, ⟨SYS_QDVFS_TARGET, rw, 0x2, []⟩]⟩,
   ⟨0x10000080, 4, 16, 1, 16, [⟨SYS_PXCTL_EN, rw, 0, []⟩, ⟨SYS_PXCTL_LOCK, ro, 0, []⟩, ⟨SYS_PXCTL_INT, rw, 0x5F, []⟩, ⟨SYS_PXCTL_DIV, rw, 0x4, []⟩]⟩,
   ⟨0x10000084, 4, 16, 1, 16, [⟨SYS_PXFRAC_FRAC, rw, 0, []⟩]⟩,
   ⟨0x10000088, 4, 16, 1, 16, [⟨SYS_PXMOD_MOD, rw, 0x1, [(0, 0, 1)]⟩]⟩]

/-- The registers of block FAB. -/
def blockFAB : List RegDef :=
  [⟨0x10400000, 1, 4, 1, 4, [⟨FAB_CTRL_LOCK, w1s, 0, []⟩, ⟨FAB_CTRL_DEFAULT, rwl, 0, []⟩]⟩,
   ⟨0x10400004, 1, 4, 1, 4, [⟨FAB_VSTAT_VALID, w1c, 0, []⟩, ⟨FAB_VSTAT_OVF, w1c, 0, []⟩, ⟨FAB_VSTAT_LINING, ro, 0, []⟩, ⟨FAB_VSTAT_WRITE, ro, 0, []⟩, ⟨FAB_VSTAT_CAUSE, ro, 0, []⟩, ⟨FAB_VSTAT_REGION, ro, 0, []⟩, ⟨FAB_VSTAT_INIT, ro, 0, []⟩]⟩,
   ⟨0x10400008, 1, 4, 1, 4, [⟨FAB_VADDR_LO_ADDR, ro, 0, []⟩]⟩,
   ⟨0x1040000C, 1, 4, 1, 4, [⟨FAB_VADDR_HI_ADDR, ro, 0, []⟩]⟩,
   ⟨0x10400100, 26, 4, 1, 4, [⟨FAB_IGRP_GRP, rwl, 0, []⟩]⟩,
   ⟨0x10400400, 32, 16, 1, 16, [⟨FAB_RBASE_BASE, rwl, 0, []⟩]⟩,
   ⟨0x10400404, 32, 16, 1, 16, [⟨FAB_RLIM_LIMIT, rwl, 0, []⟩]⟩,
   ⟨0x10400408, 32, 16, 1, 16, [⟨FAB_RPERM_WMASK, rwl, 0, []⟩, ⟨FAB_RPERM_RMASK, rwl, 0, []⟩]⟩,
   ⟨0x1040040C, 32, 16, 1, 16, [⟨FAB_RCTL_EN, rwl, 0, []⟩]⟩,
   ⟨0x10400800, 1, 4, 1, 4, [⟨FAB_APCTL_LOCK, w1s, 0, []⟩]⟩,
   ⟨0x10400810, 4, 4, 1, 4, [⟨FAB_APOWN_EN, rwl, 0, []⟩, ⟨FAB_APOWN_ID, rwl, 0, []⟩]⟩]

/-- The registers of block PSQ. -/
def blockPSQ : List RegDef :=
  [⟨0x10200000, 1, 4, 1, 4, [⟨PSQ_OWNER_LOCK, w1s, 0, []⟩, ⟨PSQ_OWNER_CTX, rwl, 0, []⟩]⟩,
   ⟨0x10200004, 1, 4, 1, 4, [⟨PSQ_JDONE_LANE, wo, 0, []⟩]⟩,
   ⟨0x10200010, 1, 4, 1, 4, [⟨PSQ_SWAP_FLIP, wo, 0, []⟩]⟩,
   ⟨0x10200014, 1, 4, 1, 4, [⟨PSQ_SWAPSTAT_PENDING, ro, 0, []⟩, ⟨PSQ_SWAPSTAT_BWI, w1c, 0, []⟩, ⟨PSQ_SWAPSTAT_FREF, w1c, 0, []⟩, ⟨PSQ_SWAPSTAT_TARGET, ro, 0, []⟩, ⟨PSQ_SWAPSTAT_LBANK, ro, 0, []⟩]⟩,
   ⟨0x10200100, 1, 4, 1, 4, [⟨PSQ_DTF_FRAC, ro, 0, []⟩]⟩,
   ⟨0x10200104, 1, 4, 1, 4, [⟨PSQ_DTL_NSLO, ro, 0, []⟩]⟩,
   ⟨0x10200108, 1, 4, 1, 4, [⟨PSQ_DTH_NSHI, ro, 0, []⟩]⟩,
   ⟨0x10200110, 1, 4, 1, 4, [⟨PSQ_DTINCL_INCLO, rw, 0x55555555, []⟩]⟩,
   ⟨0x10200114, 1, 4, 1, 4, [⟨PSQ_DTINCH_INCHI, rw, 0x1, []⟩]⟩,
   ⟨0x10200118, 1, 4, 1, 4, [⟨PSQ_DTADJ_ADJ, rw, 0, []⟩]⟩,
   ⟨0x1020011C, 1, 4, 1, 4, [⟨PSQ_DTCTRL_DISC, rw, 0, []⟩, ⟨PSQ_DTCTRL_SLEW, rw, 0xC, [(0, 9, 10), (21, 31, 20)]⟩, ⟨PSQ_DTCTRL_HOLD, ro, 0, []⟩, ⟨PSQ_DTCTRL_SREF, w1c, 0, []⟩, ⟨PSQ_DTCTRL_STEP, wo, 0, []⟩]⟩,
   ⟨0x10200120, 1, 4, 1, 4, [⟨PSQ_DTSETL_SETLO, rw, 0, []⟩]⟩] ++
  [⟨0x10200124, 1, 4, 1, 4, [⟨PSQ_DTSETH_SETHI, rw, 0, []⟩]⟩,
   ⟨0x10201000, 16, 64, 1, 64, [⟨PSQ_LCMD_FINISH, wo, 0, []⟩, ⟨PSQ_LCMD_STOP, wo, 0, []⟩, ⟨PSQ_LCMD_START, wo, 0, []⟩]⟩,
   ⟨0x10201004, 16, 64, 1, 64, [⟨PSQ_LSTAT_STATE, ro, 0, []⟩, ⟨PSQ_LSTAT_BANK, ro, 0, []⟩, ⟨PSQ_LSTAT_CAUSE, ro, 0, []⟩, ⟨PSQ_LSTAT_ERR, w1c, 0, []⟩, ⟨PSQ_LSTAT_LAGMAX, w1c, 0, []⟩, ⟨PSQ_LSTAT_LATE, ro, 0, []⟩, ⟨PSQ_LSTAT_DONE, w1c, 0, []⟩, ⟨PSQ_LSTAT_ABLATE, w1c, 0, []⟩]⟩,
   ⟨0x10201008, 16, 64, 1, 64, [⟨PSQ_LSTARTL_T0LO, rw, 0, []⟩]⟩,
   ⟨0x1020100C, 16, 64, 1, 64, [⟨PSQ_LSTARTH_T0HI, rw, 0, []⟩]⟩,
   ⟨0x10201010, 16, 64, 1, 64, [⟨PSQ_LLAG_LAG, ro, 0, []⟩]⟩,
   ⟨0x10201014, 16, 64, 1, 64, [⟨PSQ_LPCNT_PCNT, ro, 0, []⟩]⟩,
   ⟨0x10201018, 16, 64, 1, 64, [⟨PSQ_LENT_ENTRY, ro, 0, []⟩]⟩,
   ⟨0x1020101C, 16, 64, 1, 64, [⟨PSQ_LEVTEN_EN, rw, 0xFE, []⟩]⟩,
   ⟨0x10201020, 16, 64, 1, 64, [⟨PSQ_LPEAK_PEAK, rc, 0, []⟩]⟩,
   ⟨0x10201024, 16, 64, 1, 64, [⟨PSQ_LREFL_REFLO, ro, 0, []⟩]⟩,
   ⟨0x10201028, 16, 64, 1, 64, [⟨PSQ_LREFH_REFHI, ro, 0, []⟩]⟩] ++
  [⟨0x10202000, 128, 4, 1, 4, [⟨PSQ_CJOB_LANES, ro, 0, []⟩]⟩]

/-- The registers of block DBG. -/
def blockDBG : List RegDef :=
  [⟨0x11000000, 1, 4, 1, 4, [⟨DBG_CTRL_LOCK, w1s, 0, []⟩, ⟨DBG_CTRL_NOHALT, rwl, 0, []⟩, ⟨DBG_CTRL_BRKCLAIM, rw, 0, []⟩]⟩,
   ⟨0x11000004, 1, 4, 1, 4, [⟨DBG_STAT_AERR, w1c, 0, []⟩, ⟨DBG_STAT_OVF, w1c, 0, []⟩, ⟨DBG_STAT_RERR, w1c, 0, []⟩, ⟨DBG_STAT_CAUSE, ro, 0, []⟩]⟩,
   ⟨0x11000008, 1, 4, 1, 4, [⟨DBG_EADRL_ADDR, ro, 0, []⟩]⟩,
   ⟨0x1100000C, 1, 4, 1, 4, [⟨DBG_EADRH_ADDR, ro, 0, []⟩]⟩,
   ⟨0x11000010, 1, 4, 1, 4, [⟨DBG_RSEL_CTX, rw, 0, []⟩, ⟨DBG_RSEL_REG, rw, 0, []⟩]⟩,
   ⟨0x11000014, 1, 4, 1, 4, [⟨DBG_RDATL_DATA, rw, 0, []⟩]⟩,
   ⟨0x11000018, 1, 4, 1, 4, [⟨DBG_RDATH_DATA, rw, 0, []⟩]⟩,
   ⟨0x11000100, 4, 4, 1, 4, [⟨DBG_HALT_CTX, wo, 0, []⟩]⟩,
   ⟨0x11000110, 4, 4, 1, 4, [⟨DBG_RESUME_CTX, wo, 0, []⟩]⟩,
   ⟨0x11000120, 4, 4, 1, 4, [⟨DBG_HSTAT_CTX, ro, 0, []⟩]⟩,
   ⟨0x11000130, 4, 4, 1, 4, [⟨DBG_BSTAT_CTX, w1c, 0, []⟩]⟩]

/-- The registers of block HYC. -/
def blockHYC : List RegDef :=
  [⟨0x11100000, 16, 256, 1, 256, [⟨HYC_WHEELLO_SLOT7_SLOT0, rwl, 0x76543210, []⟩]⟩,
   ⟨0x11100004, 16, 256, 1, 256, [⟨HYC_WHEELHI_SLOT15_SLOT8, rwl, 0x76543210, []⟩]⟩,
   ⟨0x11100008, 16, 256, 1, 256, [⟨HYC_CORECTL_LOCK, w1s, 0, []⟩, ⟨HYC_CORECTL_TBFLUSH, wo, 0, []⟩]⟩,
   ⟨0x1110000C, 16, 256, 1, 256, [⟨HYC_CORESTAT_WREF, w1c, 0, []⟩, ⟨HYC_CORESTAT_WPEND, ro, 0, []⟩, ⟨HYC_CORESTAT_KDONE, w1c, 0, []⟩]⟩,
   ⟨0x11102000, 128, 32, 1, 32, [⟨HYC_CCTL_TBOFF, rwl, 0, []⟩, ⟨HYC_CCTL_STRICT, rwl, 0, []⟩]⟩,
   ⟨0x11102004, 128, 32, 1, 32, [⟨HYC_CSTAT_STATE, ro, 0, []⟩, ⟨HYC_CSTAT_EXH, ro, 0, []⟩, ⟨HYC_CSTAT_STRICTA, ro, 0, []⟩, ⟨HYC_CSTAT_KILLED, w1c, 0, []⟩, ⟨HYC_CSTAT_STOPPED, w1c, 0, []⟩, ⟨HYC_CSTAT_ABLATE, w1c, 0, []⟩]⟩,
   ⟨0x11102008, 128, 32, 1, 32, [⟨HYC_CCMD_KILL, wo, 0, []⟩, ⟨HYC_CCMD_START, wo, 0, []⟩]⟩,
   ⟨0x1110200C, 128, 32, 1, 32, [⟨HYC_CSTARTL_PCLO, rw, 0, []⟩]⟩,
   ⟨0x11102010, 128, 32, 1, 32, [⟨HYC_CSTARTH_PCHI, rw, 0, []⟩]⟩,
   ⟨0x11104000, 1, 4, 1, 4, [⟨HYC_LSCTL_ACTIVE, ro, 0, []⟩]⟩,
   ⟨0x11104004, 1, 4, 1, 4, [⟨HYC_LSSTAT_MIS, w1c, 0, []⟩, ⟨HYC_LSSTAT_SPLIT, ro, 0, []⟩, ⟨HYC_LSSTAT_KIND, ro, 0, []⟩]⟩,
   ⟨0x11104008, 1, 4, 1, 4, [⟨HYC_LSVC_LOCK, w1s, 0, []⟩, ⟨HYC_LSVC_CTX, rwl, 0, []⟩]⟩]

/-- The registers of block MEM. -/
def blockMEM : List RegDef :=
  [⟨0x10300000, 1, 4, 1, 4, [⟨MEM_CTRL_LOCK, w1s, 0, []⟩, ⟨MEM_CTRL_DRAMSZ, rwl, 0, [(6, 7, 0)]⟩]⟩,
   ⟨0x10300004, 1, 4, 1, 4, [⟨MEM_STAT_RREF, w1c, 0, []⟩, ⟨MEM_STAT_CHRDY, ro, 0, []⟩]⟩,
   ⟨0x10300020, 1, 4, 1, 4, [⟨MEM_SCRUB_DEN, rw, 0x1, []⟩, ⟨MEM_SCRUB_FEN, rw, 0x1, []⟩, ⟨MEM_SCRUB_FMINT, rw, 0, []⟩, ⟨MEM_SCRUB_DDRINT, rw, 0xFF, []⟩]⟩,
   ⟨0x10300030, 1, 4, 1, 4, [⟨MEM_ECCSTAT_VALID, w1c, 0, []⟩, ⟨MEM_ECCSTAT_OVF, w1c, 0, []⟩, ⟨MEM_ECCSTAT_UE, ro, 0, []⟩, ⟨MEM_ECCSTAT_SRC, ro, 0, []⟩, ⟨MEM_ECCSTAT_SYN, ro, 0, []⟩, ⟨MEM_ECCSTAT_INIT, ro, 0, []⟩]⟩,
   ⟨0x10300034, 1, 4, 1, 4, [⟨MEM_ECCADDRL_ADDR, ro, 0, []⟩]⟩,
   ⟨0x10300038, 1, 4, 1, 4, [⟨MEM_ECCADDRH_ADDR, ro, 0, []⟩]⟩,
   ⟨0x10300040, 1, 4, 1, 4, [⟨MEM_CECNT_COUNT, rc, 0, []⟩]⟩,
   ⟨0x10300044, 1, 4, 1, 4, [⟨MEM_UECNT_COUNT, rc, 0, []⟩]⟩,
   ⟨0x10300010, 4, 4, 1, 4, [⟨MEM_RSV_BKMIN, rwl, 0, [(9, 63, 8)]⟩, ⟨MEM_RSV_RT1, rwl, 0, []⟩, ⟨MEM_RSV_RT0, rwl, 0, []⟩]⟩,
   ⟨0x10300050, 4, 4, 1, 4, [⟨MEM_MCSTAT_VALID, w1c, 0, []⟩, ⟨MEM_MCSTAT_KIND, ro, 0, []⟩]⟩]

/-- The registers of block EVC. -/
def blockEVC : List RegDef :=
  [⟨0x10100000, 1, 4, 1, 4, [⟨EVC_STAT_CERR, w1c, 0, []⟩, ⟨EVC_STAT_REL, w1c, 0, []⟩, ⟨EVC_STAT_RSTD, w1c, 0, []⟩, ⟨EVC_STAT_CNUM, ro, 0, []⟩, ⟨EVC_STAT_CINIT, ro, 0, []⟩]⟩,
   ⟨0x10100004, 1, 4, 1, 4, [⟨EVC_SPUR_COUNT, rc, 0, []⟩]⟩,
   ⟨0x10100010, 1, 4, 1, 4, [⟨EVC_CLAIM_NUM, ro, 0x7FF, []⟩]⟩,
   ⟨0x10100014, 1, 4, 1, 4, [⟨EVC_COMPLETE_NUM, wo, 0, []⟩]⟩,
   ⟨0x10100020, 1, 4, 1, 4, [⟨EVC_DOORBELL_CTX, wo, 0, []⟩]⟩,
   ⟨0x10110000, 1536, 4, 1, 4, [⟨EVC_SCFG_LOCK, w1s, 0, []⟩, ⟨EVC_SCFG_GEN, rwl, 0, []⟩, ⟨EVC_SCFG_GRP, rwl, 0, []⟩, ⟨EVC_SCFG_PRIO, rwl, 0, []⟩, ⟨EVC_SCFG_EN, rwl, 0, []⟩]⟩,
   ⟨0x10120000, 1536, 4, 1, 4, [⟨EVC_SSTAT_PEND, w1c, 0, []⟩, ⟨EVC_SSTAT_ACT, ro, 0, []⟩, ⟨EVC_SSTAT_HELD, ro, 0, []⟩, ⟨EVC_SSTAT_OWNER, ro, 0, []⟩]⟩,
   ⟨0x10130000, 256, 8, 1, 8, [⟨EVC_GCFG_EN, rw, 0, []⟩, ⟨EVC_GCFG_COUNT, rw, 0x1, [(0, 0, 1), (1025, 2047, 1024)]⟩]⟩,
   ⟨0x10130004, 256, 8, 1, 8, [⟨EVC_GTIME_TIMEOUT, rw, 0, []⟩]⟩,
   ⟨0x10131000, 256, 4, 1, 4, [⟨EVC_GSTAT_ARMED, ro, 0, []⟩, ⟨EVC_GSTAT_COUNT, ro, 0, []⟩]⟩,
   ⟨0x10140000, 1536, 16, 4, 4, [⟨EVC_TGT_MASK, rwl, 0, []⟩]⟩,
   ⟨0x10150000, 128, 4, 1, 4, [⟨EVC_CPRES_VALID, ro, 0, []⟩, ⟨EVC_CPRES_NUM, ro, 0x7FF, []⟩]⟩]

/-- The registers of block DP. -/
def blockDP : List RegDef :=
  [⟨0x10700000, 4, 1048576, 1, 1048576, [⟨DP_CTRL_LOCK, w1s, 0, []⟩, ⟨DP_CTRL_EN, rw, 0, []⟩]⟩,
   ⟨0x10700004, 4, 1048576, 1, 1048576, [⟨DP_STAT_CREF, w1c, 0, []⟩, ⟨DP_STAT_AWI, w1c, 0, []⟩, ⟨DP_STAT_XREF, w1c, 0, []⟩, ⟨DP_STAT_SPOVF, w1c, 0, []⟩, ⟨DP_STAT_SLIP, w1c, 0, []⟩, ⟨DP_STAT_RRACT, ro, 0, []⟩, ⟨DP_STAT_RUN, ro, 0, []⟩, ⟨DP_STAT_CAUSE, ro, 0, []⟩, ⟨DP_STAT_GAMB, ro, 0, []⟩, ⟨DP_STAT_SPRB, ro, 0, []⟩, ⟨DP_STAT_PALB, ro, 0, []⟩]⟩,
   ⟨0x10700008, 4, 1048576, 1, 1048576, [⟨DP_COMMIT_PENDING, ro, 0, []⟩, ⟨DP_COMMIT_GAM, wo, 0, []⟩, ⟨DP_COMMIT_SPR, wo, 0, []⟩, ⟨DP_COMMIT_PAL, wo, 0, []⟩, ⟨DP_COMMIT_GO, wo, 0, []⟩]⟩,
   ⟨0x1070000C, 4, 1048576, 1, 1048576, [⟨DP_POS_LINE, ro, 0, []⟩, ⟨DP_POS_PIXEL, ro, 0, []⟩]⟩,
   ⟨0x10700010, 4, 1048576, 1, 1048576, [⟨DP_EVTEN_EN, rw, 0xFFFF, []⟩]⟩,
   ⟨0x10700014, 4, 1048576, 1, 1048576, [⟨DP_LMATCH_LINE, rw, 0, []⟩]⟩,
   ⟨0x10700018, 4, 1048576, 1, 1048576, [⟨DP_GLERR_ERR, ro, 0, []⟩]⟩,
   ⟨0x1070001C, 4, 1048576, 1, 1048576, [⟨DP_FSIG_CRC, ro, 0, []⟩]⟩,
   ⟨0x10700020, 4, 1048576, 1, 1048576, [⟨DP_WBSTAT_OVF, w1c, 0, []⟩, ⟨DP_WBSTAT_DONE, w1c, 0, []⟩, ⟨DP_WBSTAT_LAST, ro, 0, []⟩, ⟨DP_WBSTAT_NEXT, ro, 0, []⟩]⟩,
   ⟨0x10700024, 4, 1048576, 1, 1048576, [⟨DP_RRKICK_KICK, wo, 0, []⟩]⟩,
   ⟨0x10700100, 4, 1048576, 1, 1048576, [⟨DP_HTIM0_HTOT, rw, 0, []⟩, ⟨DP_HTIM0_HACT, rw, 0, []⟩]⟩,
   ⟨0x10700104, 4, 1048576, 1, 1048576, [⟨DP_HTIM1_HPOL, rw, 0, []⟩, ⟨DP_HTIM1_HSW, rw, 0, []⟩, ⟨DP_HTIM1_HSS, rw, 0, []⟩]⟩] ++
  [⟨0x10700108, 4, 1048576, 1, 1048576, [⟨DP_VTIM0_VTOT, rw, 0, []⟩, ⟨DP_VTIM0_VACT, rw, 0, []⟩]⟩,
   ⟨0x1070010C, 4, 1048576, 1, 1048576, [⟨DP_VTIM1_VPOL, rw, 0, []⟩, ⟨DP_VTIM1_VSW, rw, 0, []⟩, ⟨DP_VTIM1_VSS, rw, 0, []⟩]⟩,
   ⟨0x10700110, 4, 1048576, 1, 1048576, [⟨DP_BGCOL_R, rw, 0, []⟩, ⟨DP_BGCOL_G, rw, 0, []⟩, ⟨DP_BGCOL_B, rw, 0, []⟩]⟩,
   ⟨0x10700114, 4, 1048576, 1, 1048576, [⟨DP_ZORDER_D5_D0, rw, 0x2C688, []⟩]⟩,
   ⟨0x10700120, 4, 1048576, 1, 1048576, [⟨DP_GLCTL_EN, rw, 0, []⟩]⟩,
   ⟨0x10700124, 4, 1048576, 1, 1048576, [⟨DP_GLPERL_PER, rw, 0, []⟩]⟩,
   ⟨0x10700128, 4, 1048576, 1, 1048576, [⟨DP_GLPERF_FRAC, rw, 0, []⟩]⟩,
   ⟨0x1070012C, 4, 1048576, 1, 1048576, [⟨DP_GLPHL_PH, rw, 0, []⟩]⟩,
   ⟨0x10700130, 4, 1048576, 1, 1048576, [⟨DP_GLPHH_PH, rw, 0, []⟩]⟩,
   ⟨0x10700140, 4, 1048576, 1, 1048576, [⟨DP_RRCTL_EN, rw, 0, []⟩, ⟨DP_RRCTL_RRDIV, rw, 0x1, [(0, 0, 1)]⟩, ⟨DP_RRCTL_RRN, rw, 0x3C, [(0, 0, 1)]⟩, ⟨DP_RRCTL_RRVTOT, rw, 0, []⟩]⟩,
   ⟨0x10700150, 4, 1048576, 1, 1048576, [⟨DP_OUTSEL_OUT, rwl, 0, [(5, 7, 0)]⟩]⟩,
   ⟨0x10700154, 4, 1048576, 1, 1048576, [⟨DP_CSC_MTX, rwl, 0, []⟩, ⟨DP_CSC_POSTGAM, rwl, 0, []⟩, ⟨DP_CSC_PREGAM, rwl, 0, []⟩]⟩] ++
  [⟨0x107001A0, 4, 1048576, 1, 1048576, [⟨DP_WBCTL_EN, rw, 0, []⟩, ⟨DP_WBCTL_FMT, rw, 0, [(3, 3, 0)]⟩, ⟨DP_WBCTL_DIV, rw, 0x1, [(0, 0, 1)]⟩, ⟨DP_WBCTL_PITCH, rw, 0, []⟩]⟩,
   ⟨0x10700300, 4, 1048576, 1, 1048576, [⟨DP_BCTL_EN, rw, 0, []⟩, ⟨DP_BCTL_BPP, rw, 0x1, [(0, 0, 1)]⟩, ⟨DP_BCTL_F16, rw, 0, []⟩, ⟨DP_BCTL_TRANS0, rw, 0, []⟩, ⟨DP_BCTL_ADD, rw, 0, []⟩, ⟨DP_BCTL_PAL, rw, 0, []⟩, ⟨DP_BCTL_ALPHA, rw, 0xFF, []⟩]⟩,
   ⟨0x10700304, 4, 1048576, 1, 1048576, [⟨DP_BBASEL_BASE, rw, 0, []⟩]⟩,
   ⟨0x10700308, 4, 1048576, 1, 1048576, [⟨DP_BBASEH_BASE, rw, 0, []⟩]⟩,
   ⟨0x1070030C, 4, 1048576, 1, 1048576, [⟨DP_BPITCH_PITCH, rw, 0, []⟩]⟩,
   ⟨0x10700310, 4, 1048576, 1, 1048576, [⟨DP_BPOS_Y, rw, 0, []⟩, ⟨DP_BPOS_X, rw, 0, []⟩]⟩,
   ⟨0x10700314, 4, 1048576, 1, 1048576, [⟨DP_BSIZE_HM1, rw, 0, []⟩, ⟨DP_BSIZE_WM1, rw, 0, []⟩]⟩,
   ⟨0x10700340, 4, 1048576, 1, 1048576, [⟨DP_SCTL_EN, rw, 0, []⟩, ⟨DP_SCTL_ADD, rw, 0, []⟩, ⟨DP_SCTL_ALPHA, rw, 0xFF, []⟩]⟩,
   ⟨0x10780000, 4, 1048576, 1, 1048576, [⟨DP_OCTL_EN, rw, 0, []⟩, ⟨DP_OCTL_TRAIN, wo, 0, []⟩, ⟨DP_OCTL_SSC, rw, 0, []⟩, ⟨DP_OCTL_BPC10, rw, 0, []⟩, ⟨DP_OCTL_RATE, rw, 0, []⟩, ⟨DP_OCTL_LANES, rw, 0x2, [(3, 3, 2)]⟩]⟩,
   ⟨0x10780004, 4, 1048576, 1, 1048576, [⟨DP_OSTAT_HPD, ro, 0, []⟩, ⟨DP_OSTAT_TRAINED, ro, 0, []⟩, ⟨DP_OSTAT_TFAIL, w1c, 0, []⟩, ⟨DP_OSTAT_BWERR, ro, 0, []⟩, ⟨DP_OSTAT_PLUG, w1c, 0, []⟩, ⟨DP_OSTAT_UNPLUG, w1c, 0, []⟩, ⟨DP_OSTAT_IRQ, w1c, 0, []⟩, ⟨DP_OSTAT_CFGERR, ro, 0, []⟩]⟩,
   ⟨0x10780010, 4, 1048576, 1, 1048576, [⟨DP_AUXCMD_CMD, wo, 0, []⟩, ⟨DP_AUXCMD_ADDR, wo, 0, []⟩, ⟨DP_AUXCMD_LENM1, wo, 0, []⟩]⟩,
   ⟨0x10780024, 4, 1048576, 1, 1048576, [⟨DP_AUXSTAT_BUSY, ro, 0, []⟩, ⟨DP_AUXSTAT_DONE, w1c, 0, []⟩, ⟨DP_AUXSTAT_REPLY, ro, 0, []⟩, ⟨DP_AUXSTAT_COUNT, ro, 0, []⟩]⟩] ++
  [⟨0x10740000, 4, 1048576, 1, 1048576, [⟨DP_ISTAT_UNDR, w1c, 0, []⟩, ⟨DP_ISTAT_BOVR, w1c, 0, []⟩, ⟨DP_ISTAT_FRZ, w1c, 0, []⟩, ⟨DP_ISTAT_APH, w1c, 0, []⟩, ⟨DP_ISTAT_LLERR, w1c, 0, []⟩, ⟨DP_ISTAT_LLOVR, w1c, 0, []⟩]⟩,
   ⟨0x10740004, 4, 1048576, 1, 1048576, [⟨DP_UCNT_COUNT, rc, 0, []⟩]⟩,
   ⟨0x10740008, 4, 1048576, 1, 1048576, [⟨DP_OCNT_COUNT, rc, 0, []⟩]⟩,
   ⟨0x1074000C, 4, 1048576, 1, 1048576, [⟨DP_ULINE_LINE, ro, 0, []⟩]⟩,
   ⟨0x10740010, 4, 1048576, 1, 1048576, [⟨DP_LLSTAT_STATE, ro, 0, []⟩, ⟨DP_LLSTAT_CAUSE, ro, 0, []⟩, ⟨DP_LLSTAT_LATE, w1c, 0, []⟩, ⟨DP_LLSTAT_PC, ro, 0, []⟩]⟩,
   ⟨0x10740014, 4, 1048576, 1, 1048576, [⟨DP_RFAULT_REG, w1c, 0, []⟩]⟩,
   ⟨0x10740018, 4, 1048576, 1, 1048576, [⟨DP_APSTAT_ACT, ro, 0, []⟩, ⟨DP_APSTAT_SEQ, ro, 0, []⟩]⟩,
   ⟨0x10741000, 4, 1048576, 1, 1048576, [⟨DP_LBUD_RINT, rwl, 0x4, [(0, 0, 1)]⟩, ⟨DP_LBUD_BUDGET, rwl, 0x1FFF, []⟩]⟩,
   ⟨0x10741004, 4, 1048576, 1, 1048576, [⟨DP_UCOL_R, rwl, 0, []⟩, ⟨DP_UCOL_G, rwl, 0, []⟩, ⟨DP_UCOL_B, rwl, 0, []⟩]⟩,
   ⟨0x10741008, 4, 1048576, 1, 1048576, [⟨DP_LLCTL_EN, rw, 0, []⟩, ⟨DP_LLCTL_BANK, rw, 0, []⟩, ⟨DP_LLCTL_START, rw, 0, []⟩]⟩,
   ⟨0x1074100C, 4, 1048576, 1, 1048576, [⟨DP_ICTL_MCHKU, rwl, 0, []⟩, ⟨DP_ICTL_MCHKF, rwl, 0, []⟩]⟩,
   ⟨0x10700160, 4, 1048576, 9, 4, [⟨DP_MTXC_C, rwl, 0x1000, []⟩]⟩] ++
  [⟨0x10700190, 4, 1048576, 3, 4, [⟨DP_MTXO_OFF, rwl, 0, []⟩]⟩,
   ⟨0x107001A4, 4, 1048576, 2, 8, [⟨DP_WBAL_ADDR, rw, 0, []⟩]⟩,
   ⟨0x107001A8, 4, 1048576, 2, 8, [⟨DP_WBAH_ADDR, rw, 0, []⟩]⟩,
   ⟨0x10700200, 4, 1048576, 4, 64, [⟨DP_TCTL_EN, rw, 0, []⟩, ⟨DP_TCTL_T16, rw, 0, []⟩, ⟨DP_TCTL_BPP, rw, 0, []⟩, ⟨DP_TCTL_F16, rw, 0, []⟩, ⟨DP_TCTL_TRANS0, rw, 0, []⟩, ⟨DP_TCTL_ADD, rw, 0, []⟩, ⟨DP_TCTL_PAL, rw, 0, []⟩, ⟨DP_TCTL_MAPHL, rw, 0x5, []⟩, ⟨DP_TCTL_MAPWL, rw, 0x5, []⟩, ⟨DP_TCTL_ALPHA, rw, 0xFF, []⟩]⟩,
   ⟨0x10700204, 4, 1048576, 4, 64, [⟨DP_TMAPL_MAPBASE, rw, 0, []⟩]⟩,
   ⟨0x10700208, 4, 1048576, 4, 64, [⟨DP_TMAPH_MAPBASE, rw, 0, []⟩]⟩,
   ⟨0x1070020C, 4, 1048576, 4, 64, [⟨DP_TTILL_TILEBASE, rw, 0, []⟩]⟩,
   ⟨0x10700210, 4, 1048576, 4, 64, [⟨DP_TTILH_TILEBASE, rw, 0, []⟩]⟩,
   ⟨0x10700214, 4, 1048576, 4, 64, [⟨DP_TSCR_SCY, rw, 0, []⟩, ⟨DP_TSCR_SCX, rw, 0, []⟩]⟩,
   ⟨0x10700218, 4, 1048576, 4, 64, [⟨DP_TWIN0_WY0, rw, 0, []⟩, ⟨DP_TWIN0_WX0, rw, 0, []⟩]⟩,
   ⟨0x1070021C, 4, 1048576, 4, 64, [⟨DP_TWIN1_WY1, rw, 0x1FFF, []⟩, ⟨DP_TWIN1_WX1, rw, 0x1FFF, []⟩]⟩,
   ⟨0x10780014, 4, 1048576, 4, 4, [⟨DP_AUXD_DATA, rw, 0, []⟩]⟩] ++
  [⟨0x10740100, 4, 1048576, 16, 4, [⟨DP_RSIG_CRC, ro, 0, []⟩]⟩,
   ⟨0x10740140, 4, 1048576, 16, 4, [⟨DP_RREP_COUNT, ro, 0, []⟩]⟩,
   ⟨0x10741100, 4, 1048576, 16, 16, [⟨DP_RX_X1, rwl, 0, []⟩, ⟨DP_RX_X0, rwl, 0, []⟩]⟩,
   ⟨0x10741104, 4, 1048576, 16, 16, [⟨DP_RY_Y1, rwl, 0, []⟩, ⟨DP_RY_Y0, rwl, 0, []⟩]⟩,
   ⟨0x10741108, 4, 1048576, 16, 16, [⟨DP_RCFG_MODE, rwl, 0, [(3, 3, 0)]⟩, ⟨DP_RCFG_N, rwl, 0x1, [(0, 0, 1)]⟩]⟩,
   ⟨0x1074110C, 4, 1048576, 16, 16, [⟨DP_REXP_CRC, rwl, 0, []⟩]⟩]

/-- The registers of block PRS. -/
def blockPRS : List RegDef :=
  [⟨0x10600000, 1, 4, 1, 4, [⟨PRS_START_DADDR, wo, 0, []⟩]⟩,
   ⟨0x10600004, 1, 4, 1, 4, [⟨PRS_CMD_ABORT, wo, 0, []⟩]⟩,
   ⟨0x10600008, 1, 4, 1, 4, [⟨PRS_STAT_STATE, ro, 0, []⟩, ⟨PRS_STAT_DONE, w1c, 0, []⟩, ⟨PRS_STAT_ERR, w1c, 0, []⟩, ⟨PRS_STAT_ABORTED, w1c, 0, []⟩, ⟨PRS_STAT_ABLATE, w1c, 0, []⟩, ⟨PRS_STAT_SREF, w1c, 0, []⟩, ⟨PRS_STAT_WM, w1c, 0, []⟩, ⟨PRS_STAT_CAUSE, ro, 0, []⟩, ⟨PRS_STAT_RDONE, ro, 0, []⟩]⟩,
   ⟨0x1060000C, 1, 4, 1, 4, [⟨PRS_CUR_DADDR, ro, 0, []⟩]⟩,
   ⟨0x10600010, 1, 4, 1, 4, [⟨PRS_EADRL_ADDR, ro, 0, []⟩]⟩,
   ⟨0x10600014, 1, 4, 1, 4, [⟨PRS_EADRH_ADDR, ro, 0, []⟩]⟩]

/-- The registers of block SHU. -/
def blockSHU : List RegDef :=
  [⟨0x10500000, 64, 64, 1, 64, [⟨SHU_SRC_ADDR, rw, 0, []⟩]⟩,
   ⟨0x10500004, 64, 64, 1, 64, [⟨SHU_SRCH_ADDR, rw, 0, []⟩]⟩,
   ⟨0x10500008, 64, 64, 1, 64, [⟨SHU_DST_ADDR, rw, 0, []⟩]⟩,
   ⟨0x1050000C, 64, 64, 1, 64, [⟨SHU_DSTH_ADDR, rw, 0, []⟩]⟩,
   ⟨0x10500010, 64, 64, 1, 64, [⟨SHU_CNT_COUNT, rw, 0, []⟩]⟩,
   ⟨0x10500014, 64, 64, 1, 64, [⟨SHU_CTRL_ARRIVE, rw, 0, []⟩, ⟨SHU_CTRL_COH, rw, 0, []⟩, ⟨SHU_CTRL_CLASS, rw, 0x2, [(0, 0, 2)]⟩, ⟨SHU_CTRL_MODE, rw, 0, [(5, 15, 0)]⟩]⟩,
   ⟨0x10500018, 64, 64, 1, 64, [⟨SHU_GEOM_PB, rw, 0, []⟩, ⟨SHU_GEOM_KM1, rw, 0, []⟩, ⟨SHU_GEOM_ESZ, rw, 0, []⟩]⟩,
   ⟨0x1050001C, 64, 64, 1, 64, [⟨SHU_STR_STRIDE, rw, 0, []⟩]⟩,
   ⟨0x10500020, 64, 64, 1, 64, [⟨SHU_POS_POS, rw, 0, []⟩]⟩,
   ⟨0x10500024, 64, 64, 1, 64, [⟨SHU_CMD_ABORT, wo, 0, []⟩, ⟨SHU_CMD_RESUME, wo, 0, []⟩, ⟨SHU_CMD_PAUSE, wo, 0, []⟩, ⟨SHU_CMD_GO, wo, 0, []⟩]⟩,
   ⟨0x10500028, 64, 64, 1, 64, [⟨SHU_STAT_STATE, ro, 0, []⟩, ⟨SHU_STAT_DONE, w1c, 0, []⟩, ⟨SHU_STAT_ERR, w1c, 0, []⟩, ⟨SHU_STAT_ABORTED, w1c, 0, []⟩, ⟨SHU_STAT_ABLATE, w1c, 0, []⟩, ⟨SHU_STAT_WIGN, w1c, 0, []⟩, ⟨SHU_STAT_CAUSE, ro, 0, []⟩]⟩,
   ⟨0x1050002C, 64, 64, 1, 64, [⟨SHU_EADR_ADDR, ro, 0, []⟩]⟩] ++
  [⟨0x10500030, 64, 64, 1, 64, [⟨SHU_EADRH_ADDR, ro, 0, []⟩]⟩]

/-- The registers of block SPL. -/
def blockSPL : List RegDef :=
  [⟨0x10B00000, 1, 4, 1, 4, [⟨SPL_CTRL_COH, rw, 0, []⟩, ⟨SPL_CTRL_RUN, rw, 0, []⟩]⟩,
   ⟨0x10B00004, 1, 4, 1, 4, [⟨SPL_STAT_LREF, w1c, 0, []⟩, ⟨SPL_STAT_LERR, w1c, 0, []⟩, ⟨SPL_STAT_PERR, w1c, 0, []⟩, ⟨SPL_STAT_CLIP, w1c, 0, []⟩, ⟨SPL_STAT_ABORTED, w1c, 0, []⟩, ⟨SPL_STAT_ABLATE, w1c, 0, []⟩, ⟨SPL_STAT_CREF, w1c, 0, []⟩, ⟨SPL_STAT_LPEND, ro, 0, []⟩, ⟨SPL_STAT_BANK, ro, 0, []⟩, ⟨SPL_STAT_CAUSE, ro, 0, []⟩, ⟨SPL_STAT_EPC, ro, 0, []⟩]⟩,
   ⟨0x10B00008, 1, 4, 1, 4, [⟨SPL_CMD_ABORT, wo, 0, []⟩]⟩,
   ⟨0x10B0000C, 1, 4, 1, 4, [⟨SPL_PLOAD_ADDR, wo, 0, []⟩]⟩,
   ⟨0x10B00010, 1, 4, 1, 4, [⟨SPL_EVTEN_EN, rw, 0x3FF, []⟩]⟩,
   ⟨0x10B00014, 1, 4, 1, 4, [⟨SPL_TSL_TS, ro, 0, []⟩]⟩,
   ⟨0x10B00018, 1, 4, 1, 4, [⟨SPL_TSH_TS, ro, 0, []⟩]⟩,
   ⟨0x10B0001C, 1, 4, 1, 4, [⟨SPL_SCNT_COUNT, ro, 0, []⟩]⟩,
   ⟨0x10B00020, 8, 4, 1, 4, [⟨SPL_IMUTE_MUTE, rw, 0, []⟩]⟩,
   ⟨0x10B00040, 1, 4, 1, 4, [⟨SPL_VENDL_VOICE, w1c, 0, []⟩]⟩,
   ⟨0x10B00044, 1, 4, 1, 4, [⟨SPL_VENDH_VOICE, w1c, 0, []⟩]⟩,
   ⟨0x10B00048, 1, 4, 1, 4, [⟨SPL_RUNDL_READER, w1c, 0, []⟩]⟩] ++
  [⟨0x10B0004C, 1, 4, 1, 4, [⟨SPL_RUNDH_READER, w1c, 0, []⟩]⟩,
   ⟨0x10B00050, 1, 4, 1, 4, [⟨SPL_WOVFL_WRITER, w1c, 0, []⟩]⟩,
   ⟨0x10B00054, 1, 4, 1, 4, [⟨SPL_WOVFH_WRITER, w1c, 0, []⟩]⟩,
   ⟨0x10B00058, 1, 4, 1, 4, [⟨SPL_EADRL_ADDR, ro, 0, []⟩]⟩,
   ⟨0x10B0005C, 1, 4, 1, 4, [⟨SPL_EADRH_ADDR, ro, 0, []⟩]⟩,
   ⟨0x10B00100, 8, 4, 1, 4, [⟨SPL_TDMCTL_TXEN, rw, 0, []⟩, ⟨SPL_TDMCTL_RXEN, rw, 0, []⟩, ⟨SPL_TDMCTL_DELAY, rw, 0, []⟩, ⟨SPL_TDMCTL_RXSLOT, rw, 0, []⟩]⟩,
   ⟨0x10B01000, 64, 32, 1, 32, [⟨SPL_VCTL_STATE, ro, 0, []⟩, ⟨SPL_VCTL_EVT, rw, 0, []⟩, ⟨SPL_VCTL_LOOP, rw, 0, []⟩, ⟨SPL_VCTL_LEVEL, ro, 0, []⟩]⟩,
   ⟨0x10B01004, 64, 32, 1, 32, [⟨SPL_VSTART_START, rw, 0, []⟩]⟩,
   ⟨0x10B01008, 64, 32, 1, 32, [⟨SPL_VLEN_LEN, rw, 0x1, [(0, 0, 1)]⟩]⟩,
   ⟨0x10B0100C, 64, 32, 1, 32, [⟨SPL_VLOOP_LOOPST, rw, 0, []⟩]⟩,
   ⟨0x10B01010, 64, 32, 1, 32, [⟨SPL_VINC_INC, rw, 0x10000, []⟩]⟩,
   ⟨0x10B01014, 64, 32, 1, 32, [⟨SPL_VENV_AR, rw, 0, []⟩, ⟨SPL_VENV_DR, rw, 0, []⟩]⟩] ++
  [⟨0x10B01018, 64, 32, 1, 32, [⟨SPL_VREL_SL, rw, 0xFFFF, []⟩, ⟨SPL_VREL_RR, rw, 0, []⟩]⟩,
   ⟨0x10B0101C, 64, 32, 1, 32, [⟨SPL_VKEY_OFF, wo, 0, []⟩, ⟨SPL_VKEY_ON, wo, 0, []⟩]⟩,
   ⟨0x10B02000, 64, 32, 1, 32, [⟨SPL_RCTL_EN, rw, 0, []⟩, ⟨SPL_RCTL_COH, rw, 0, []⟩, ⟨SPL_RCTL_FIRST, rw, 0, []⟩, ⟨SPL_RCTL_KM1, rw, 0, []⟩, ⟨SPL_RCTL_ESZ, rw, 0, []⟩]⟩,
   ⟨0x10B02004, 64, 32, 1, 32, [⟨SPL_RBASEL_BASE, rw, 0, []⟩]⟩,
   ⟨0x10B02008, 64, 32, 1, 32, [⟨SPL_RBASEH_BASE, rw, 0, []⟩]⟩,
   ⟨0x10B0200C, 64, 32, 1, 32, [⟨SPL_RSIZE_SIZE, rw, 0, []⟩]⟩,
   ⟨0x10B02010, 64, 32, 1, 32, [⟨SPL_RRIDX_IDX, rw, 0, []⟩]⟩,
   ⟨0x10B02014, 64, 32, 1, 32, [⟨SPL_RWIDX_IDX, rw, 0, []⟩]⟩,
   ⟨0x10B03000, 64, 32, 1, 32, [⟨SPL_WCTL_EN, rw, 0, []⟩, ⟨SPL_WCTL_COH, rw, 0, []⟩, ⟨SPL_WCTL_FIRST, rw, 0, []⟩, ⟨SPL_WCTL_KM1, rw, 0, []⟩, ⟨SPL_WCTL_ESZ, rw, 0, []⟩]⟩,
   ⟨0x10B03004, 64, 32, 1, 32, [⟨SPL_WBASEL_BASE, rw, 0, []⟩]⟩,
   ⟨0x10B03008, 64, 32, 1, 32, [⟨SPL_WBASEH_BASE, rw, 0, []⟩]⟩,
   ⟨0x10B0300C, 64, 32, 1, 32, [⟨SPL_WSIZE_SIZE, rw, 0, []⟩]⟩] ++
  [⟨0x10B03010, 64, 32, 1, 32, [⟨SPL_WWIDX_IDX, rw, 0, []⟩]⟩,
   ⟨0x10B03014, 64, 32, 1, 32, [⟨SPL_WRIDX_IDX, rw, 0, []⟩]⟩,
   ⟨0x10B04000, 1024, 4, 1, 4, [⟨SPL_GAIN_G, rw, 0x1000, []⟩]⟩]

/-- The registers of block SEAM. -/
def blockSEAM : List RegDef :=
  [⟨0x10C00000, 1, 4, 1, 4, [⟨SEAM_CTRL_EN, rw, 0, []⟩, ⟨SEAM_CTRL_LEARN, rw, 0, []⟩, ⟨SEAM_CTRL_AGE, rw, 0x12C, [(0, 0, 1)]⟩]⟩,
   ⟨0x10C00004, 1, 4, 1, 4, [⟨SEAM_STAT_PREF, w1c, 0, []⟩, ⟨SEAM_STAT_QWI, w1c, 0, []⟩, ⟨SEAM_STAT_DMAERR, w1c, 0, []⟩, ⟨SEAM_STAT_LFULL, w1c, 0, []⟩]⟩,
   ⟨0x10C00008, 1, 4, 1, 4, [⟨SEAM_HMACL_MAC, rw, 0, []⟩]⟩,
   ⟨0x10C0000C, 1, 4, 1, 4, [⟨SEAM_HMACH_MAC, rw, 0, []⟩]⟩,
   ⟨0x10C00010, 1, 4, 1, 4, [⟨SEAM_HIP_IP, rw, 0, []⟩]⟩,
   ⟨0x10C00014, 1, 4, 1, 4, [⟨SEAM_TOPO0_CNT, rw, 0, []⟩]⟩,
   ⟨0x10C00018, 1, 4, 1, 4, [⟨SEAM_TOPO1_CNT, rw, 0, []⟩]⟩,
   ⟨0x10C00020, 1, 4, 1, 4, [⟨SEAM_TCMD_CMD, wo, 0, []⟩, ⟨SEAM_TCMD_INDEX, wo, 0, []⟩]⟩,
   ⟨0x10C00024, 1, 4, 1, 4, [⟨SEAM_TSTAT_BUSY, ro, 0, []⟩, ⟨SEAM_TSTAT_TREF, w1c, 0, []⟩, ⟨SEAM_TSTAT_TWI, w1c, 0, []⟩, ⟨SEAM_TSTAT_RES, ro, 0, []⟩]⟩,
   ⟨0x10C00030, 1, 4, 1, 4, [⟨SEAM_TXDB_QUEUE, wo, 0, []⟩, ⟨SEAM_TXDB_TAIL, wo, 0, []⟩]⟩,
   ⟨0x10C00034, 1, 4, 1, 4, [⟨SEAM_RXDB_QUEUE, wo, 0, []⟩, ⟨SEAM_RXDB_TAIL, wo, 0, []⟩]⟩,
   ⟨0x10C00038, 1, 4, 1, 4, [⟨SEAM_QCMD_ABORT, wo, 0, []⟩, ⟨SEAM_QCMD_RX, wo, 0, []⟩, ⟨SEAM_QCMD_QUEUE, wo, 0, []⟩]⟩] ++
  [⟨0x10C0003C, 1, 4, 1, 4, [⟨SEAM_QSTAT_BUSY, ro, 0, []⟩, ⟨SEAM_QSTAT_ABORTED, w1c, 0, []⟩, ⟨SEAM_QSTAT_ABLATE, w1c, 0, []⟩]⟩,
   ⟨0x10C00040, 1, 4, 1, 4, [⟨SEAM_PUB_GROUP, wo, 0, []⟩]⟩,
   ⟨0x10C00044, 1, 4, 1, 4, [⟨SEAM_RXDEF_EN, rw, 0, []⟩, ⟨SEAM_RXDEF_QUEUE, rw, 0, []⟩]⟩,
   ⟨0x10C00048, 1, 4, 1, 4, [⟨SEAM_EVTEN_EN, rw, 0xFFFF, []⟩]⟩,
   ⟨0x10C0004C, 1, 4, 1, 4, [⟨SEAM_EADRL_ADDR, ro, 0, []⟩]⟩,
   ⟨0x10C00050, 1, 4, 1, 4, [⟨SEAM_EADRH_ADDR, ro, 0, []⟩]⟩,
   ⟨0x10C00080, 1, 4, 1, 4, [⟨SEAM_PTPCTL_EN, rw, 0, []⟩, ⟨SEAM_PTPCTL_ISTEP, w1s, 0, []⟩, ⟨SEAM_PTPCTL_SRTO, rw, 0x3, [(0, 1, 3)]⟩, ⟨SEAM_PTPCTL_RSH, rw, 0x4, []⟩, ⟨SEAM_PTPCTL_LOGPD, rw, 0, [(8, 11, 12), (4, 7, 3)]⟩, ⟨SEAM_PTPCTL_LOGSYNC, rw, 0xD, [(8, 8, 9), (1, 7, 0)]⟩, ⟨SEAM_PTPCTL_MQ, rw, 0, []⟩]⟩,
   ⟨0x10C00084, 1, 4, 1, 4, [⟨SEAM_PTPSTAT_OVALID, ro, 0, []⟩]⟩,
   ⟨0x10C00088, 1, 4, 1, 4, [⟨SEAM_PTPOFFL_OFF, ro, 0, []⟩]⟩,
   ⟨0x10C0008C, 1, 4, 1, 4, [⟨SEAM_PTPOFFH_OFF, ro, 0, []⟩]⟩,
   ⟨0x10C00090, 1, 4, 1, 4, [⟨SEAM_PTPRATE_RATE, ro, 0, []⟩]⟩,
   ⟨0x10C00100, 8, 4, 1, 4, [⟨SEAM_SGATE_OPEN, rw, 0xFFFFFFFF, []⟩]⟩] ++
  [⟨0x10C00400, 256, 4, 1, 4, [⟨SEAM_PGSTAT_BUSY, ro, 0, []⟩, ⟨SEAM_PGSTAT_FRONT, ro, 0, []⟩]⟩,
   ⟨0x10C01000, 10, 64, 1, 64, [⟨SEAM_PCTL_EN, rw, 0, []⟩, ⟨SEAM_PCTL_MODE, rw, 0, []⟩, ⟨SEAM_PCTL_STATE, rw, 0, [(3, 3, 0)]⟩, ⟨SEAM_PCTL_ROLE, rw, 0, []⟩, ⟨SEAM_PCTL_DPCP, rw, 0, []⟩, ⟨SEAM_PCTL_PVID, rw, 0x1, []⟩]⟩,
   ⟨0x10C01004, 10, 64, 1, 64, [⟨SEAM_PSTAT_LINK, ro, 0, []⟩, ⟨SEAM_PSTAT_SPEED, ro, 0, []⟩, ⟨SEAM_PSTAT_VERIFIED, ro, 0, []⟩]⟩,
   ⟨0x10C01008, 8, 64, 1, 64, [⟨SEAM_GSET_MASK, wo, 0, []⟩, ⟨SEAM_GSET_VAL, wo, 0, []⟩]⟩,
   ⟨0x10C0100C, 8, 64, 1, 64, [⟨SEAM_GATE_GATES, ro, 0xFF, []⟩]⟩,
   ⟨0x10C01010, 8, 64, 1, 64, [⟨SEAM_PPRE_VERIFY, rw, 0x1, []⟩, ⟨SEAM_PPRE_ADDFRAG, rw, 0, []⟩, ⟨SEAM_PPRE_PMASK, rw, 0, []⟩]⟩,
   ⟨0x10C01014, 10, 64, 1, 64, [⟨SEAM_PTCM_PCPN, rw, 0xFAC688, []⟩]⟩,
   ⟨0x10C01018, 10, 64, 1, 64, [⟨SEAM_POVR_COUNT, rc, 0, []⟩]⟩,
   ⟨0x10C0101C, 10, 64, 1, 64, [⟨SEAM_PDROP_COUNT, rc, 0, []⟩]⟩,
   ⟨0x10C01020, 10, 64, 1, 64, [⟨SEAM_PMDL_MDL, ro, 0, []⟩]⟩]

/-- The registers of block SELM. -/
def blockSELM : List RegDef :=
  [⟨0x10F00000, 1, 4, 1, 4, [⟨SELM_MCTL_EN, rw, 0, []⟩, ⟨SELM_MCTL_COH, rw, 0, []⟩, ⟨SELM_MCTL_SZL, rw, 0x4, []⟩]⟩,
   ⟨0x10F00004, 1, 4, 1, 4, [⟨SELM_MSTAT_ILINK, ro, 0, []⟩, ⟨SELM_MSTAT_READY, ro, 0, []⟩, ⟨SELM_MSTAT_WAIT, ro, 0, []⟩, ⟨SELM_MSTAT_MERR, w1c, 0, []⟩, ⟨SELM_MSTAT_WIGN, w1c, 0, []⟩]⟩,
   ⟨0x10F00008, 1, 4, 1, 4, [⟨SELM_RBASEL_ADDR, rw, 0, []⟩]⟩,
   ⟨0x10F0000C, 1, 4, 1, 4, [⟨SELM_RBASEH_ADDR, rw, 0, []⟩]⟩,
   ⟨0x10F00010, 1, 4, 1, 4, [⟨SELM_WIDX_IDX, ro, 0, []⟩]⟩,
   ⟨0x10F00014, 1, 4, 1, 4, [⟨SELM_RIDX_IDX, rw, 0, []⟩]⟩,
   ⟨0x10F00018, 1, 4, 1, 4, [⟨SELM_EADRL_ADDR, ro, 0, []⟩]⟩,
   ⟨0x10F0001C, 1, 4, 1, 4, [⟨SELM_EADRH_ADDR, ro, 0, []⟩]⟩,
   ⟨0x10F00020, 1, 4, 1, 4, [⟨SELM_MCNT_COUNT, rc, 0, []⟩]⟩]

/-- The registers of block TMR. -/
def blockTMR : List RegDef :=
  [⟨0x10D00000, 32, 256, 1, 256, [⟨TMR_CTL_EN, rw, 0, []⟩, ⟨TMR_CTL_FRZ, rw, 0x1, []⟩, ⟨TMR_CTL_CLKSEL, rw, 0, [(3, 3, 0)]⟩, ⟨TMR_CTL_EDGE, rw, 0, [(3, 3, 0)]⟩, ⟨TMR_CTL_PRE, rw, 0, []⟩]⟩,
   ⟨0x10D00004, 32, 256, 1, 256, [⟨TMR_STAT_FROZEN, ro, 0, []⟩, ⟨TMR_STAT_CAPPEND, ro, 0, []⟩, ⟨TMR_STAT_COVR, w1c, 0, []⟩, ⟨TMR_STAT_PERF, w1c, 0, []⟩, ⟨TMR_STAT_CHF, w1c, 0, []⟩]⟩,
   ⟨0x10D00008, 32, 256, 1, 256, [⟨TMR_CNTL_CNT, rw, 0, []⟩]⟩,
   ⟨0x10D0000C, 32, 256, 1, 256, [⟨TMR_CNTH_CNT, rw, 0, []⟩]⟩,
   ⟨0x10D00010, 32, 256, 1, 256, [⟨TMR_PERL_PER, rw, 0xFFFFFFFF, []⟩]⟩,
   ⟨0x10D00014, 32, 256, 1, 256, [⟨TMR_PERH_PER, rw, 0xFFFF, []⟩]⟩,
   ⟨0x10D00018, 32, 256, 1, 256, [⟨TMR_TRIG_SRC, rw, 0, []⟩, ⟨TMR_TRIG_MODE, rw, 0, [(5, 7, 0)]⟩, ⟨TMR_TRIG_SIG, rw, 0x4, [(5, 7, 4)]⟩]⟩,
   ⟨0x10D0001C, 32, 256, 1, 256, [⟨TMR_DTSTEP_STEP, rw, 0x3E8, [(0, 7, 8)]⟩]⟩,
   ⟨0x10D00020, 32, 256, 1, 256, [⟨TMR_IEN_EN, rw, 0x3F, []⟩]⟩,
   ⟨0x10D00024, 32, 256, 1, 256, [⟨TMR_OWN_CTX, rw, 0, []⟩]⟩,
   ⟨0x10D00040, 32, 256, 4, 32, [⟨TMR_CCTL_LEVEL, ro, 0, []⟩, ⟨TMR_CCTL_CVAL, rw, 0, []⟩, ⟨TMR_CCTL_CEDGE, rw, 0, [(3, 3, 0)]⟩, ⟨TMR_CCTL_OUTMODE, rw, 0, [(6, 7, 0)]⟩, ⟨TMR_CCTL_MODE, rw, 0, [(3, 3, 0)]⟩]⟩,
   ⟨0x10D00044, 32, 256, 4, 32, [⟨TMR_CMPL_CMP, rw, 0, []⟩]⟩] ++
  [⟨0x10D00048, 32, 256, 4, 32, [⟨TMR_CMPH_CMP, rw, 0, []⟩]⟩,
   ⟨0x10D0004C, 32, 256, 4, 32, [⟨TMR_CAPL_CAP, ro, 0, []⟩]⟩,
   ⟨0x10D00050, 32, 256, 4, 32, [⟨TMR_CAPH_CAP, ro, 0, []⟩]⟩]

/-- The registers of block PIN. -/
def blockPIN : List RegDef :=
  [⟨0x10E00000, 1, 4, 1, 4, [⟨PIN_CTRL_LOCK, w1s, 0, []⟩]⟩,
   ⟨0x10E00100, 5, 32, 1, 32, [⟨PIN_DOUT_OUT, rw, 0, []⟩]⟩,
   ⟨0x10E00104, 5, 32, 1, 32, [⟨PIN_DSET_BITS, wo, 0, []⟩]⟩,
   ⟨0x10E00108, 5, 32, 1, 32, [⟨PIN_DCLR_BITS, wo, 0, []⟩]⟩,
   ⟨0x10E0010C, 5, 32, 1, 32, [⟨PIN_DTGL_BITS, wo, 0, []⟩]⟩,
   ⟨0x10E00110, 5, 32, 1, 32, [⟨PIN_OE_OE, rw, 0, []⟩]⟩,
   ⟨0x10E00114, 5, 32, 1, 32, [⟨PIN_DIN_IN, ro, 0, []⟩]⟩,
   ⟨0x10E01000, 160, 4, 1, 4, [⟨PIN_CFG_SLOW, rwl, 0, []⟩, ⟨PIN_CFG_DRV, rwl, 0x1, []⟩, ⟨PIN_CFG_PULL, rwl, 0, [(3, 3, 0)]⟩, ⟨PIN_CFG_OD, rwl, 0, []⟩, ⟨PIN_CFG_MODE, rwl, 0, [(3, 3, 0)]⟩]⟩,
   ⟨0x10E02000, 152, 4, 1, 4, [⟨PIN_OSEL_PIN, rwl, 0xFF, []⟩]⟩,
   ⟨0x10E02400, 168, 4, 1, 4, [⟨PIN_ISEL_PIN, rwl, 0xFF, []⟩]⟩,
   ⟨0x10E03000, 16, 8, 1, 8, [⟨PIN_PPCTL_EN, rwl, 0, []⟩, ⟨PIN_PPCTL_PORT, rwl, 0, [(5, 7, 0)]⟩, ⟨PIN_PPCTL_RING, rwl, 0, []⟩, ⟨PIN_PPCTL_CTX, rwl, 0, []⟩]⟩,
   ⟨0x10E03004, 16, 8, 1, 8, [⟨PIN_PPMSK_MASK, rwl, 0, []⟩]⟩] ++
  [⟨0x10E03400, 16, 4, 1, 4, [⟨PIN_IRQCFG_EN, rw, 0, []⟩, ⟨PIN_IRQCFG_PORT, rw, 0, [(5, 7, 0)]⟩, ⟨PIN_IRQCFG_TRIG, rw, 0, [(5, 7, 0)]⟩, ⟨PIN_IRQCFG_FILT, rw, 0, []⟩]⟩,
   ⟨0x10E03440, 1, 4, 1, 4, [⟨PIN_IRQSTAT_LINE, w1c, 0, []⟩]⟩]

/-- The block whose 1 MiB window holds `a` (R17). -/
def blockOf (a : Nat) : List RegDef :=
  match (a - 0x10000000) / 0x100000 with
  | 0 => blockSYS
  | 1 => blockEVC
  | 2 => blockPSQ
  | 3 => blockMEM
  | 4 => blockFAB
  | 5 => blockSHU
  | 6 => blockPRS
  | 7 => blockDP
  | 8 => blockDP
  | 9 => blockDP
  | 10 => blockDP
  | 11 => blockSPL
  | 12 => blockSEAM
  | 13 => blockTMR
  | 14 => blockPIN
  | 15 => blockSELM
  | 16 => blockDBG
  | 17 => blockHYC
  | _ => []

/-- The register at an address of device register space, or none where the offset holds no register (R7). -/
def find (a : Nat) : Option RegDef :=
  if a < 0x10000000 then none else (blockOf a).find? (fun d => d.holds a)

/-- The reset value of the register at `a` under R9. The doorbell sources are enabled and aimed at their own context
(R258); the matrix starts as the identity, and DPn_OCTL of an LVDS output as 0 (R291). Fuses and pins are loaded by the resets (R490). -/
def resetNat (a : Nat) : Nat :=
  if 0x10110000 ≤ a ∧ a < 0x10110000 + 4 * 128 then 1
  else if 0x10140000 ≤ a ∧ a < 0x10140000 + 16 * 128 then
    let n := (a - 0x10140000) / 16
    if (a - 0x10140000) % 16 = 4 * (n / 32) then 2 ^ (n % 32) else 0
  else if 0x10700160 ≤ a ∧ a < 0x10B00000 ∧ (a - 0x10700000) % 0x100000 - 0x160 < 36 ∧ 0x160 ≤ (a - 0x10700000) % 0x100000 then
    if ((a - 0x10700000) % 0x100000 - 0x160) % 16 = 0 then 0x1000 else 0
  else if a = 0x10980000 ∨ a = 0x10A80000 then 0
  else match find a with
    | some d => d.fields.foldl (fun w f => w + f.reset * 2 ^ f.fld.lo) 0
    | none => 0

/-- The reset value as a word. -/
def reset (a : Nat) : BitVec 32 := BitVec.ofNat 32 (resetNat a)

end RegMap
end Sys2Proof.Machine
end

