-- ==== Sys2Proof/Machine/State.lean ====
section
/-! DEFINITION. The state of the SX1640: plain data, holding every piece of state the spec gives the device, and the reset
state. Register bits live in `State.dev`, keyed by the absolute address; the records below hold what the rules name and no
register shows. -/

namespace Sys2Proof.Machine

/-- Why the machine stops. The spec leaves nothing open (R10) and no command stops the device: `unreached` is raised by no
meaning, so it is safe. -/
inductive Fault where
  | unreached
  deriving DecidableEq, Repr

/-- Why a command has no meaning. `notModelled` is raised only by a refused arm of `exec`, and no arm is refused: safe. -/
inductive Refusal where
  | notModelled (mnemonic : String)
  deriving DecidableEq, Repr

/-! ### Hymota contexts (03 to 07) -/

/-- The run states of R97, in the order of their STATE codes. -/
inductive Run where
  | off | active | asleep | halted | killing
  deriving DecidableEq, Repr

/-- The condition flags of R117. -/
structure CFlags where
  n : Bool
  z : Bool
  c : Bool
  v : Bool
  sat : Bool
  deriving DecidableEq, Repr

/-- The status register of R115; its reserved bits read 0. -/
structure Status where
  te : Bool
  tack : Bool
  ie : Bool
  lvl : Bool
  ring : BitVec 2
  deriving DecidableEq, Repr

/-- A write of status or asid in its mode shadow (R116): what it writes, and how many further instructions issue first. -/
structure Shadow where
  isAsid : Bool
  value : Dword
  left : Nat
  deriving DecidableEq, Repr

/-- The kinds of ring-0 entry of R171. -/
inductive EntryKind where
  | exception
  | event
  | gate (target : VAddr) (ring : BitVec 2) (ie : Bool)
  deriving DecidableEq, Repr

/-- A ring-0 entry in progress (R174, R175): what its frame will hold. `num` is filled in by an event entry's claim; `made` says that
its sixth grant has made the claim (R192), `claimed` that the claim is answered. -/
structure Entry where
  kind : EntryKind
  code : Nat
  num : Nat
  sub : Nat
  wr : Bool
  half : Bool
  sh : Bool
  ds : Bool
  addr : Dword
  savedPc : VAddr
  savedNpc : VAddr
  made : Bool := false
  claimed : Bool
  deriving DecidableEq, Repr

/-- The kinds of access that translation checks tell apart (R208). -/
inductive Access where
  | fetch | load | store | atomic | push | dcRead | dcInv | dcZero | latch
  deriving DecidableEq, Repr

/-- What a context that takes no grant waits for (R79, R216): a table walk, a line fill, the refill of its return-target latch,
an access of the instruction at pc that is held at its port or in the claim queue (R39, R246, R255, R484, R489), or nothing. A walk and a fill
name the access, and whether it is the second half of a split one (R198); a walk also names what its instruction translates after it, each
with its access and half. -/
inductive Wait where
  | none
  | walk (va : VAddr) (acc : Access) (half : Bool) (later : List (VAddr × Access × Bool))
  | fill (pa : Nat) (va : VAddr) (acc : Access) (half : Bool)
  | latch
  | port
  deriving DecidableEq, Repr

/-- A hardware context: its registers (R109 to R125, R181, R209) and where it stands between instructions. `slot` and `annul`
mark the next instruction as a delay slot and as an annulled one (R85, R86); `brpt` says that the block-repeat instruction at pc is
under way in one issue, and how many chunks its group still has, 8 at a group's boundary (R127, R157, R158), and `chunk` holds what it has read and not yet written (R159); `slots` is the model's count of grants (R84). `missClass` is
the class in force when the miss that it waits for occurred (R228), and `dsSaved` the addresses of the delay slots that its entries have
saved with DS = 1 (R197). -/
structure Context where
  g : Vector Dword 32
  pc : VAddr
  npc : VAddr
  status : Status
  asid : BitVec 12
  icount : Dword
  flags : CFlags
  fpcsr : BitVec 9
  lc : Dword
  ls : VAddr
  le : VAddr
  rsp : VAddr
  rsbase : VAddr
  rstop : VAddr
  emword : Word
  vbase : VAddr
  xsp : VAddr
  xlim : VAddr
  xcause : Dword
  xaddr : Dword
  gtbase : BitVec 40
  gtcount : BitVec 11
  tackrem : BitVec 13
  ldepth : BitVec 5
  lcause : Dword
  lxaddr : Dword
  lpend : BitVec 4
  ptroot : BitVec 40
  tfsr : BitVec 6
  latch : Option VAddr
  run : Run
  slot : Bool
  annul : Bool
  shadows : List Shadow
  entry : Option Entry
  wait : Wait
  haltReq : Option Bool
  heldKill : Bool
  resumeTo : Run
  brpt : Option Nat
  chunk : Option (List Byte)
  slots : Nat
  missClass : TClass
  dsSaved : List VAddr
  deriving DecidableEq, Repr

/-- An entry of the target buffer (R88). -/
structure TbEntry where
  addr : VAddr
  asid : BitVec 12
  ring : BitVec 2
  slot : Nat
  target : VAddr
  deriving DecidableEq, Repr

/-- A leaf translation held by a TLB (R205, R210): `bits` is the log2 of the page size, `vpn` and `ppn` the page numbers
at that size, and for a 64 KiB page `walk` the number of the walk that made it (R206). -/
structure TlbEntry where
  bits : Nat
  vpn : Nat
  asid : BitVec 12
  glob : Bool
  ppn : Nat
  ring : BitVec 2
  rd : Bool
  wr : Bool
  ex : Bool
  type : BitVec 3
  flips : Flips := 0
  walk : Nat := 0
  deriving DecidableEq, Repr

/-- A core (R74): staged wheel and STRICT values (R81, R83), reclaim pointer (R80), target buffer, caches' tags and TLBs, most
recently used first (R526), and the private pin port (R164). The data of a cached line are held once per quad, in its
level-two cache (log 17). `walks` counts the walks that filled a 64 KiB page (R206);
`wheelFrom` is the core cycle from which the wheel in force holds, and `reach` the one in which the last staged write reaches the core (R81). -/
structure Core where
  wheelHi : Word
  staged : Option (Word × Word)
  strictStaged : Bool
  reclaim : Fin 8
  tbuf : List TbEntry
  l1i : List Nat
  l1d : List Nat
  itlb : List TlbEntry
  dtlb : List TlbEntry
  tlb2 : List TlbEntry
  pinOut : Word
  pinOe : Word
  walks : Nat
  wheelFrom : Nat
  reach : Nat
  deriving DecidableEq, Repr

/-- An erroneous word of a cached line (R231): its place in the line, the bits inverted, and the array that holds it by the code of
MEM_ECCSTAT.SRC: 5 the instruction cache and 6 the data cache of core `core`, 7 the level-two cache. -/
structure CErr where
  word : Nat
  flips : Flips
  src : Nat
  core : Nat
  deriving DecidableEq, Repr

/-- A line of a level-two cache: its line number (address / 64), its data, whether it is dirty, the erroneous words of its
copies (R213, R233), and who wrote it last, in whose name it is written back (log 68). -/
structure CLine where
  line : Nat
  data : BitVec 512
  dirty : Bool
  errs : List CErr
  writer : Who
  deriving DecidableEq, Repr

/-- A change of operating point in progress (R477), upwards or downwards: the divider change is on its way (R478); assist and bias change, until an
fc; or the new voltage code settles. -/
inductive Dvfs where
  | idle
  | divider (target : Nat) (up : Bool)
  | biasing (target : Nat) (up : Bool) (done : Nat)
  | settling (target : Nat) (up : Bool)
  deriving DecidableEq, Repr

/-- A core quad: its level-two cache (most recently used first), its core-cycle count with the part of a cycle run since the
last one, in fifteenths of a fabric cycle (R78, log 8), how many of them fall in this fabric cycle, the point whose frequency its divider gives (R476), the code on its QVID balls
(R514), its change of point and the QPG input, and the row of R476's table whose SRAM assist and body bias are in force (4 in Retain); the core cycle in which a request to change the divider has crossed into the quad (R478). -/
structure Quad where
  l2 : List CLine
  cycles : Nat
  phase : Nat
  span : Nat
  point : Nat
  qvid : BitVec 3
  dvfs : Dvfs
  pendTarget : Option Nat
  qpg : Bool
  assist : Nat
  cross : Nat
  deriving DecidableEq, Repr

/-! ### Fabric and memory (01, 07) -/

/-- A response to an initiator: the data read, or the cause of a refusal (R21). -/
inductive Resp where
  | data (bytes : List Byte)
  | done
  | refused (cause : Nat)
  | uncorrectable
  deriving DecidableEq, Repr

/-- The class queues of one fabric target and the exception counts of R222. -/
structure Arb where
  rt0 : List Request
  rt1 : List Request
  be : List Request
  bk : List Request
  rt1Wait : Nat
  bkWait : Nat
  deriving DecidableEq, Repr

/-- A firewall register write not yet in force (R22). -/
structure FwOld where
  addr : Nat
  old : Word
  due : Nat
  deriving DecidableEq, Repr

/-- The fabric: target queues by target number (0–31 banks, 32 boot ROM, 33 Lining store, 34 appliqué store, 35 seam memory,
36 telegram table, 40–43 DDR channels), the last response to each initiator ID, writes not yet in force, the blocks
that clear their memories after a reset, the accesses held until then (R39), the snoop filter's entries, each a line and the quads whose
L2 holds it (R526), the allowed requests held at their ports (R222, R484), the register accesses of engines on their way (R18), and the fc of
the refusal that FAB_VSTAT records (R23). `accepted` lists the requests held at their ports that have passed the firewall (R22): the
initiator's ID, the address, and whether it is a write; `got` the registers that engines have asked for, with what has come back (R18). -/
structure Fab where
  targets : List (Nat × Arb)
  resp : List (Nat × Resp)
  fwOld : List FwOld
  clearing : List Block
  held : List (Block × Who × Nat × Option Word)
  snoop : List (Nat × BitVec 4)
  port : List Request
  ring : List (Who × Nat × Option Word)
  refFc : Option Nat
  accepted : List (Nat × Nat × Bool)
  got : List (Nat × Nat × Option Resp)
  deriving DecidableEq, Repr

/-- DDR channel state: training and its failure (R489), staged reservation and the last slot served (R229), scrub position (R235). -/
structure Ddr where
  training : Bool
  failed : Bool
  stagedRsv : Option Word
  scrub : Nat
  slot : Nat
  deriving DecidableEq, Repr

/-! ### Event controller (08) -/

/-- Who made a claim (R244, R245): an entry, which carries the number presented before its sixth grant; a context's load of EVC_CLAIM,
which waits for the answer; or a read of EVC_CLAIM under a context's initiator ID. -/
inductive ClaimBy where
  | entry (num : Option Nat)
  | load
  | read
  deriving DecidableEq, Repr

/-- A claim in the claim queue (R246): its context, who made it, the fc in which it arrived, and whether its context has been killed
since (R248). -/
structure Claim where
  ctx : Ctx
  by' : ClaimBy
  fc : Nat
  dead : Bool
  deriving DecidableEq, Repr

/-- What the retention registers hold over a power-down (R255). -/
structure EvcSave where
  regs : List (Nat × Word)
  deadlines : List (Nat × Nat)
  deriving DecidableEq, Repr

/-- The event controller beside its registers: staged mask words keyed by register address, group deadlines, claim queue,
the answers that contexts' loads of EVC_CLAIM wait for, occurrences in the synchronisers, the contexts it sees as Off (bit c), its
suspension over a power-down, the claims at the head of the queue that a per-block reset answers with 0x7FF (R256), and the fc in which it
served a claim last (R246). -/
structure Evc where
  staged : List (Nat × Word)
  deadlines : List (Nat × Nat)
  claims : List Claim
  answers : List (Nat × Nat)
  sync : List Nat
  offSeen : BitVec 128
  suspended : Bool
  saved : Option EvcSave
  voided : Nat
  servedFc : Option Nat
  deriving DecidableEq, Repr

/-! ### Pattern sequencer (02) -/

/-- What a dispatched job waits for (R48). -/
inductive Job where
  | wake (c : Ctx)
  | shut (n : Fin 64)
  | press
  | mix
  | write
  deriving DecidableEq, Repr

/-- An outstanding closing entry, and the fc in which its completion was signalled (R49). -/
structure Closing where
  job : Job
  signalled : Option Nat
  deriving DecidableEq, Repr

/-- A WAKE not yet answered (R52): its lane, its context, and whether it is a closing entry. -/
structure Waked where
  lane : Nat
  ctx : Ctx
  closing : Bool
  deriving DecidableEq, Repr

/-- The repetition a lane is in (R45): first and last index of the body, repetition number, count and stride. -/
structure Rep where
  first : Nat
  last : Nat
  j : Nat
  count : Nat
  stride : Nat
  deriving DecidableEq, Repr

/-- A pattern lane beside its registers: descriptor in force (R41), reference and start times, lag, whether this is the first
period, index in work, repetition, whether the body has ended and the lane stops at the period's end, the time at which
the end conditions were met (R56), outstanding closing entries, since when its entry is the due head (R53), and the fc of its last natural
end with what DONE was before it (R69). -/
structure Lane where
  first : Nat
  period : Nat
  hem : Nat
  maxLag : Nat
  ref : Nat
  start : Nat
  lag : Nat
  prevLag : Nat
  firstPeriod : Bool
  entry : Nat
  rep : Option Rep
  bodyEnded : Bool
  stopAtEnd : Bool
  endMet : Option Nat
  closings : List Closing
  dueSince : Option Nat
  ended : Option (Nat × Bool)
  deriving DecidableEq, Repr

/-- The pattern sequencer: device time in units of 2⁻³² ns (the visible count, fraction and hidden fraction bits of R29),
remaining adjustment in the same units (R31), the staged high half of the increment (R34), the fcs at which requested steps act (R33), the
latched counts of readers (R35), unanswered WAKEs, lanes, the fc in which the port last issued (R53) and the last flip landed (R63), and the
course that device time has taken, the latest part first (R389): from which fc and time on it rose by how much in each fc. -/
structure Psq where
  time : Nat
  inc : Nat
  adjRem : Int
  stepDue : List Nat
  latches : List (Nat × Dword)
  waked : List Waked
  lanes : Vector Lane 16
  portFc : Option Nat
  flipFc : Option Nat
  past : List (Nat × Nat × Nat)
  deriving DecidableEq, Repr

/-! ### Debug (03) -/

/-- The states of the test access port's controller (R533: as IEEE 1149.1 has it). -/
inductive TapState where
  | testLogicReset | runTestIdle | selectDr | captureDr | shiftDr | exit1Dr | pauseDr | exit2Dr | updateDr
  | selectIr | captureIr | shiftIr | exit1Ir | pauseIr | exit2Ir | updateIr
  deriving DecidableEq, Repr

/-- The debug block beside its registers: read latches of initiators (R530), and the test access port
(R533): controller state, selected instruction, data register, what DBG_TDO gave in the last scan of a data register, first bit first, last
data read, the outstanding access, and whether the last was refused. -/
structure Dbg where
  latches : List (Nat × Word)
  tap : TapState
  tapIr : BitVec 4
  tapDr : BitVec 73
  tapOut : List Bool
  tapData : Word
  tapOutstanding : Option (BitVec 73)
  tapRefused : Bool
  deriving DecidableEq, Repr

/-! ### Display pipes (09, 10) -/

/-- The next point of a pipe's raster that the timing generator must pass (R259, R300): the latch point, the fetch start or the
compose start of a line, or the frame end. -/
inductive Raster where
  | latch
  | fetch (line : Nat)
  | compose (line : Nat)
  | frameEnd
  deriving DecidableEq, Repr

/-- A line in work (R300 to R303): the active registers at its fetch start (R308), the requests not yet answered, whether they
are the tile-map ones (R301), the lines fetched, the appliqué row, the sprites drawn, whether a request failed, whether its overrun was
reported, whether it underran, and the output words composed so far. -/
structure LineWork where
  line : Nat
  cfg : List (Nat × Word)
  maps : Bool
  todo : List Nat
  buf : List (Nat × List Byte)
  apRow : List Byte
  sprites : List (List Word)
  failed : Bool
  overran : Bool
  underrun : Bool
  out : List Word
  deriving DecidableEq, Repr

/-- A signature region (R310 to R313): the running signature, the last frame's where it counts, and whether the last frame
matched. -/
structure Region16 where
  crc : Word
  prev : Option Word
  matched : Bool
  deriving DecidableEq, Repr

/-- A pixel PLL as applied (R487): INT, FRAC, MOD and DIV. -/
structure Pll where
  int : Nat
  frac : Nat
  mod : Nat
  div : Nat
  deriving DecidableEq, Repr

/-- The link training of a DisplayPort output (R283): never run, in progress, succeeded, failed. -/
inductive Train where
  | never | running | done | failed
  deriving DecidableEq, Repr

/-- The Main Stream Attributes of DisplayPort 1.4 that an output sends once per frame (R282; PRESUMED, log 81): totals, starts, active size, the
polarity and width of each sync, M and N of the stream clock, and the two miscellaneous bytes. -/
structure Msa where
  htotal : Nat
  vtotal : Nat
  hstart : Nat
  vstart : Nat
  hwidth : Nat
  vheight : Nat
  hsp : Bool
  hsw : Nat
  vsp : Bool
  vsw : Nat
  mvid : Nat
  nvid : Nat
  misc0 : Nat
  misc1 : Nat
  deriving DecidableEq, Repr

/-- A display pipe beside its registers: the active copy by window offset (R262), raster position and next point, genlock (R266):
the last frame's target index and the one aimed at; refresh reduction (R288): lines added, unchanged frames, last signature, kick
since the frame started; the running signature and whether a whole frame has been scanned; regions; the accepted appliqué descriptor and palette
(R297); the line fetched and the line composed, and the output words of the last line; writeback (R286): frame being written, frame whose
writes are to land, frames counted; a frame not yet done (R290); the banks that GO named (R263); whether the position's own pixel is
still to come for the line list engine (R306); the frame's sprite overflow, and the line that matched (R290); line list engine (R306):
repetition and awaited position; a genlock hold in progress (R266); link training and the drive settings asked for (R283), AUX command, the Main Stream Attributes that output n
sent last (R282), and the pixel PLL. -/
structure Pipe where
  active : List (Nat × Word)
  line : Nat
  pixel : Nat
  next : Raster
  glK : Option Nat
  glJ : Option Nat
  extra : Nat
  same : Nat
  prevSig : Option Word
  kicked : Bool
  crc : Word
  whole : Bool
  regions : Vector Region16 16
  apl : List Word
  aplPal : List Word
  fetch : Option LineWork
  cur : Option LineWork
  last : List Word
  wbOn : Bool
  wbPend : Bool
  wbCount : Nat
  framePend : Bool
  swap : Nat
  fresh : Bool
  spOvf : Bool
  matched : Option Nat
  rep : Option Rep
  target : Option (Nat × Nat)
  hold : Bool
  train : Train
  drive : BitVec 16
  auxCmd : Word
  msa : Option Msa
  pll : Pll
  deriving DecidableEq, Repr

/-! ### Presser and shuttles (11) -/

/-- The presser beside its registers: the descriptor in work (none while it is being read), the rows of it begun, its row buffers with
the bytes of each computed row, the first being written (R323); whether that row's writes are issued and have not landed yet; and the fc of
the last chain end, with what DONE showed before it (R329). -/
structure Prs where
  desc : List Word
  begun : Nat
  rows : List (List (Nat × Byte))
  issued : Bool
  doneFc : Option (Nat × Bool)
  deriving DecidableEq, Repr

/-- The presser after reset (R330). -/
def Prs.reset : Prs := ⟨[], 0, [], false, none⟩

/-- A shuttle channel beside its registers: the addresses of its reads that are not answered, oldest first, and the lines or registers
read and not yet used up (R335, R336); the writes of the unit at POS that are still to issue (R336); whether its writes wait for those of the transfer
before (R345), and the fc of its last done with what DONE showed before it (R346). -/
structure Shu where
  asked : List Nat
  held : List (Nat × List Byte)
  out : List (Nat × List Byte)
  after : Bool
  doneFc : Option (Nat × Bool)
  deriving DecidableEq, Repr

/-- A shuttle channel after reset (R348). -/
def Shu.reset : Shu := ⟨[], [], [], false, none⟩

/-- A shuttle port (R335): the fc of its last request, the channel of RT1, BE and BK that it served last, and the BK channels passed over
with the number of consecutive fc. -/
structure ShuPort where
  used : Option Nat
  turns : Vector Nat 3
  passed : List (Nat × Nat)
  deriving DecidableEq, Repr

/-! ### Spool (12) -/

/-- What a MIXA instruction holds (R367): its weight, previous-activity flag, and the start and target of its ramp. -/
structure MixA where
  w : Nat
  a : Bool
  s : Nat
  t : Nat
  deriving DecidableEq, Repr

/-- A bus (R365, R367): its accumulator, whether it counts as active, its mode, the MIXA instructions whose sources were active at the
last tick, and its ramp step. -/
structure Bus where
  acc : Int
  active : Bool
  auto : Bool
  members : List Nat
  step : Nat
  deriving DecidableEq, Repr

/-- A program load (R370): its image is being read, or is read and waits, `n` instructions long, for the tick that makes it active. -/
inductive SplLoad where
  | reading (addr : Nat)
  | ready (n : Nat)
  deriving DecidableEq, Repr

/-- A frame that a writer has copied and whose writes have not landed (R362): where it goes, and its bytes. -/
structure SplFrame where
  writer : Fin 64
  coh : Bool
  addr : Nat
  bytes : List Byte
  deriving DecidableEq, Repr

/-- The spool beside its registers: voice positions (R356), key writes and TDM control writes not yet applied with the fc in which each
landed (R351, R359), gain writes held until a run ends (R371) and gains replaced lately, TDM control in force, the frames that the
ports received, the frame that they transmit and the one queued behind it (R359), readers' WIDX at the last tick (R361), writers'
frames that have not landed (R362), the input and output arrays, buses and MIXA instructions, the instruction that the run has reached,
the program lengths of both banks, a load, whether the last tick switched, an abort not yet shown and whether it shows ABLATE, whether
the next run starts from reset buses (R372), and the readers' latches (R352). -/
structure Spl where
  vpos : Vector Nat 64
  keys : List (Nat × Nat × Bool)
  tdmLate : List (Nat × Nat × Word)
  gainHeld : List (Nat × Word)
  gainOld : List (Nat × Nat × Word)
  tdm : Vector Word 8
  rx : List (Nat × List Word)
  txNow : Option (List Int)
  txNext : Option (List Int)
  widx : Vector Nat 64
  frames : List SplFrame
  inputs : List (Int × Bool)
  outputs : Vector Int 128
  buses : Vector Bus 64
  mixa : List (Nat × MixA)
  run : Option Nat
  length : Nat × Nat
  load : Option SplLoad
  switched : Bool
  abort : Option Bool
  fresh : Bool
  latches : List (Nat × Word × Word)
  deriving DecidableEq, Repr

/-! ### Seam engine (13) -/

/-- Where a frame in an egress class comes from: forwarded by the bridge; a queue's descriptor (R396); a telegram build (R408); or the
time engine (R390): Sync, Pdelay_Req and Pdelay_Resp with their sequence numbers and, for a response, the identity of the requester,
and the Follow_Up messages. -/
inductive Origin where
  | bridge
  | queue (q idx : Nat)
  | telegram
  | sync (seq : Nat)
  | pdelayReq (seq : Nat)
  | pdelayResp (seq : Nat) (requester : List Byte)
  | followUp
  deriving DecidableEq, Repr

/-- A frame that waits for an egress port or is on its wire: its bytes without FCS, its class, the fc from which it is eligible (R382),
and its origin. -/
structure SFrame where
  bytes : List Byte
  cls : Nat
  elig : Nat
  origin : Origin
  deriving DecidableEq, Repr

/-- A seam port beside its registers: the frames of its eight classes, the frame on the wire, the frame that pre-emption holds, the bytes that earlier
fragments of a frame cut or held have carried, and the fc in which what is on the wire began (R388);
and for the time engine (R390) when it last sent Sync and Pdelay_Req with their next sequence numbers, the transmit timestamp of its
last Pdelay_Req, the response to it (sequence number, request receipt, arrival), the last exchange's times (response sent and received),
the neighbor rate ratio as a fraction, and meanLinkDelay in units of 2⁻¹⁶ ns. -/
structure SPort where
  classes : Vector (List SFrame) 8
  wire : Option SFrame
  held : Option SFrame
  cut : Nat
  since : Nat
  syncSent : Option Nat
  syncSeq : Nat
  pdSent : Option Nat
  pdSeq : Nat
  t1 : Option (Nat × Nat)
  resp : Option (Nat × Int × Int)
  prevPd : Option (Int × Int)
  ratio : Int × Int
  mld : Int
  deriving DecidableEq, Repr

/-- A transmit descriptor taken and not yet completed (R396): its index, whether it asks for a timestamp and for the event line, the
copies of its frame not yet sent, its result once known, and its timestamp. -/
structure TxD where
  idx : Nat
  ts : Bool
  evt : Bool
  left : Nat
  result : Option Nat
  stamp : Nat
  deriving DecidableEq, Repr

/-- A completion of a receive queue that has not landed (R398, R399): the queue, the descriptor's address and words D4 to D7. -/
structure RxC where
  q : Nat
  addr : Nat
  words : List Word
  deriving DecidableEq, Repr

/-- A frame that port 8 has for a receive queue (its ingress port, INDEX, timestamp and bytes) or for an audio listener (its PDU). -/
inductive Delivery where
  | queue (q sport index stamp : Nat) (frame : List Byte)
  | stream (a : Nat) (pdu : List Byte)
  deriving DecidableEq, Repr

/-- An abort in progress (R401, R402): of a receive queue or a transmit queue, the queue, and whether it marks nothing. -/
structure QAbort where
  rx : Bool
  q : Nat
  late : Bool
  deriving DecidableEq, Repr

/-- A CB stream beside its table entry (R385): the next sequence number to generate; and the recovery's TakeAny flag, highest sequence
number accepted, history, and the fc of the last frame passed. -/
structure CbRec where
  gen : Nat
  takeAny : Bool
  top : Nat
  hist : List Bool
  passed : Nat
  deriving DecidableEq, Repr

/-- The buckets of a flow meter (R384) in units of 1/93,750 byte, as of an fc. -/
structure Meter where
  fc : Nat
  committed : Nat
  excess : Nat
  deriving DecidableEq, Repr

/-- The seam engine beside its registers and tables: ports; transmit descriptors taken, by queue; receive completions not landed;
frames of port 8 whose memory is held; aborts; the fc of the last completion of a queue (transmit queue q as q, receive queue as 8,192 + q);
the completions of this fc (queue by the same number, address and word D4; R402); CB streams; meters; publish groups
(R406) and builds in progress with the index each has reached (R408); keyed entries by bucket (R407); the supervision scan's index and the entry that it
visits in this fc (R414, R415); the fc at which SEAM_TSTAT.BUSY falls (R406); the
fc of the last ageing scan; the Sync (sequence number, receipt timestamp, fc) and the Follow_Up (sequence number, origin plus
correction, fc) not yet used; the last accepted Sync's network and device times; and the fc from which holdover is measured. Times are
in units of 2⁻¹⁶ ns. -/
structure Seam where
  ports : Vector SPort 10
  tx : List (Nat × List TxD)
  rxc : List RxC
  waiting : List Delivery
  aborts : List QAbort
  doneFc : List (Nat × Nat)
  landed : List (Nat × Nat × Nat)
  cb : List (Nat × CbRec)
  meters : List (Nat × Meter)
  groups : List (Nat × List Nat)
  builds : List (Nat × Nat)
  keyed : List (Nat × Nat)
  scan : Nat
  visit : Option Nat
  tcmd : Option Nat
  aged : Nat
  sync : Option (Nat × Int × Nat)
  fup : Option (Nat × Int × Nat)
  prevSync : Option (Int × Int)
  syncFc : Nat
  deriving DecidableEq, Repr

/-! ### Selvage island (14) -/

/-- A measurement channel (R428, R429): the bits of the last two sample intervals, newest last; the clock periods since the last
transition; consecutive samples at full scale; whether a run of 64 quiet periods has begun that is not noted yet; and whether a modulator
fault and an overrange last, as noted. -/
structure IslChan where
  bits : List Bool
  quiet : Nat
  full : Nat
  seen : Bool
  fault : Bool
  ranged : Bool
  deriving DecidableEq, Repr

/-- What a measurement set has gathered in the second in progress (R430, R431): samples; sums of the squares of AC voltage and current, of
DC voltage and current, of AC and DC power, and of the reactive products under either nominal frequency; the positive-going zero
crossings of the AC voltage with the first and last sample numbers and the last voltage; and the states of the two all-pass filters. -/
structure IslSet where
  n : Nat
  vac2 : Rat
  iac2 : Rat
  vdc : Rat
  idc : Rat
  pac : Rat
  pdc : Rat
  q16 : Rat
  q50 : Rat
  cross : Nat
  first : Nat
  last : Nat
  prev : Rat
  filt16 : Nat
  filt50 : Nat
  deriving DecidableEq, Repr

/-- A data period in progress (R434): seconds in codes 0x0–0x4 and 0xF, and what its FLAGS will show. -/
structure IslPeriod where
  secs : List Nat
  start : Bool
  modf : Bool
  unsync : Bool
  unsealed : Bool
  deriving DecidableEq, Repr

/-- A period that has ended and whose record is not yet made (R434): the period, its end, its last classification, TQ, LOGSEQ, the energy
counters, and the flags that its end gives. -/
structure IslClosed where
  period : IslPeriod
  tend : Nat
  sys : Nat
  tq : Bool
  logseq : Nat
  energy : List Int
  ploss : Bool
  cklost : Bool
  tstep : Bool
  deriving DecidableEq, Repr

/-- What the configuration port answered last (R447). -/
inductive CfgReply where
  | none
  | refused
  | accepted
  | identity (bytes : List Byte) (seals : Nat) (keys : List (List Byte))
  deriving DecidableEq, Repr

/-- The Selvage island: whether it runs, its debug access and firmware; OTP and flash, whose unlisted bytes read 0x00 and 0xFF (R427, R446),
and the operations on flash so far; SRAM, whose unlisted bytes read 0, and the erroneous words in it with the bits inverted (R425, R231); sc run; island time as seconds and the position in sc of the next sample in the second, the second's
length, the offset still to be slewed (R432), and whether a power fail cut the second in progress (R434, R435); the time message received and when; the last good edge, the last offset in ns and the
synchronised state (R433); channels, sets, counters in units of 2⁻³² Wh (code by code EAC, EAR, ERC, ERR); last classification and the last
not 0xF; the period in progress and those closed; the last record's number, hash and LOGSEQ, the last log entry's number, CKLOST for the
next record (R434 to R437); and the mailbox's island side (R438 to R441): READY as seen, whether the identity is to be
sent, the replay's records and log entries still to send, the send positions, the pending status, MSEQ, the queue, and the 4-bit count
of messages put into it (R422). -/
structure Island where
  running : Bool
  debug : Bool
  fwLoaded : Bool
  otp : List (Nat × Byte)
  flash : List (Nat × Byte)
  flashOps : Nat
  sram : List (Nat × Byte)
  sramErr : List (Nat × Flips)
  sc : Nat
  sec : Nat
  sub : Nat
  len : Nat
  slew : Int
  cut : Bool
  tod : Option (Nat × Nat)
  good : Option Nat
  offNs : Int
  synced : Bool
  chans : Vector IslChan 8
  sets : Vector IslSet 2
  energy : List Int
  cls : Nat
  lastSys : Nat
  period : IslPeriod
  closed : List IslClosed
  rnum : Nat
  prevH : List Byte
  recSeq : Nat
  lseq : Nat
  cklost : Bool
  ready : Bool
  sendId : Bool
  replayRecs : List Nat
  replayLogs : List Nat
  nextRec : Nat
  nextLog : Nat
  status : Option (List Byte)
  mseq : Nat
  queue : List (List Byte)
  sent : BitVec 4
  reply : CfgReply
  deriving DecidableEq, Repr

/-- The SELM writer beside its registers (R442, R443): whether a message's writes are on their way, whether an error stopped it, whether READY
has fallen and the island has not yet taken note of it, and the read pointer, a Gray-coded 4-bit count of messages taken from the queue
(R422). -/
structure Selm where
  writing : Bool
  stopped : Bool
  fell : Bool
  taken : BitVec 4
  deriving DecidableEq, Repr

/-! ### Timers and pins (15) -/

/-- A timer unit beside its registers (R451 to R458): count, period and compare values in force with their staged high halves; armed
channels, output levels and captured values; the fc at which the prescaler's next tick falls, or the fc left while its gate is closed;
the gate; and the quotient of device time at the last edge (CLKSEL 0x2). -/
structure Tmr where
  cnt : Nat
  per : Nat
  cmp : Vector Nat 4
  stCnt : Nat
  stPer : Nat
  stCmp : Vector Nat 4
  armed : Vector Bool 4
  out : Vector Bool 4
  cap : Vector Nat 4
  due : Nat
  left : Option Nat
  gate : Bool
  quot : Nat
  deriving DecidableEq, Repr

/-- The timers' shared state: signals on their way to slave units (slave, trigger mode, and the pc edge at which
the master gave it, R458), and the high halves latched for
readers, by register address and initiator ID (R457). -/
structure TmrX where
  signals : List (Nat × Nat × Nat)
  latches : List (Nat × Nat)
  deriving DecidableEq, Repr

/-- The pins beside the registers: what the equipment drives each ball to, or nothing; the level that each input function's edge
detection last took (R464); the filtered level of each interrupt line, and the pc edges for which another level has been held (R468); and whether
a reset still governs the pulls (R514). -/
structure Pins where
  outside : Vector (Option Bool) 160
  inputs : BitVec 168
  filtered : BitVec 16
  held : Vector Nat 16
  inReset : Bool
  deriving DecidableEq, Repr

/-! ### Power, clocks, reset and boot (16) -/

/-- How far the device is from the release of a reset to its boot code (R490, R495, R499): held in the reset that RSTSTAT.CAUSE names
(1, 2 or 3), released and waiting for context 0 to start, running the boot ROM with the copies tried so far, or past it. -/
inductive Boot where
  | held
  | released
  | rom (tried : Nat)
  | done
  deriving DecidableEq, Repr

/-- The SYS block beside its registers: the PLLs whose outputs run, in the order of R486 with one bit for each quad and pixel PLL; block
power changes in progress (block, off); steps of standby entry done (0 = not in standby, 6 = entered) and the wake source that has
started the wake sequence (R481, R485); the boot; the edge wake sources that have occurred in standby, and the fc from which they
count after step 6 (R483); and the fc from which the boot ROM's next attempt may be answered (R496). -/
structure Sys where
  clocks : BitVec 14
  changes : List (Nat × Bool)
  standby : Nat
  waking : Option Nat
  boot : Boot
  wakes : BitVec 18
  blind : Nat
  bootAt : Nat
  deriving DecidableEq, Repr

/-! ### The device -/

/-- The whole state of the SX1640 and the queue of waiting commands. `dev` holds every device register and window table by
absolute address, a reset value not listed; `mem` the memories of R15 and `ecc` the error patterns of stored words; `fc` the
count of fabric cycles that idle steps have run. -/
structure State where
  dev : List (Nat × Word)
  mem : List Host.Cell
  ecc : List (Nat × Flips)
  fc : Nat
  free : Nat
  ctxs : Vector Context 128
  cores : Vector Core 16
  quads : Vector Quad 4
  fab : Fab
  ddr : Vector Ddr 4
  fmScrub : Nat
  evc : Evc
  psq : Psq
  dbg : Dbg
  pipes : Vector Pipe 4
  prs : Prs
  shus : Vector Shu 64
  shuPorts : Vector ShuPort 2
  spl : Spl
  seam : Seam
  isl : Island
  selm : Selm
  tmr : Vector Tmr 32
  tmrX : TmrX
  pins : Pins
  sys : Sys
  pending : List Instr
  deriving DecidableEq, Repr

/-! ### Reset values of the records -/

/-- A context after PWRON_RST_N: Off, every register 0 (R97, R119, R181, R209; log 12). -/
def Context.reset : Context where
  g := Vector.replicate 32 0
  pc := 0
  npc := 0
  status := ⟨false, false, false, false, 0⟩
  asid := 0
  icount := 0
  flags := ⟨false, false, false, false, false⟩
  fpcsr := 0
  lc := 0
  ls := 0
  le := 0
  rsp := 0
  rsbase := 0
  rstop := 0
  emword := 0
  vbase := 0
  xsp := 0
  xlim := 0
  xcause := 0
  xaddr := 0
  gtbase := 0
  gtcount := 0
  tackrem := 0
  ldepth := 0
  lcause := 0
  lxaddr := 0
  lpend := 0
  ptroot := 0
  tfsr := 0
  latch := none
  run := .off
  slot := false
  annul := false
  shadows := []
  entry := none
  wait := .none
  haltReq := none
  heldKill := false
  resumeTo := .active
  brpt := none
  chunk := none
  slots := 0
  missClass := .be
  dsSaved := []

/-- A core after reset: the reclaim pointer is 7 (R80), everything it holds is empty; the pin port's registers start at 0
(log 14). -/
def Core.reset : Core := ⟨0x76543210, none, false, 7, [], [], [], [], [], [], 0, 0, 0, 0, 0⟩

/-- A quad after reset: 0.8 GHz, the code 0b010 (R514). -/
def Quad.reset : Quad := ⟨[], 0, 0, 1, 2, 2, .idle, none, false, 2, 0⟩

/-- A DDR channel after reset: not trained (R489). -/
def Ddr.reset : Ddr := ⟨false, false, none, 0, 0⟩

/-- A stopped lane (R65). -/
def Lane.reset : Lane := ⟨0, 0, 0, 0, 0, 0, 0, 0, false, 0, none, false, false, none, [], none, none⟩

/-- Device time 0 and the increment of R29 (R30). -/
def Psq.reset : Psq := ⟨0, 0x155555555, 0, [], [], [], Vector.replicate 16 Lane.reset, none, none, []⟩

/-- The controller sees every context as Off. -/
def Evc.reset : Evc := ⟨[], [], [], [], [], BitVec.allOnes 128, false, none, 0, none⟩

/-- The debug block after reset; the test access port selects IDCODE, as IEEE 1149.1 has it after Test-Logic-Reset (log 18). -/
def Dbg.reset : Dbg := ⟨[], .testLogicReset, 0xE, 0, [], 0, none, false⟩

/-- A pipe after reset: stopped, its active copy at the reset values, no descriptor accepted (R291, R297). -/
def Pipe.reset : Pipe where
  active := []
  line := 0
  pixel := 0
  next := .latch
  glK := none
  glJ := none
  extra := 0
  same := 0
  prevSig := none
  kicked := false
  crc := 0xFFFFFFFF
  whole := false
  regions := Vector.replicate 16 ⟨0xFFFFFFFF, none, true⟩
  apl := [0, 0, 0, 0, 0, 0, 0, 0]
  aplPal := []
  fetch := none
  cur := none
  last := []
  wbOn := false
  wbPend := false
  wbCount := 0
  framePend := false
  swap := 0
  fresh := false
  spOvf := false
  matched := none
  rep := none
  target := none
  hold := false
  train := .never
  drive := 0
  auxCmd := 0
  msa := none
  pll := ⟨0, 0, 0, 0⟩

/-- The spool after reset: no voice sounds, both banks hold END throughout (R373). -/
def Spl.reset : Spl where
  vpos := Vector.replicate 64 0
  keys := []
  tdmLate := []
  gainHeld := []
  gainOld := []
  tdm := Vector.replicate 8 0
  rx := []
  txNow := none
  txNext := none
  widx := Vector.replicate 64 0
  frames := []
  inputs := []
  outputs := Vector.replicate 128 0
  buses := Vector.replicate 64 ⟨0, false, false, [], 0⟩
  mixa := []
  run := none
  length := (4096, 4096)
  load := none
  switched := false
  abort := none
  fresh := false
  latches := []

/-- A seam port after reset: nothing queued (R420). -/
def SPort.reset : SPort where
  classes := Vector.replicate 8 []
  wire := none
  held := none
  cut := 0
  since := 0
  syncSent := none
  syncSeq := 0
  pdSent := none
  pdSeq := 0
  t1 := none
  resp := none
  prevPd := none
  ratio := (1, 1)
  mld := 0

/-- The seam engine after reset (R420). -/
def Seam.reset : Seam where
  ports := Vector.replicate 10 SPort.reset
  tx := []
  rxc := []
  waiting := []
  aborts := []
  doneFc := []
  landed := []
  cb := []
  meters := []
  groups := []
  builds := []
  keyed := []
  scan := 0
  visit := none
  tcmd := none
  aged := 0
  sync := none
  fup := none
  prevSync := none
  syncFc := 0

/-- A channel with nothing seen. -/
def IslChan.reset : IslChan := ⟨[], 0, 0, false, false, false⟩

/-- A set at the start of a second. -/
def IslSet.reset : IslSet := ⟨0, 0, 0, 0, 0, 0, 0, 0, 0, 0, 0, 0, 0, 0, 0⟩

/-- The island as delivered, before its first restart: nothing measured, flash erased, no key, unsealed (log 40). -/
def Island.reset : Island where
  running := false
  debug := false
  fwLoaded := false
  otp := []
  flash := []
  flashOps := 0
  sram := []
  sramErr := []
  sc := 0
  sec := 0
  sub := 0
  len := 25000000
  slew := 0
  cut := false
  tod := none
  good := none
  offNs := 0
  synced := false
  chans := Vector.replicate 8 IslChan.reset
  sets := Vector.replicate 2 IslSet.reset
  energy := List.replicate 20 0
  cls := 15
  lastSys := 15
  period := ⟨[0, 0, 0, 0, 0, 0], true, false, true, true⟩
  closed := []
  rnum := 0
  prevH := List.replicate 32 0
  recSeq := 0
  lseq := 0
  cklost := false
  ready := false
  sendId := false
  replayRecs := []
  replayLogs := []
  nextRec := 1
  nextLog := 1
  status := none
  mseq := 0
  queue := []
  sent := 0
  reply := .none

/-- A timer unit after reset (R461). -/
def Tmr.reset : Tmr where
  cnt := 0
  per := 0xFFFFFFFFFFFF
  cmp := Vector.replicate 4 0
  stCnt := 0
  stPer := 0xFFFF
  stCmp := Vector.replicate 4 0
  armed := Vector.replicate 4 false
  out := Vector.replicate 4 false
  cap := Vector.replicate 4 0
  due := 0
  left := none
  gate := false
  quot := 0

/-- The device right after PWRON_RST_N: every register at its reset value, memory with nothing listed, no command waiting. -/
def State.reset : State where
  dev := []
  mem := []
  ecc := []
  fc := 0
  free := 0
  ctxs := Vector.replicate 128 Context.reset
  cores := Vector.replicate 16 Core.reset
  quads := Vector.replicate 4 Quad.reset
  fab := ⟨[], [], [], [], [], [], [], [], none, [], []⟩
  ddr := Vector.replicate 4 Ddr.reset
  fmScrub := 0
  evc := Evc.reset
  psq := Psq.reset
  dbg := Dbg.reset
  pipes := Vector.replicate 4 Pipe.reset
  prs := Prs.reset
  shus := Vector.replicate 64 Shu.reset
  shuPorts := Vector.replicate 2 ⟨none, Vector.replicate 3 31, []⟩
  spl := Spl.reset
  seam := Seam.reset
  isl := Island.reset
  selm := ⟨false, false, false, 0⟩
  tmr := Vector.replicate 32 Tmr.reset
  tmrX := ⟨[], []⟩
  pins := ⟨Vector.replicate 160 none, 0, 0, Vector.replicate 16 0, true⟩
  sys := ⟨0, [], 0, none, .held, 0, 0, 0⟩
  pending := []

end Sys2Proof.Machine
end

