-- ==== Sys2Proof/Machine/Ops.lean ====
section
/-! DEFINITION. The named operations over registers, memory, events, the firewall and error correction, which every family
shares. Readings and choices: logs 10, 23, 29, 57, 66. -/

namespace Sys2Proof.Machine

/-- What a meaning answers. -/
abbrev Out := Host.Outcome State Fault Refusal

/-! ### Sparse tables: rising keys, no entry equal to the default -/

/-- The value listed for `k`. -/
def Sparse.get {α : Type} (k : Nat) : List (Nat × α) → Option α
  | [] => none
  | (i, v) :: t => if i = k then some v else if k < i then none else Sparse.get k t

/-- The table with no entry for `k`. -/
def Sparse.erase {α : Type} (k : Nat) : List (Nat × α) → List (Nat × α)
  | [] => []
  | (i, v) :: t => if i = k then t else if k < i then (i, v) :: t else (i, v) :: Sparse.erase k t

/-- The table with `v` listed for `k`. -/
def Sparse.put {α : Type} (k : Nat) (v : α) : List (Nat × α) → List (Nat × α)
  | [] => [(k, v)]
  | (i, w) :: t => if i = k then (k, v) :: t else if k < i then (k, v) :: (i, w) :: t else (i, w) :: Sparse.put k v t

/-- Keys strictly rising. -/
def Sparse.rising {α : Type} : List (Nat × α) → Bool
  | [] => true
  | [_] => true
  | (i, _) :: (j, w) :: t => i < j && Sparse.rising ((j, w) :: t)

/-! ### Bit fields -/

/-- The value of a field. -/
def Fld.get (f : Fld) (w : Word) : Nat := w.toNat / 2 ^ f.lo % 2 ^ f.len

/-- The word with a field replaced. -/
def Fld.put (f : Fld) (v : Nat) (w : Word) : Word :=
  BitVec.ofNat 32 (w.toNat % 2 ^ f.lo + (v % 2 ^ f.len) * 2 ^ f.lo + w.toNat / 2 ^ (f.lo + f.len) * 2 ^ (f.lo + f.len))

/-- The mask of a field. -/
def Fld.mask (f : Fld) : Word := BitVec.ofNat 32 ((2 ^ f.len - 1) * 2 ^ f.lo)

/-- `n` as a signed number of `w` bits. -/
def signed (w n : Nat) : Int := if n % 2 ^ w < 2 ^ (w - 1) then (n % 2 ^ w : Nat) else ((n % 2 ^ w : Nat) : Int) - (2 ^ w : Nat)

/-- A Bool as a bit. -/
def bit (b : Bool) : Nat := if b then 1 else 0

/-- `v` brought into `lo … hi`. -/
def clampInt (lo hi v : Int) : Int := if v < lo then lo else if hi < v then hi else v

/-! ### Registers (one home: `dev`) -/

/-- The word of the register or window table at `a`. -/
def State.reg (s : State) (a : Nat) : Word := (Sparse.get a s.dev).getD (RegMap.reset a)

/-- The state with the word at `a` replaced; a reset value is not listed. -/
def State.setReg (s : State) (a : Nat) (w : Word) : State :=
  { s with dev := if w = RegMap.reset a then Sparse.erase a s.dev else Sparse.put a w s.dev }

/-- The value of a register's field. -/
def State.fld (s : State) (a : Nat) (f : Fld) : Nat := f.get (s.reg a)

/-- A one-bit field is 1. -/
def State.flag (s : State) (a : Nat) (f : Fld) : Bool := s.fld a f != 0

/-- The state with a field replaced. -/
def State.setFld (s : State) (a : Nat) (f : Fld) (v : Nat) : State := s.setReg a (f.put v (s.reg a))

/-- Several fields of one register replaced. -/
def State.setFlds (s : State) (a : Nat) (l : List (Fld × Nat)) : State :=
  s.setReg a (l.foldl (fun w p => p.1.put p.2 w) (s.reg a))

/-- A 64-bit value kept in two registers, low half at the lower offset (R5). -/
def State.reg64 (s : State) (lo hi : Nat) : Nat := (s.reg lo).toNat + (s.reg hi).toNat * 2 ^ 32

/-- A 40-bit address kept in two registers. -/
def State.setAddr (s : State) (lo hi addr : Nat) : State :=
  (s.setReg lo (BitVec.ofNat 32 addr)).setReg hi (BitVec.ofNat 32 (addr / 2 ^ 32 % 256))

/-- SYS_DEVID (R3): the variant is the part's (log 47). -/
def devid : Word := Fld.SYS_DEVID_VARIANT.put (if Config.variantN then 2 else 1) (RegMap.reset Reg.SYS_DEVID)

/-! ### Memory -/

/-- What a byte of memory that nothing has written reads as: the boot ROM's contents, else 0 (logs 3 and 4). -/
def memDefault (a : Nat) : Byte := if a < 0x40000 then Config.romByte a else 0

/-- Where the byte that an address names is stored: an address of DRAM above what is installed acts on an installed line that the DRAM
devices' decoding selects (R489; log 56), and every other address on itself. -/
def located (a : Nat) : Nat :=
  if a < 0x1000000000 then a
  else if (a - 0x1000000000) / 64 ≤ Config.dramLines then a
  else 0x1000000000 + 64 * (Config.dramSelect (a / 64) % (Config.dramLines + 1)) + a % 64

/-- The canonical form of memory: addresses strictly rising, none in the boot ROM, and no entry equal to what an unlisted
address reads as. -/
def Memory.wf (m : List Host.Cell) : Bool := Sparse.rising m && m.all (fun c => 0x40000 ≤ c.1 && c.2 != 0)

/-- The byte of memory at `a`. -/
def Memory.read (m : List Host.Cell) (a : Nat) : Byte := (Sparse.get (located a) m).getD (memDefault a)

/-- Memory with the byte at `a` replaced; the boot ROM is read-only (R15). -/
def Memory.write (m : List Host.Cell) (a : Nat) (b : Byte) : List Host.Cell :=
  if a < 0x40000 then m else if b = 0 then Sparse.erase (located a) m else Sparse.put (located a) b m

/-- The `n` bytes at `a`. -/
def State.bytes (s : State) (a : Nat) : Nat → List Byte
  | 0 => []
  | n + 1 => Memory.read s.mem a :: s.bytes (a + 1) n

/-- Memory with bytes written at `a` onwards. -/
def Memory.writes (m : List Host.Cell) (a : Nat) : List Byte → List Host.Cell
  | [] => m
  | b :: t => Memory.writes (Memory.write m a b) (a + 1) t

/-- A byte string as a number, least significant byte first. -/
def leNat : List Byte → Nat
  | [] => 0
  | b :: t => b.toNat + 256 * leNat t

/-- The `n` low bytes of a number, least significant first. -/
def leBytes : Nat → Nat → List Byte
  | 0, _ => []
  | n + 1, v => BitVec.ofNat 8 v :: leBytes n (v / 256)

/-- A byte string as a number, most significant byte first. -/
def beNat (l : List Byte) : Nat := l.foldl (fun a b => a * 256 + b.toNat) 0

/-- The `n` low bytes of a number, most significant first. -/
def beBytes (n v : Nat) : List Byte := (leBytes n v).reverse

/-! ### Initiators -/

/-- The initiator ID (R14). -/
def Who.id : Who → Nat
  | .ctx c _ => c.val
  | .shuttle n => 128 + n.val
  | .presser => 192
  | .pipe p => 193 + p.val
  | .spool => 197
  | .seam => 198
  | .debug => 199
  | .mailbox => 200

/-- The Lining bit (R12). -/
def Who.lining : Who → Bool
  | .ctx _ l => l
  | _ => false

/-- The test access port takes the response of its access (R533): the data of a read, or 0 after a write. -/
def Dbg.answered (d : Dbg) (r : Resp) : Dbg :=
  match r with
  | .data b => { d with tapData := BitVec.ofNat 32 (leNat b), tapOutstanding := none, tapRefused := false }
  | .done => { d with tapData := 0, tapOutstanding := none, tapRefused := false }
  | .refused _ => { d with
      tapData := if d.tapOutstanding.any (fun a => a.getLsbD 72) then 0 else d.tapData, tapOutstanding := none, tapRefused := true }
  | .uncorrectable => { d with tapOutstanding := none, tapRefused := false }

/-- The response of the last access of an initiator. -/
def State.respond (s : State) (who : Who) (r : Resp) : State :=
  { s with fab := { s.fab with resp := Sparse.put who.id r s.fab.resp }
           dbg := if who = .debug then s.dbg.answered r else s.dbg }

/-- A register read's response. -/
def State.respondWord (s : State) (who : Who) (w : Word) : State := s.respond who (.data (leBytes 4 w.toNat))

/-- The output of PLL `n` runs (R486): 0 fabric, 1 peripheral, 2–5 quads, 6 DDR, 7–10 pixel, 11 audio, 12 and 13 network. -/
def State.pllRuns (s : State) (n : Nat) : Bool := s.sys.clocks.getLsbD n

/-! ### Contexts -/

/-- A context. -/
def State.ctx (s : State) (c : Ctx) : Context := s.ctxs[c.val]

/-- The state with one context changed. -/
def State.setCtx (s : State) (c : Ctx) (x : Context) : State := { s with ctxs := s.ctxs.set c.val x }

/-- The core of a context (R74). -/
def coreOf (c : Ctx) : Fin 16 := ⟨c.val / 8, by omega⟩

/-- The quad of a core (R74). -/
def quadOf (k : Fin 16) : Fin 4 := ⟨k.val / 4, by omega⟩

/-- A core. -/
def State.core (s : State) (k : Fin 16) : Core := s.cores[k.val]

/-- The state with one core changed. -/
def State.setCore (s : State) (k : Fin 16) (x : Core) : State := { s with cores := s.cores.set k.val x }

/-- A quad. -/
def State.quad (s : State) (q : Fin 4) : Quad := s.quads[q.val]

/-- The state with one quad changed. -/
def State.setQuad (s : State) (q : Fin 4) (x : Quad) : State := { s with quads := s.quads.set q.val x }

/-- Fifteenths of a core cycle in a fabric cycle of 1.333 ns, at each DVFS point: 1.5, 1.2, 0.8 and 0.4 GHz (R473, log 8). -/
def ccRate (point : Nat) : Nat :=
  match point with
  | 0 => 30
  | 1 => 24
  | 2 => 16
  | _ => 8

/-- An edge wake source occurs in standby (R483): one within the 6 pc of step 6 is lost as a wake. -/
def State.noteWake (s : State) (src : Nat) : State :=
  if s.sys.standby ≠ 0 ∧ s.sys.blind ≤ s.fc then { s with sys := { s.sys with wakes := s.sys.wakes ||| BitVec.ofNat 18 (2 ^ src) } } else s

/-- The targets of the audio PLL's lock to device time move: its boundaries have yet to come near them again (R488; log 90). -/
def State.unlockAudio (s : State) : State :=
  if s.flag Reg.SYS_APLL Fld.SYS_APLL_DTLOCK then s.setFld Reg.SYS_APLL Fld.SYS_APLL_LOCKED 0 else s

/-- The core cycle by which something that leaves the fabric now has crossed into a quad: 1 fc + 2 cc (R81, R478). -/
def Quad.crossing (x : Quad) : Nat := x.cycles + (ccRate x.point + 14) / 15 + 2

/-- The first of the core cycles of this fabric cycle, where the quad's clock runs, that lies at wheel position 0, at or after cycle `n`
(R81, R478). -/
def State.positionZero (s : State) (q : Fin 4) (n : Nat) : Option Nat :=
  let x := s.quad q
  if s.pllRuns (2 + q.val) then
    ((List.range x.span).map (fun i => x.cycles + 1 - x.span + i)).find? (fun t => n ≤ t && t % 16 == 0)
  else none

/-- All contexts. -/
def allCtx : List Ctx := List.finRange 128

/-- Lockstep is active (R106). -/
def State.lockstep (s : State) : Bool := s.flag Reg.HYC_LSCTL Fld.HYC_LSCTL_ACTIVE

/-- A context that lockstep takes away (R106). -/
def State.lockedOut (s : State) (c : Nat) : Bool := s.lockstep && 120 ≤ c

/-! ### Events (R238 to R254) -/

/-- Device time in whole nanoseconds (R29). -/
def State.now (s : State) : Nat := s.psq.time / 2 ^ 32

/-- A source whose occurrences need no crossing: its block runs on the fabric clock (R25, R26, R239). -/
def fabricSource (n : Nat) : Bool := n < 400 || (464 ≤ n && n < 1008) || (1216 ≤ n && n < 1424)

/-- The sources with a bit of EVC_SSTATn set, in ascending order. -/
def State.sourcesWith (s : State) (f : Fld) : List Nat :=
  s.dev.filterMap (fun p =>
    if 0x10120000 ≤ p.1 ∧ p.1 < 0x10120000 + 4 * 1536 ∧ f.get p.2 ≠ 0 then some ((p.1 - 0x10120000) / 4) else none)

/-- A source belongs to group `g` (R253). -/
def State.memberOf (s : State) (n g : Nat) : Bool :=
  s.flag (Reg.EVC_SCFG n) Fld.EVC_SCFG_GEN && s.fld (Reg.EVC_SCFG n) Fld.EVC_SCFG_GRP == g

/-- A group releases its members (R253). -/
def State.releaseGroup (s : State) (g : Nat) : State :=
  let held := (s.sourcesWith Fld.EVC_SSTAT_HELD).filter (fun n => s.memberOf n g)
  let s := held.foldl (fun s n => s.setFld (Reg.EVC_SSTAT n) Fld.EVC_SSTAT_HELD 0) s
  let s := s.setReg (Reg.EVC_GSTAT g) 0
  { s with evc := { s.evc with deadlines := Sparse.erase g s.evc.deadlines } }

/-- An occurrence of source `n` is accepted at the controller (R239, R253). -/
def State.accept (s : State) (n : Nat) : State :=
  let s := s.setFld (Reg.EVC_SSTAT n) Fld.EVC_SSTAT_PEND 1
  let g := s.fld (Reg.EVC_SCFG n) Fld.EVC_SCFG_GRP
  if s.flag (Reg.EVC_SCFG n) Fld.EVC_SCFG_GEN && s.flag (Reg.EVC_GCFG g) Fld.EVC_GCFG_EN then
    let s := s.setFld (Reg.EVC_SSTAT n) Fld.EVC_SSTAT_HELD 1
    let s := if s.flag (Reg.EVC_GSTAT g) Fld.EVC_GSTAT_ARMED then s else
      let s := s.setFld (Reg.EVC_GSTAT g) Fld.EVC_GSTAT_ARMED 1
      let t := (s.reg (Reg.EVC_GTIME g)).toNat
      if t = 0 then s else { s with evc := { s.evc with deadlines := Sparse.put g (s.now + t) s.evc.deadlines } }
    let cnt := s.fld (Reg.EVC_GSTAT g) Fld.EVC_GSTAT_COUNT + 1
    let s := s.setFld (Reg.EVC_GSTAT g) Fld.EVC_GSTAT_COUNT cnt
    if s.fld (Reg.EVC_GCFG g) Fld.EVC_GCFG_COUNT ≤ cnt then s.releaseGroup g else s
  else s

/-- A block signals an occurrence: a fabric-domain block's is accepted at once (R239), another's waits in its counting
synchroniser (R27), as every occurrence does while the controller is suspended (R255). -/
def State.raise (s : State) (n : Nat) : State :=
  if fabricSource n && !s.evc.suspended then s.accept n
  else { s with evc := { s.evc with sync := s.evc.sync ++ [n] } }

/-- Raise an event where a condition holds. -/
def State.raiseIf (s : State) (b : Bool) (n : Nat) : State := if b then s.raise n else s

/-! ### Starting a context and pending Lining causes -/

/-- The start values of R119 for a context whose start address is `pc`. -/
def Context.started (x : Context) (pc : VAddr) : Context :=
  { x with
    g := Vector.replicate 32 0, flags := ⟨false, false, false, false, false⟩, fpcsr := 0, lc := 0, ls := 0, le := 0,
    rsp := 0, rsbase := 0, rstop := 0, asid := 0, icount := 0, ldepth := 0,
    status := ⟨false, false, false, false, 0⟩, latch := none, run := .active, pc := pc, npc := pc + 4,
    slot := false, annul := false, shadows := [], entry := none, wait := .none, haltReq := none, heldKill := false,
    resumeTo := .active, brpt := none, chunk := none, slots := 0, missClass := .be, dsSaved := [] }

/-- The start address that HYC_CSTARTLn and HYC_CSTARTHn hold (R98). -/
def State.startAddr (s : State) (c : Ctx) : VAddr :=
  BitVec.ofNat 48 ((s.reg (Reg.HYC_CSTARTL c)).toNat / 4 * 4 + (s.reg (Reg.HYC_CSTARTH c)).toNat % 65536 * 2 ^ 32)

/-- A claimed event goes back to its sources (R192, R248). -/
def State.unclaim (s : State) (n : Nat) : State :=
  (s.setFlds (Reg.EVC_SSTAT n) [(Fld.EVC_SSTAT_ACT, 0), (Fld.EVC_SSTAT_OWNER, 0), (Fld.EVC_SSTAT_PEND, 1)]).setFld
    Reg.EVC_STAT Fld.EVC_STAT_REL 1

/-- The event controller sees that a context has become Off, and releases every source that it owns (R248). -/
def State.seeOff (s : State) (c : Ctx) : State :=
  let s := { s with evc := { s.evc with offSeen := s.evc.offSeen ||| BitVec.ofNat 128 (2 ^ c.val) } }
  ((s.sourcesWith Fld.EVC_SSTAT_ACT).filter (fun n => s.fld (Reg.EVC_SSTAT n) Fld.EVC_SSTAT_OWNER == c.val)).foldl State.unclaim s

/-- A context is started under R98 and R119: it clears EXH (R188), and the event controller, which has released what it owned before
(R248), no longer sees it as Off. -/
def State.startCtx (s : State) (c : Ctx) : State :=
  let s := if s.evc.offSeen.getLsbD c.val then s else s.seeOff c
  let s := s.setCtx c ((s.ctx c).started (s.startAddr c))
  let s := s.setFld (Reg.HYC_CSTAT c) Fld.HYC_CSTAT_EXH 0
  { s with evc := { s.evc with offSeen := s.evc.offSeen &&& ~~~(BitVec.ofNat 128 (2 ^ c.val)) } }

/-- The lpend bit of an asynchronous Lining cause (R187). -/
def LCause.bit : LCause → Nat
  | .lockstep => 0
  | .ecc => 1
  | .machineCheck => 2
  | .lag => 3

/-- Its cause code (R177). -/
def LCause.code : LCause → Nat
  | .lockstep => 0x22
  | .ecc => 0x21
  | .machineCheck => 0x20
  | .lag => 0x23

/-- An asynchronous Lining cause becomes pending in a context (R187): an Asleep context is woken and an Off context that is
not exhausted is started, to take it at its next boundary. -/
def State.liningPend (s : State) (c : Ctx) (cause : LCause) : State :=
  let x := s.ctx c
  let x := { x with lpend := x.lpend ||| BitVec.ofNat 4 (2 ^ cause.bit) }
  let s := s.setCtx c x
  match x.run with
  | .asleep => s.setCtx c { x with run := .active }
  | .off => if s.flag (Reg.HYC_CSTAT c) Fld.HYC_CSTAT_EXH then s else s.startCtx c
  | _ => s

/-- The Lining service context (R190). -/
def State.serviceCtx (s : State) : Ctx :=
  let n := s.fld Reg.HYC_LSVC Fld.HYC_LSVC_CTX
  if s.lockedOut n then 0 else Fin.ofNat 128 n

/-- An asynchronous cause for the Lining service context (R186). -/
def State.liningService (s : State) (cause : LCause) : State := s.liningPend s.serviceCtx cause

/-! ### Address map and firewall (R15 to R24) -/

/-- The regions of the physical address map (R15). -/
inductive Region where
  | rom | bank (b : Nat) | liningStore | applique | devReg | seamMem | telegram | dram | unmapped
  deriving DecidableEq, Repr

/-- The installed DRAM size that MEM_CTRL.DRAMSZ names (R16, R237). -/
def State.dramSize (s : State) : Nat :=
  match s.fld Reg.MEM_CTRL Fld.MEM_CTRL_DRAMSZ with
  | 1 => 4 * 2 ^ 30 | 2 => 8 * 2 ^ 30 | 3 => 16 * 2 ^ 30 | 4 => 32 * 2 ^ 30 | 5 => 64 * 2 ^ 30 | _ => 0

/-- The DDR channel of a DRAM address (R225). -/
def dramChannel (a : Nat) : Nat :=
  (a / 2 ^ 8 % 4) ^^^ (a / 2 ^ 16 % 4) ^^^ (a / 2 ^ 24 % 4) ^^^ (a / 2 ^ 32 % 4)

/-- The region of a physical address. A channel whose training failed has no address (R489). -/
def State.region (s : State) (a : Nat) : Region :=
  if a < 0x40000 then .rom
  else if 0x1000000 ≤ a ∧ a < 0x3000000 then .bank ((a - 0x1000000) / 0x100000)
  else if 0x4000000 ≤ a ∧ a < 0x4080000 then .liningStore
  else if 0x5000000 ≤ a ∧ a < 0x5200000 then .applique
  else if 0x10000000 ≤ a ∧ a < 0x11200000 then .devReg
  else if 0x20000000 ≤ a ∧ a < 0x20400000 then .seamMem
  else if 0x20400000 ≤ a ∧ a < 0x20600000 then .telegram
  else if 0x1000000000 ≤ a ∧ a < 0x1000000000 + s.dramSize ∧ s.ddr[dramChannel a % 4].failed = false then .dram
  else .unmapped

/-- A request to a DDR channel that has not trained is held (R489). -/
def State.dramHeld (s : State) (a : Nat) : Bool :=
  s.region a = .dram && s.fld Reg.MEM_STAT Fld.MEM_STAT_CHRDY / 2 ^ dramChannel a % 2 == 0

/-- The block of a register address (R17). -/
def blockIndex (a : Nat) : Nat := (a - 0x10000000) / 0x100000

/-- The blocks that can be powered down, by index in R17: PRS, SHU, DP0–DP3, SPL and SEAM (R474). -/
def canPowerOff (i : Nat) : Bool := 5 ≤ i && i ≤ 12

/-- Block `b` is off, or comes up and is not there yet (R475); one that is going off is still there (R474). -/
def State.isOff (s : State) (b : Nat) : Bool :=
  (s.reg Reg.SYS_BPSTAT).toNat / 2 ^ b % 2 == 1 && !s.sys.changes.contains (b, true)

/-- The register block or memory at `a` belongs to a block that is powered down (R475). -/
def State.poweredOff (s : State) (a : Nat) : Bool :=
  match s.region a with
  | .devReg => canPowerOff (blockIndex a) && s.isOff (blockIndex a)
  | .seamMem => s.isOff 12
  | .telegram => s.isOff 12
  | _ => false

/-- A firewall register's value in force for a request accepted now (R22). -/
def State.fwReg (s : State) (a : Nat) : Word :=
  match s.fab.fwOld.find? (fun o => o.addr == a && s.fc < o.due) with
  | some o => o.old
  | none => s.reg a

/-- The firewall group of an initiator ID (R23). -/
def State.fwGroup (s : State) (id : Nat) : Nat := (s.fwReg (Reg.FAB_IGRP (id / 8))).toNat / 2 ^ (4 * (id % 8)) % 16

/-- The lowest-numbered enabled region whose range contains an address (R19 step 6, R24). -/
def State.fwRegion (s : State) (a : Nat) : Option Nat :=
  (List.range 32).find? (fun r =>
    Fld.FAB_RCTL_EN.get (s.fwReg (Reg.FAB_RCTL r)) == 1 &&
    Fld.FAB_RBASE_BASE.get (s.fwReg (Reg.FAB_RBASE r)) ≤ a / 4096 &&
    a / 4096 ≤ Fld.FAB_RLIM_LIMIT.get (s.fwReg (Reg.FAB_RLIM r)))

/-- The direction of a request. -/
def ReqKind.isWrite : ReqKind → Bool
  | .read => false
  | _ => true

/-- A register-space request keeps R5: one aligned 32-bit read or write. -/
def Request.registerForm (r : Request) : Bool :=
  r.len == 4 && r.addr % 4 == 0 && (match r.kind with | .read => true | .write _ => true | _ => false)

/-- The appliqué owner registers name an initiator ID (R294). -/
def State.appliqueOwner (s : State) (id : Nat) : Bool :=
  (List.range 4).any (fun k =>
    let w := s.fwReg (Reg.FAB_APOWN k)
    Fld.FAB_APOWN_EN.get w == 1 && Fld.FAB_APOWN_ID.get w == id)

/-- A request breaks a fixed rule of R20. -/
def State.fixedRule (s : State) (r : Request) : Bool :=
  (r.who.id == 200 && !r.kind.isWrite) ||
  match s.region r.addr with
  | .liningStore => !r.who.lining
  | .rom => r.kind.isWrite || r.who.id == 199 || r.who.id == 200
  | .devReg => blockIndex r.addr == 4 && r.kind.isWrite && !r.who.lining
  | .applique => r.kind.isWrite && !s.appliqueOwner r.who.id
  | _ => false

/-- The verdict of the firewall. -/
inductive Verdict where
  | allowed
  | refused (cause region : Nat)
  deriving DecidableEq, Repr

/-- The check of R19, in its order. -/
def State.firewall (s : State) (r : Request) : Verdict :=
  if s.region r.addr = .unmapped then .refused 1 0
  else if s.region r.addr = .devReg ∧ r.registerForm = false then .refused 5 0
  else if s.poweredOff r.addr then .refused 6 0
  else if s.fixedRule r then .refused 2 0
  else if r.who.lining then .allowed
  else match s.fwRegion r.addr with
    | some n =>
      let m := if r.kind.isWrite then Fld.FAB_RPERM_WMASK.get (s.fwReg (Reg.FAB_RPERM n))
               else Fld.FAB_RPERM_RMASK.get (s.fwReg (Reg.FAB_RPERM n))
      if m / 2 ^ s.fwGroup r.who.id % 2 = 1 then .allowed else .refused 3 n
    | none => if Fld.FAB_CTRL_DEFAULT.get (s.fwReg Reg.FAB_CTRL) = 1 then .refused 4 0 else .allowed

/-- A request that is held at its port has been accepted (R22). -/
def State.wasAccepted (s : State) (r : Request) : Bool := s.fab.accepted.contains (r.who.id, r.addr, r.kind.isWrite)

/-- The verdict on a request that an initiator makes, or makes again: one that was accepted before is not checked by later settings (R22),
but finds its channel's address gone where the training has failed (R489). -/
def State.verdict (s : State) (r : Request) : Verdict :=
  if s.wasAccepted r && s.region r.addr != .unmapped then .allowed else s.firewall r

/-- A request that the firewall has allowed is held at its port (R22, R484, R489). -/
def State.keepAccepted (s : State) (r : Request) : State :=
  if s.wasAccepted r then s
  else { s with fab := { s.fab with accepted := s.fab.accepted ++ [(r.who.id, r.addr, r.kind.isWrite)] } }

/-- A request held at its port goes on. -/
def State.dropAccepted (s : State) (r : Request) : State :=
  if s.wasAccepted r then { s with fab := { s.fab with accepted := s.fab.accepted.erase (r.who.id, r.addr, r.kind.isWrite) } } else s

/-- Nothing of an initiator is held at its port any more. -/
def State.forget (s : State) (id : Nat) : State :=
  if s.fab.accepted.any (fun q => q.1 == id) then
    { s with fab := { s.fab with accepted := s.fab.accepted.filter (fun q => q.1 != id) } }
  else s

/-- Requests made together, some of them held, are accepted in order up to the first that is refused (R22). -/
def State.acceptAll (s : State) : List Request → State
  | [] => s
  | r :: t => if s.verdict r = .allowed then (s.keepAccepted r).acceptAll t else s

/-- The fields of a refused request in FAB_VSTAT and FAB_VADDR (R23). -/
def State.showRefusal (s : State) (r : Request) (cause region : Nat) : State :=
  let s := s.setFlds Reg.FAB_VSTAT [(Fld.FAB_VSTAT_VALID, 1), (Fld.FAB_VSTAT_LINING, bit r.who.lining),
    (Fld.FAB_VSTAT_WRITE, bit r.kind.isWrite), (Fld.FAB_VSTAT_CAUSE, cause), (Fld.FAB_VSTAT_REGION, region),
    (Fld.FAB_VSTAT_INIT, r.who.id)]
  (s.setReg Reg.FAB_VADDR_LO (BitVec.ofNat 32 r.addr)).setReg Reg.FAB_VADDR_HI (BitVec.ofNat 32 (r.addr / 2 ^ 32 % 256))

/-- A refusal is recorded (R23): of the refusals of one fc, the one with the lowest initiator ID. A refusal of the debug port is
recorded in its own block as well (R532). -/
def State.recordRefusal (s : State) (r : Request) (cause region : Nat) : State :=
  let s :=
    if s.flag Reg.FAB_VSTAT Fld.FAB_VSTAT_VALID then
      let lower := s.fab.refFc = some s.fc && r.who.id < s.fld Reg.FAB_VSTAT Fld.FAB_VSTAT_INIT
      (if lower then s.showRefusal r cause region else s).setFld Reg.FAB_VSTAT Fld.FAB_VSTAT_OVF 1
    else { (s.showRefusal r cause region).raise 1279 with fab := { s.fab with refFc := some s.fc } }
  if r.who = .debug then
    if s.flag Reg.DBG_STAT Fld.DBG_STAT_AERR then s.setFld Reg.DBG_STAT Fld.DBG_STAT_OVF 1
    else
      let s := s.setFlds Reg.DBG_STAT [(Fld.DBG_STAT_AERR, 1), (Fld.DBG_STAT_CAUSE, cause)]
      (s.setAddr Reg.DBG_EADRL Reg.DBG_EADRH r.addr).raise 1361
  else s

/-! ### Error correction (R231 to R234, R525) -/

/-- The exclusive OR of the positions of the bits inverted, SYN[6:0]. -/
def synLow (f : Flips) : Nat := (List.range 72).foldl (fun a p => if f.getLsbD p then a ^^^ p else a) 0

/-- The parity of the bits inverted, SYN[7]. -/
def synHigh (f : Flips) : Bool := (List.range 72).foldl (fun a p => xor a (f.getLsbD p)) false

/-- The syndrome of a word whose bits `f` are inverted (R525): position p is bit p of `f`, and check bit 7 is bit 0. -/
def syndrome (f : Flips) : Nat := synLow f + (if synHigh f then 128 else 0)

/-- What a read of a word finds (R525). -/
inductive EccResult where
  | clean | corrected (pos : Nat) | uncorrectable
  deriving DecidableEq, Repr

/-- The reading of a syndrome. -/
def eccResult (f : Flips) : EccResult :=
  if syndrome f = 0 then .clean
  else if synHigh f = false then .uncorrectable
  else if synLow f < 72 then .corrected (synLow f) else .uncorrectable

/-- The position of data bit d (R525): the (d + 1)-th position of 1–71 that is not a power of two. -/
def dataPositions : List Nat := (List.range 72).filter (fun p => !(p == 0 || p == 1 || p == 2 || p == 4 || p == 8 || p == 16 || p == 32 || p == 64))

/-- The data bits that a pattern inverts. -/
def dataFlips (f : Flips) : Dword :=
  BitVec.ofNat 64 ((dataPositions.zipIdx).foldl (fun a p => if f.getLsbD p.1 then a + 2 ^ p.2 else a) 0)

/-- The poison code (R525): check bits 0 and 1 inverted. -/
def poison : Flips := BitVec.ofNat 72 6

/-- The SRC code of MEM_ECCSTAT for an address (R237). -/
def State.eccSrc (s : State) (a : Nat) : Nat :=
  match s.region a with
  | .dram => dramChannel a
  | .bank _ => 4
  | .devReg => 0xA
  | _ => 9

/-- An error is counted and recorded (R232, R233, R234, R236). -/
def State.reportEcc (s : State) (ue : Bool) (src syn init addr : Nat) : State :=
  let cnt := if ue then Reg.MEM_UECNT else Reg.MEM_CECNT
  let s := if s.reg cnt = 0xFFFFFFFF then s else s.setReg cnt (s.reg cnt + 1)
  let record (s : State) : State :=
    let s := s.setFlds Reg.MEM_ECCSTAT [(Fld.MEM_ECCSTAT_VALID, 1), (Fld.MEM_ECCSTAT_UE, bit ue), (Fld.MEM_ECCSTAT_SRC, src),
      (Fld.MEM_ECCSTAT_SYN, syn), (Fld.MEM_ECCSTAT_INIT, init)]
    (s.setReg Reg.MEM_ECCADDRL (BitVec.ofNat 32 (addr / 8 * 8))).setReg Reg.MEM_ECCADDRH (BitVec.ofNat 32 (addr / 2 ^ 32 % 256))
  let overflow (s : State) : State :=
    if s.flag Reg.MEM_ECCSTAT Fld.MEM_ECCSTAT_OVF then s
    else (s.setFld Reg.MEM_ECCSTAT Fld.MEM_ECCSTAT_OVF 1).raise 1218
  if !s.flag Reg.MEM_ECCSTAT Fld.MEM_ECCSTAT_VALID then (record s).raise (if ue then 1217 else 1216)
  else if ue && !s.flag Reg.MEM_ECCSTAT Fld.MEM_ECCSTAT_UE then overflow ((record s).raise 1217)
  else overflow s

/-- The erroneous words of a line after an upset in the array `src` of core `k`. -/
def CErr.struck (word src k : Nat) (f : Flips) (l : List CErr) : List CErr :=
  let here (e : CErr) : Bool := e.word == word && e.src == src && e.core == k
  let g := (((l.filter here).map (fun e => e.flips)).foldl (fun a b => a ^^^ b) f)
  let rest := l.filter (fun e => !here e)
  if g = 0 then rest else rest ++ [⟨word, g, src, k⟩]

/-- An upset in a copy of a line that quad `q` holds. -/
def State.strikeLine (s : State) (q : Fin 4) (a src k : Nat) (f : Flips) : State :=
  s.setQuad q { s.quad q with l2 := (s.quad q).l2.map (fun l =>
    if l.line = a / 64 then { l with errs := CErr.struck (a % 64 / 8) src k f l.errs } else l) }

/-- An upset in the entry at place `n` of a TLB. -/
def strikeEntry (n : Nat) (f : Flips) (l : List TlbEntry) : List TlbEntry :=
  l.zipIdx.map (fun e => if e.2 = n then { e.1 with flips := e.1.flips ^^^ f } else e.1)

/-- An upset strikes a word of the island's SRAM (R231, R425), 256 KiB. -/
def Island.strike (i : Island) (a : Nat) (flips : Flips) : Island :=
  let w := a % 0x40000 / 8 * 8
  let f := (Sparse.get w i.sramErr).getD 0 ^^^ flips
  { i with sramErr := if f = 0 then Sparse.erase w i.sramErr else Sparse.put w f i.sramErr }

/-- One physical upset strikes the word that is stored where it says; an array that does not hold the word is not struck. -/
def State.strikeOne (s : State) (u : Upset) : State :=
  match u.site with
  | .memory =>
    let w := located (u.addr / 8 * 8)
    let f := (Sparse.get w s.ecc).getD 0 ^^^ u.flips
    { s with ecc := if f = 0 then Sparse.erase w s.ecc else Sparse.put w f s.ecc }
  | .l1i k => if (s.core k).l1i.contains (u.addr / 64) then s.strikeLine (quadOf k) u.addr 5 k.val u.flips else s
  | .l1d k => if (s.core k).l1d.contains (u.addr / 64) then s.strikeLine (quadOf k) u.addr 6 k.val u.flips else s
  | .l2 q => s.strikeLine q u.addr 7 0 u.flips
  | .itlb k => s.setCore k { s.core k with itlb := strikeEntry u.addr u.flips (s.core k).itlb }
  | .dtlb k => s.setCore k { s.core k with dtlb := strikeEntry u.addr u.flips (s.core k).dtlb }
  | .tlb2 k => s.setCore k { s.core k with tlb2 := strikeEntry u.addr u.flips (s.core k).tlb2 }
  | .island => { s with isl := s.isl.strike u.addr u.flips }

/-- Physical upsets strike stored words (R231). -/
def State.strike (s : State) (u : Upsets) : State := u.foldl State.strikeOne s

/-- A 64-bit word of memory or of a block's window, as stored. -/
def State.word64 (s : State) (a : Nat) : Dword :=
  if s.region a = .devReg then BitVec.ofNat 64 (s.reg64 a (a + 4)) else BitVec.ofNat 64 (leNat (s.bytes a 8))

/-- A 64-bit word of memory or of a block's window replaced. -/
def State.setWord64 (s : State) (a : Nat) (v : Dword) : State :=
  if s.region a = .devReg then (s.setReg a (BitVec.ofNat 32 v.toNat)).setReg (a + 4) (BitVec.ofNat 32 (v.toNat / 2 ^ 32))
  else { s with mem := Memory.writes s.mem a (leBytes 8 v.toNat) }

/-- A read checks the word at the 8-byte-aligned address `a` for initiator `init`: a single error is corrected and written back
(R232); the answer says whether the word is uncorrectable (R233). -/
def State.checkWord (s : State) (init a : Nat) : Bool × State :=
  match Sparse.get (located a) s.ecc with
  | none => (false, s)
  | some f =>
    match eccResult f with
    | .clean => (false, { s.setWord64 a (s.word64 a ^^^ dataFlips f) with ecc := Sparse.erase (located a) s.ecc })
    | .corrected p =>
      let r := f ^^^ BitVec.ofNat 72 (2 ^ p)
      let s := { s.setWord64 a (s.word64 a ^^^ dataFlips r) with ecc := Sparse.erase (located a) s.ecc }
      (false, s.reportEcc false (s.eccSrc a) (syndrome f) init a)
    | .uncorrectable => (true, s.reportEcc true (s.eccSrc a) (syndrome f) init a)

/-- The words that bytes `a … a + n − 1` touch. -/
def wordsOf (a n : Nat) : List Nat := if n = 0 then [] else (List.range ((a % 8 + n + 7) / 8)).map (fun i => a / 8 * 8 + 8 * i)

/-- A read of `n` bytes checks every word it touches; true when one is uncorrectable. -/
def State.checkBytes (s : State) (init a n : Nat) : Bool × State :=
  (wordsOf a n).foldl (fun p w => let r := p.2.checkWord init w; (p.1 || r.1, r.2)) (false, s)

/-- A write of bytes to memory: a word written whole takes a new code; a word written in part is read first, and an
uncorrectable one is not written (R233). The answer says whether a word was left unwritten. -/
def State.memPut (s : State) (init a : Nat) (data : List Byte) : Bool × State :=
  let step (p : Bool × State) (w : Nat) : Bool × State :=
    let s := p.2
    let lo := max w a
    let hi := min (w + 8) (a + data.length)
    let part := (data.drop (lo - a)).take (hi - lo)
    if hi - lo = 8 then
      (p.1, { s with mem := Memory.writes s.mem lo part, ecc := Sparse.erase (located w) s.ecc })
    else
      let r := s.checkWord init w
      if r.1 then (true, r.2.liningService .ecc)
      else (p.1, { r.2 with mem := Memory.writes r.2.mem lo part })
  (wordsOf a data.length).foldl step (false, s)

/-! ### Access classes and locks -/

/-- A context's traffic class (R228): RT1 while a WAKE to it is unanswered. -/
def State.ctxClass (s : State) (c : Ctx) : TClass := if s.psq.waked.any (fun w => w.ctx == c) then .rt1 else .be

/-- Device time in 2⁻³² ns as a follower copy shows it in a domain whose clock cycle lasts `cycle` (R28): less than one such cycle from the
master count, a free difference (log 11). -/
def State.follower (s : State) (cycle : Nat) : Nat := s.psq.time + Config.freeNat s.free % (2 * cycle - 1) - (cycle - 1)

/-- The traffic class that an initiator's requests carry (R14, R228): a shuttle channel's is the CLASS field of its control register. -/
def State.classOf (s : State) (w : Who) : TClass :=
  match w with
  | .ctx c _ => s.ctxClass c
  | .shuttle n => match s.fld (Reg.SHU_CTRL n) Fld.SHU_CTRL_CLASS with
    | 1 => .rt1
    | 3 => .bk
    | _ => .be
  | .presser => .bk
  | .pipe _ => .rt0
  | .spool => .rt1
  | .seam => .rt1
  | .debug => .be
  | .mailbox => .be

/-- The register whose bit 31 locks the RWL fields at an address (R6, R22, R72, R108, R190, R237, R258, R291, R315, R471, R534). -/
def lockOf (a : Nat) : Option Nat :=
  let o := (a - 0x10000000) % 0x100000
  match blockIndex a with
  | 1 => if 0x10000 ≤ o ∧ o < 0x10000 + 4 * 1536 then some a
         else if 0x40000 ≤ o ∧ o < 0x40000 + 16 * 1536 then some (Reg.EVC_SCFG ((o - 0x40000) / 16)) else none
  | 2 => some Reg.PSQ_OWNER
  | 3 => some Reg.MEM_CTRL
  | 4 => if 0x800 ≤ o then some Reg.FAB_APCTL else some Reg.FAB_CTRL
  | 7 => some (Reg.DP_CTRL 0)
  | 8 => some (Reg.DP_CTRL 1)
  | 9 => some (Reg.DP_CTRL 2)
  | 10 => some (Reg.DP_CTRL 3)
  | 14 => some Reg.PIN_CTRL
  | 16 => some Reg.DBG_CTRL
  | 17 => if o < 0x2000 then some (Reg.HYC_CORECTL (o / 0x100))
          else if o < 0x4000 then some (Reg.HYC_CORECTL ((o - 0x2000) / 0x20 / 8))
          else some Reg.HYC_LSVC
  | _ => none

/-- The RWL fields at an address are locked. -/
def State.locked (s : State) (a : Nat) : Bool :=
  match lockOf a with
  | some l => (s.reg l).getLsbD 31 || (l == Reg.FAB_APCTL && (s.reg Reg.FAB_CTRL).getLsbD 31)
  | none => false

/-- A lock shuts every field that a write to a register acts on (R6): the write is ignored, and no fault or event results. -/
def State.lockedWhole (s : State) (a : Nat) : Bool :=
  s.locked a && match RegMap.find a with
    | some d => d.fields.any (fun f => f.acc = .rwl) && d.fields.all (fun f => f.acc = .rwl || f.acc = .ro || f.acc = .rc)
    | none => false

/-- What a written value of a field stores (the value ranges of its table). -/
def FieldDef.stored (f : FieldDef) (v : Nat) : Nat :=
  match f.stores.find? (fun r => r.1 ≤ v && v ≤ r.2.1) with
  | some r => r.2.2
  | none => v

/-- A write to a field under its access code (R6); `hw` holds the bits that hardware sets in the same cycle (R8). -/
def FieldDef.write (f : FieldDef) (locked : Bool) (data hw old : Word) : Word :=
  let v := f.fld.get data
  let o := f.fld.get old
  match f.acc with
  | .rw => f.fld.put (f.stored v) old
  | .rwl => if locked then old else f.fld.put (f.stored v) old
  | .w1c => f.fld.put ((o &&& (2 ^ f.fld.len - 1 - v)) ||| f.fld.get hw) old
  | .w1s => f.fld.put (o ||| v) old
  | .ro => old
  | .wo => old
  | .rc => old

/-- A register's word after a write of `data`. -/
def RegDef.written (d : RegDef) (locked : Bool) (data hw old : Word) : Word :=
  d.fields.foldl (fun w f => f.write locked data hw w) old

/-- A write lands in a register that has only its access codes to act by (R6, R7, R8). -/
def State.plainWrite (s : State) (a : Nat) (data hw : Word) : State :=
  match RegMap.find a with
  | some d => s.setReg a (d.written (s.locked a) data hw (s.reg a))
  | none => s

/-- What a read of a register returns of its stored word: WO fields and reserved bits read 0 (R6, R7). -/
def RegDef.visible (d : RegDef) (w : Word) : Word :=
  d.fields.foldl (fun v f => if f.acc = .wo then v else v ||| (w &&& f.fld.mask)) 0

/-- A read of a register clears its RC fields, except the bits that hardware sets in the same cycle (R8). -/
def RegDef.cleared (d : RegDef) (hw w : Word) : Word :=
  d.fields.foldl (fun v f => if f.acc = .rc then f.fld.put (f.fld.get hw) v else v) w

/-- A read of a register that has only its access codes to act by. -/
def State.plainRead (s : State) (a : Nat) (hw : Word) : Word × State :=
  match RegMap.find a with
  | some d => (d.visible (s.reg a), s.setReg a (d.cleared hw (s.reg a)))
  | none => (0, s)

/-- A 32-bit write into a table of a block's window: the stored word is read first, and an uncorrectable one is not written
(R231, R233). -/
def State.windowWrite (s : State) (init a : Nat) (data : Word) : State :=
  let r := s.checkWord init (a / 8 * 8)
  if r.1 then r.2.liningService .ecc else r.2.setReg a data

/-- A 32-bit read of a table of a block's window, checked and answered to its initiator as `show_` shows the word (R231, R233). -/
def State.windowShow (s : State) (who : Who) (a : Nat) (show_ : Word → Word) : State :=
  let r := s.checkWord who.id (a / 8 * 8)
  if r.1 then
    let s := r.2.respond who .uncorrectable
    match who with
    | .ctx _ _ => s
    | _ => s.liningService .ecc
  else r.2.respondWord who (show_ (r.2.reg a))

/-- The same with every bit shown. -/
def State.windowRead (s : State) (who : Who) (a : Nat) : State := s.windowShow who a id

/-- A read that a block makes of `n` bytes of its own table (R231, R237): true when a word is uncorrectable, which also goes to the
Lining service context (R233). -/
def State.tableRead (s : State) (init a n : Nat) : Bool × State :=
  let r := s.checkBytes init a n
  if r.1 then (true, r.2.liningService .ecc) else r

/-- Every stored word of a table that carries an error is checked as the table is read (R231, R232). -/
def State.checkRange (s : State) (init lo hi : Nat) : State :=
  (s.ecc.filter (fun e => lo ≤ e.1 && e.1 < hi)).foldl (fun s e => (s.tableRead init e.1 8).2) s

/-- One bit of the CRC-32 of IEEE 802.3. -/
def crcBit (c : Word) : Word := if c.getLsbD 0 then (c >>> 1) ^^^ 0xEDB88320 else c >>> 1

/-- The CRC-32 of IEEE 802.3 carried over one byte. -/
def crcByte (c : Word) (b : Byte) : Word :=
  crcBit (crcBit (crcBit (crcBit (crcBit (crcBit (crcBit (crcBit (c ^^^ b.zeroExtend 32))))))))

/-- The CRC-32 of IEEE 802.3 carried over bytes; it starts at all ones and is complemented at its end. -/
def crcBytes (c : Word) (l : List Byte) : Word := l.foldl crcByte c

end Sys2Proof.Machine
end

