-- ==== Sys2Proof/Machine/PipeOps.lean ====
section
/-! DEFINITION. What the display pipes share (R259 to R268, R288, R290): the active copy, positions, events, commits and kicks. Readings and choices: log 36. -/

namespace Sys2Proof.Machine

/-- A pipe. -/
def State.pipe (s : State) (p : Fin 4) : Pipe := s.pipes[p.val]

/-- The state with one pipe changed. -/
def State.setPipe (s : State) (p : Fin 4) (x : Pipe) : State := { s with pipes := s.pipes.set p.val x }

/-- The base of a pipe's window. -/
def pipeBase (p : Nat) : Nat := 0x10700000 + 0x100000 * p

/-- The pipes 0 and 1 are the large ones. -/
def largePipe (p : Fin 4) : Bool := p.val < 2

/-- A register's word in a copy of the staged registers, keyed by window offset. -/
def cfgReg (cfg : List (Nat × Word)) (p a : Nat) : Word := (Sparse.get (a - pipeBase p) cfg).getD (RegMap.reset a)

/-- A register's word in the active copy (R262). -/
def State.act (s : State) (p : Fin 4) (a : Nat) : Word := cfgReg (s.pipe p).active p a

/-- A field of the active copy. -/
def State.actFld (s : State) (p : Fin 4) (a : Nat) (f : Fld) : Nat := f.get (s.act p a)

/-- An address held in two active registers. -/
def cfgAddr (cfg : List (Nat × Word)) (p lo hi : Nat) : Nat := (cfgReg cfg p lo).toNat + (cfgReg cfg p hi).toNat * 2 ^ 32

/-- The window offsets that are staged (R262, R315). -/
def stagedOffset (o : Nat) : Bool := (0x100 ≤ o && o < 0x400) || (0x41000 ≤ o && o < 0x41400)

/-- The staged copy, keyed by window offset. -/
def State.stagedCopy (s : State) (p : Fin 4) : List (Nat × Word) :=
  s.dev.filterMap (fun e =>
    if pipeBase p ≤ e.1 ∧ e.1 < pipeBase p + 0x100000 ∧ stagedOffset (e.1 - pipeBase p) = true then some (e.1 - pipeBase p, e.2) else none)

/-- The pipe runs. -/
def State.pipeRuns (s : State) (p : Fin 4) : Bool := s.flag (Reg.DP_STAT p) Fld.DP_STAT_RUN

/-- Event k of a pipe (R290): raised while its bit is 1; events 3, 4 and 5 always. -/
def State.pipeEvent (s : State) (p : Fin 4) (k : Nat) : State :=
  s.raiseIf (k == 3 || k == 4 || k == 5 || (s.reg (Reg.DP_EVTEN p)).getLsbD k) (400 + 16 * p.val + k)

/-- A bit of DPn_STAT that event 13 reports when it becomes 1 (R290). -/
def State.statBit (s : State) (p : Fin 4) (f : Fld) : State :=
  if s.flag (Reg.DP_STAT p) f then s else (s.setFld (Reg.DP_STAT p) f 1).pipeEvent p 13

/-- A write is ignored (R264). -/
def State.writeIgnored (s : State) (p : Fin 4) : State := s.statBit p Fld.DP_STAT_AWI

/-- A commit or enable is refused with a cause (R263, R265). -/
def State.commitRefused (s : State) (p : Fin 4) (cause : Nat) : State :=
  (s.setFld (Reg.DP_STAT p) Fld.DP_STAT_CAUSE cause).statBit p Fld.DP_STAT_CREF

/-- Horizontal total, horizontal active, vertical total and vertical active of the active timing. -/
def State.htot (s : State) (p : Fin 4) : Nat := s.actFld p (Reg.DP_HTIM0 p) Fld.DP_HTIM0_HTOT

/-- Active pixels per line. -/
def State.hact (s : State) (p : Fin 4) : Nat := s.actFld p (Reg.DP_HTIM0 p) Fld.DP_HTIM0_HACT

/-- Lines per frame. -/
def State.vtot (s : State) (p : Fin 4) : Nat := s.actFld p (Reg.DP_VTIM0 p) Fld.DP_VTIM0_VTOT

/-- Active lines. -/
def State.vact (s : State) (p : Fin 4) : Nat := s.actFld p (Reg.DP_VTIM0 p) Fld.DP_VTIM0_VACT

/-- The limits of R260. -/
def timingOk (h0 h1 v0 v1 : Word) : Bool :=
  let hact := Fld.DP_HTIM0_HACT.get h0
  let htot := Fld.DP_HTIM0_HTOT.get h0
  let hss := Fld.DP_HTIM1_HSS.get h1
  let hsw := Fld.DP_HTIM1_HSW.get h1
  let vact := Fld.DP_VTIM0_VACT.get v0
  let vtot := Fld.DP_VTIM0_VTOT.get v0
  let vss := Fld.DP_VTIM1_VSS.get v1
  let vsw := Fld.DP_VTIM1_VSW.get v1
  64 ≤ hact && hact ≤ 3840 && hact % 2 == 0 && hact + 64 ≤ htot && htot ≤ 8192 && hact ≤ hss && 1 ≤ hsw && hss + hsw ≤ htot &&
  16 ≤ vact && vact ≤ 2160 && vact + 3 ≤ vtot && vtot ≤ 8192 && vact ≤ vss && 1 ≤ vsw && vss + vsw ≤ vtot &&
  hact * vact ≤ 3840 * 2160 && 320 ≤ htot

/-- The six depths are a permutation of 0–5 (R276). -/
def zorderOk (w : Word) : Bool :=
  (List.range 6).all (fun d => (List.range 6).any (fun q => w.toNat / 8 ^ q % 8 == d))

/-- A tile plane's map size is allowed (R263). -/
def mapOk (w : Word) : Bool :=
  Fld.DP_TCTL_EN.get w == 0 ||
  (4 ≤ Fld.DP_TCTL_MAPWL.get w && Fld.DP_TCTL_MAPWL.get w ≤ 9 && 4 ≤ Fld.DP_TCTL_MAPHL.get w && Fld.DP_TCTL_MAPHL.get w ≤ 9)

/-- The first check of R263 that the staged values fail. -/
def State.commitCheck (s : State) (p : Fin 4) : Option Nat :=
  if !timingOk (s.reg (Reg.DP_HTIM0 p)) (s.reg (Reg.DP_HTIM1 p)) (s.reg (Reg.DP_VTIM0 p)) (s.reg (Reg.DP_VTIM1 p)) then some 1
  else if !zorderOk (s.reg (Reg.DP_ZORDER p)) then some 2
  else if !(List.range 4).all (fun t => mapOk (s.reg (Reg.DP_TCTL p t))) then some 3
  else none

/-- The registers of a region in a copy. -/
def regionRegs (cfg : List (Nat × Word)) (p r : Nat) : List Word :=
  [cfgReg cfg p (Reg.DP_RX p r), cfgReg cfg p (Reg.DP_RY p r), cfgReg cfg p (Reg.DP_RCFG p r), cfgReg cfg p (Reg.DP_REXP p r)]

/-- The staged registers are copied into the active copy (R263, R265): a BUDGET above HTOT − 24 is stored as that (R302), a region
whose registers change starts anew (R313), genlock and the count of written frames start where they are switched on (R266,
R286). -/
def State.copyStaged (s : State) (p : Fin 4) : State :=
  let limit := s.fld (Reg.DP_HTIM0 p) Fld.DP_HTIM0_HTOT - 24
  let s := if limit < s.fld (Reg.DP_LBUD p) Fld.DP_LBUD_BUDGET then s.setFld (Reg.DP_LBUD p) Fld.DP_LBUD_BUDGET limit else s
  let x := s.pipe p
  let new := s.stagedCopy p
  let changed (r : Nat) : Bool := regionRegs x.active p r != regionRegs new p r
  let on (a : Nat) (f : Fld) : Bool := f.get (cfgReg x.active p a) == 0 && f.get (cfgReg new p a) == 1
  let regions := x.regions.mapIdx (fun r g => if changed r then { g with prev := none, matched := true } else g)
  let s := s.setPipe p { x with
    active := new, regions := regions,
    glK := if on (Reg.DP_GLCTL p) Fld.DP_GLCTL_EN then none else x.glK,
    wbCount := if on (Reg.DP_WBCTL p) Fld.DP_WBCTL_EN then 0 else x.wbCount }
  (List.range 16).foldl (fun s r => if changed r then s.setReg (Reg.DP_RREP p r) 0 else s) s

/-- The bank of each table that GO named changes over (R263). -/
def State.swapBanks (s : State) (p : Fin 4) (swap : Nat) : State :=
  let a := Reg.DP_STAT p
  s.setFlds a [(Fld.DP_STAT_PALB, s.fld a Fld.DP_STAT_PALB ^^^ (swap % 2)), (Fld.DP_STAT_SPRB, s.fld a Fld.DP_STAT_SPRB ^^^ (swap / 2 % 2)),
    (Fld.DP_STAT_GAMB, s.fld a Fld.DP_STAT_GAMB ^^^ (swap / 4 % 2))]

/-! ### Genlock -/

/-- The period of genlock in 2⁻³² ns. -/
def State.glPeriod (s : State) (p : Fin 4) : Nat :=
  (s.act p (Reg.DP_GLPERL p)).toNat * 2 ^ 32 + s.actFld p (Reg.DP_GLPERF p) Fld.DP_GLPERF_FRAC * 2 ^ 16

/-- The target T(j) in 2⁻³² ns (R266). -/
def State.glTargetTime (s : State) (p : Fin 4) (j : Nat) : Nat :=
  ((s.act p (Reg.DP_GLPHL p)).toNat + (s.act p (Reg.DP_GLPHH p)).toNat * 2 ^ 32) * 2 ^ 32 + j * s.glPeriod p

/-- The smallest j with T(j) at or after a time. -/
def State.glFirst (s : State) (p : Fin 4) (t : Nat) : Nat :=
  (t - s.glTargetTime p 0 + s.glPeriod p - 1) / s.glPeriod p

/-- The target that a frame end at time `e` aims at (R266): m after the last frame's, or the first at or after the time; targets already
passed are skipped. -/
def State.glChoose (s : State) (p : Fin 4) (e : Nat) : Nat :=
  match (s.pipe p).glK with
  | none => s.glFirst p e
  | some k =>
    let m := if s.flag (Reg.DP_STAT p) Fld.DP_STAT_RRACT then s.actFld p (Reg.DP_RRCTL p) Fld.DP_RRCTL_RRDIV else 1
    max (k + m) ((e - s.glTargetTime p 0) / s.glPeriod p)

/-- Reduced refresh, where it holds, ends, and a new run of unchanged frames is needed (R288). -/
def State.leaveReduced (s : State) (p : Fin 4) : State :=
  if s.flag (Reg.DP_STAT p) Fld.DP_STAT_RRACT then
    ((s.setPipe p { s.pipe p with same := 0 }).setFld (Reg.DP_STAT p) Fld.DP_STAT_RRACT 0).pipeEvent p 11
  else s

/-- A kick (R288, R289): reduced refresh ends at once, and a genlock hold aims at the first target at or after it. -/
def State.kick (s : State) (p : Fin 4) : State :=
  if s.pipeRuns p then
    let x := s.pipe p
    let aim := match x.glJ, x.glK with
      | some _, some k => some (max (k + 1) (s.glFirst p s.psq.time))
      | some _, none => some (s.glFirst p s.psq.time)
      | none, _ => none
    let reduced := s.flag (Reg.DP_STAT p) Fld.DP_STAT_RRACT
    (s.setPipe p { x with kicked := true, glJ := if reduced then aim else x.glJ }).leaveReduced p
  else s

end Sys2Proof.Machine
end

