-- ==== Sys2Proof/Machine/Store.lean ====
section
/-! DEFINITION. The one write of memory that every accepted request ends in. Readings and choices: log 66. -/

namespace Sys2Proof.Machine

/-- A write of bytes that the fabric makes within one line. A telegram entry with V = 1 keeps its bytes and TWI is set (R404); V itself
is set and cleared by commands only (R403). A write into the appliqué store kicks every pipe (R288). -/
def State.memWrite (s : State) (init a : Nat) (data : List Byte) : Bool × State :=
  match s.region a with
  | .telegram =>
    if (Memory.read s.mem (a / 64 * 64 + 3)).getLsbD 7 then (false, s.setFld Reg.SEAM_TSTAT Fld.SEAM_TSTAT_TWI 1)
    else s.memPut init a (data.zipIdx.map (fun p => if (a + p.2) % 64 = 3 then p.1 &&& 0x7F else p.1))
  | .applique =>
    let r := s.memPut init a data
    (r.1, (List.finRange 4).foldl (fun s (p : Fin 4) => s.kick p) r.2)
  | _ => s.memPut init a data

end Sys2Proof.Machine
end

