-- ==== Sys2Proof/Machine/Cache.lean ====
section
/-! DEFINITION. Caches and coherence (R201, R202, R213 to R221, R526): lines of the quads' level-two caches, the tags of the
level-one caches, the snoop filter, erroneous words of cached lines (R231 to R233), write-backs, snoops and coherent reads. Readings
and choices: logs 57, 68. -/

namespace Sys2Proof.Machine

/-- The number of the line that holds an address. -/
def lineOf (a : Nat) : Nat := a / 64

/-- The bytes of a cached line. -/
def CLine.bytes (l : CLine) : List Byte := leBytes 64 l.data.toNat

/-- The line with bytes replaced from offset `o`. -/
def CLine.patch (l : CLine) (o : Nat) (d : List Byte) : CLine :=
  let b := l.bytes
  { l with data := BitVec.ofNat 512 (leNat (b.take o ++ d ++ b.drop (o + d.length))), dirty := true }

/-- The copy of a line in a quad's level-two cache. -/
def State.l2Get (s : State) (q : Fin 4) (ln : Nat) : Option CLine := (s.quad q).l2.find? (fun l => l.line == ln)

/-- A quad's level-two cache holds a line. -/
def State.l2Has (s : State) (q : Fin 4) (ln : Nat) : Bool := (s.l2Get q ln).isSome

/-- The quads. -/
def allQuads : List (Fin 4) := [0, 1, 2, 3]

/-- The cores of a quad. -/
def coresOf (q : Fin 4) : List (Fin 16) := (List.finRange 16).filter (fun k => quadOf k == q)

/-- A line in a quad replaced in place. -/
def State.setLine (s : State) (q : Fin 4) (l : CLine) : State :=
  s.setQuad q { s.quad q with l2 := (s.quad q).l2.map (fun x => if x.line = l.line then l else x) }

/-! ### Use and replacement (R526) -/

/-- A tag list after a use of `t`: `t` first, and the least recently used of its set dropped when the set is full (R526). -/
def useTag (sets ways t : Nat) (l : List Nat) : List Nat :=
  let l := l.filter (fun x => x != t)
  let same := l.filter (fun x => x % sets == t % sets)
  if same.length < ways then t :: l
  else match same.getLast? with
    | some v => t :: l.filter (fun x => x != v)
    | none => t :: l

/-- A level-one cache of core `k` takes a new copy of a line, which carries none of the errors of an earlier copy. -/
def State.freshCopy (s : State) (k : Fin 16) (src ln : Nat) : State :=
  match s.l2Get (quadOf k) ln with
  | some l =>
    if l.errs.any (fun e => e.src == src && e.core == k.val) then
      s.setLine (quadOf k) { l with errs := l.errs.filter (fun e => !(e.src == src && e.core == k.val)) }
    else s
  | none => s

/-- A core's data cache uses a line. -/
def State.useL1d (s : State) (k : Fin 16) (ln : Nat) : State :=
  let s := if (s.core k).l1d.contains ln then s else s.freshCopy k 6 ln
  s.setCore k { s.core k with l1d := useTag 128 4 ln (s.core k).l1d }

/-- A core's instruction cache uses a line. -/
def State.useL1i (s : State) (k : Fin 16) (ln : Nat) : State :=
  let s := if (s.core k).l1i.contains ln then s else s.freshCopy k 5 ln
  s.setCore k { s.core k with l1i := useTag 128 4 ln (s.core k).l1i }

/-- A quad's level-two cache uses a line it holds. -/
def State.useL2 (s : State) (q : Fin 4) (ln : Nat) : State :=
  match s.l2Get q ln with
  | some l => s.setQuad q { s.quad q with l2 := l :: (s.quad q).l2.filter (fun x => x.line != ln) }
  | none => s

/-- A data access of core `k` hits a line that its quad holds: in its data cache, or else in the level-two cache, which is used, too. -/
def State.useData (s : State) (k : Fin 16) (ln : Nat) : State :=
  if (s.core k).l1d.contains ln then s.useL1d k ln else (s.useL2 (quadOf k) ln).useL1d k ln

/-- The bit of a quad in an entry of the snoop filter. -/
def quadBit (q : Fin 4) : BitVec 4 := BitVec.ofNat 4 (2 ^ q.val)

/-- The snoop filter's entry of a line after quad `q` no longer holds it; an entry of no quad is free (R526). -/
def snoopClear (q : Fin 4) (ln : Nat) (l : List (Nat × BitVec 4)) : List (Nat × BitVec 4) :=
  (l.map (fun e => if e.1 = ln then (e.1, e.2 &&& ~~~(quadBit q)) else e)).filter (fun e => e.2 != 0)

/-- A line leaves a quad: its level-one caches first (R213). -/
def State.dropLine (s : State) (q : Fin 4) (ln : Nat) : State :=
  let s := (coresOf q).foldl (fun s k => s.setCore k
    { s.core k with l1i := (s.core k).l1i.filter (fun x => x != ln), l1d := (s.core k).l1d.filter (fun x => x != ln) }) s
  let s := { s with fab := { s.fab with snoop := snoopClear q ln s.fab.snoop } }
  s.setQuad q { s.quad q with l2 := (s.quad q).l2.filter (fun x => x.line != ln) }

/-! ### Erroneous words of cached lines (R231 to R233) -/

/-- A word of a line as its code corrects it: the bits that stay inverted, and no error. -/
def CLine.correct (l : CLine) (e : CErr) : CLine :=
  let wrong : Flips := match eccResult e.flips with
    | .corrected p => e.flips ^^^ BitVec.ofNat 72 (2 ^ p)
    | _ => e.flips
  { l with data := l.data ^^^ ((dataFlips wrong).zeroExtend 512 <<< (64 * e.word)), errs := l.errs.filter (fun x => x != e) }

/-- An erroneous word is uncorrectable. -/
def CErr.fatal (e : CErr) : Bool := eccResult e.flips = .uncorrectable

/-- An error lies in the copy that is written back: in the level-two cache or a data cache, not in an instruction cache. -/
def CErr.inData (e : CErr) : Bool := e.src != 5

/-- The kept copy of a dirty line that has been written back: clean, its uncorrectable words poisoned, the others corrected. -/
def CLine.settled (l : CLine) : CLine :=
  if !l.dirty then l
  else
    let mine := l.errs.filter CErr.inData
    let m := (mine.filter (fun e => !e.fatal)).foldl CLine.correct l
    { m with dirty := false, errs := l.errs.filter (fun e => !e.inData) ++
        ((mine.filter CErr.fatal).map (fun e => (⟨e.word, poison, 7, 0⟩ : CErr))).eraseDups }

/-- An error of a cached word is counted and recorded under its line's address (R234, R237). -/
def State.reportLine (s : State) (ue : Bool) (init : Nat) (l : CLine) (e : CErr) : State :=
  s.reportEcc ue e.src (syndrome e.flips) init (64 * l.line)

/-- The code of a dirty line's words as it is written out (R232, R233): an uncorrectable word is written with the poison code
and sends 0x21 to the Lining service context, a correctable one is corrected. -/
def State.writeCodes (s : State) (init : Nat) (l : CLine) : State :=
  (l.errs.filter CErr.inData).foldl (fun s e =>
    let a := 64 * l.line + 8 * e.word
    match eccResult e.flips with
    | .uncorrectable => (({ s with ecc := Sparse.put (located a) poison s.ecc }).reportLine true init l e).liningService .ecc
    | .corrected _ => s.reportLine false init l e
    | .clean => s) s

/-- An initiator as it issues now: a context's requests carry the Lining bit while it runs in the Lining level (R12). -/
def State.nowWho (s : State) (w : Who) : Who :=
  match w with
  | .ctx c _ => .ctx c (s.ctx c).status.lvl
  | w => w

/-- The request that writes a dirty line back, in the name of the context that wrote it last (log 68), in the given class (R228). -/
def State.backRequest (s : State) (cls : TClass) (l : CLine) : Request :=
  ⟨s.nowWho l.writer, cls, .fullLine l.settled.bytes, 64 * l.line, 64, true⟩

/-- A dirty line is written back (R180, R213): a refused write-back is a machine check to the Lining service context, and its data are
lost. -/
def State.writeBack (s : State) (cls : TClass) (l : CLine) : State :=
  if !l.dirty then s else
  let r := s.backRequest cls l
  match s.firewall r with
  | .refused c n => (s.recordRefusal r c n).liningService .machineCheck
  | .allowed => ((s.memWrite r.who.id (64 * l.line) l.settled.bytes).2).writeCodes r.who.id l

/-- Dirty copies outside quad `q` are written back in class BE (R228) and become clean; with `unique`, every copy outside leaves. -/
def State.snoopOthers (s : State) (q : Option (Fin 4)) (ln : Nat) (unique : Bool) : State :=
  (allQuads.filter (fun p => some p != q)).foldl (fun s p =>
    match s.l2Get p ln with
    | some l =>
      let s := s.writeBack .be l
      if unique then s.dropLine p ln else s.setLine p l.settled
    | none => s) s

/-- An aligned word of a line written whole takes a new code (R233). -/
def CLine.clearErrs (l : CLine) (o n : Nat) : CLine :=
  { l with errs := l.errs.filter (fun e => !(o ≤ 8 * e.word && 8 * e.word + 8 ≤ o + n)) }

/-- The data caches of the other cores of core `k`'s quad lose a line (R213). -/
def State.aloneInQuad (s : State) (k : Fin 16) (ln : Nat) : State :=
  (coresOf (quadOf k)).foldl (fun s j => if j = k || !(s.core j).l1d.contains ln then s else
    s.setCore j { s.core j with l1d := (s.core j).l1d.filter (fun x => x != ln) }) s

/-- A dirty line's words that a write of `n` bytes at offset `o` would read, change in part and write, and that are uncorrectable (R233). -/
def CLine.unwritable (l : CLine) (o n : Nat) : List CErr :=
  l.errs.filter (fun e => l.dirty && e.inData && e.fatal && 8 * e.word < o + n && o < 8 * e.word + 8 &&
    !(o ≤ 8 * e.word && 8 * e.word + 8 ≤ o + n))

/-- A write hits a line that the quad of core `k` holds: every other quad's copy leaves, other cores' data caches lose the line
(R213), and the bytes are written, but for a word of fewer than 8 of them that is uncorrectable in a dirty line (R233). -/
def State.writeLine (s : State) (who : Who) (k : Fin 16) (a : Nat) (d : List Byte) : State :=
  let q := quadOf k
  let ln := lineOf a
  let s := (s.snoopOthers (some q) ln true).aloneInQuad k ln
  match s.l2Get q ln with
  | some l =>
    match l.unwritable (a % 64) d.length with
    | [] => (s.setLine q { (l.patch (a % 64) d).clearErrs (a % 64) d.length with writer := who }).useData k ln
    | bad =>
      let kept := (d.zipIdx.map (fun p =>
        if bad.any (fun e => e.word == (a % 64 + p.2) / 8) then l.bytes.getD (a % 64 + p.2) 0 else p.1))
      let s := bad.foldl (fun s e => s.reportLine true who.id l e) s
      ((s.setLine q { (l.patch (a % 64) kept).clearErrs (a % 64) d.length with writer := who }).useData k ln).liningService .ecc
  | none => s

/-! ### Reads -/

/-- The bytes that an access of a quad's own context finds in the line that its quad holds (R213). -/
def State.quadBytes (s : State) (q : Fin 4) (a n : Nat) : List Byte :=
  match s.l2Get q (lineOf a) with
  | some l => (l.bytes.drop (a % 64)).take n
  | none => s.bytes a n

/-- The bytes that a coherent read returns: a cached copy's where a quad holds the line, else memory's (R213). -/
def State.cohBytes (s : State) (a n : Nat) : List Byte :=
  match allQuads.findSome? (fun q => s.l2Get q (lineOf a)) with
  | some l => (l.bytes.drop (a % 64)).take n
  | none => s.bytes a n

/-- The erroneous words of a line that an access of `n` bytes at `pa` touches. -/
def CLine.touched (l : CLine) (pa n : Nat) : List CErr :=
  l.errs.filter (fun e => 64 * l.line + 8 * e.word < pa + n && pa < 64 * l.line + 8 * e.word + 8)

/-- What a read of a held line finds (R232, R233): good words, a clean line that was removed to be fetched again, or an
uncorrectable word of a dirty line. -/
inductive LineRead where
  | good | again | bad
  deriving DecidableEq, Repr

/-- A read meets the erroneous words `es` of a line of quad `q`. -/
def State.meet (s : State) (init : Nat) (q : Fin 4) (l : CLine) (es : List CErr) : LineRead × State :=
  match es.find? CErr.fatal with
  | none => (.good, es.foldl (fun s e => match s.l2Get q l.line with
      | some x => if eccResult e.flips = .clean then s.setLine q (x.correct e) else (s.setLine q (x.correct e)).reportLine false init l e
      | none => s) s)
  | some e =>
    if l.dirty then (.bad, s.reportLine true init l e) else (.again, (s.reportLine false init l e).dropLine q l.line)

/-- The quad whose copy answers a coherent read: one that holds the line dirty, else the first that holds it. -/
def State.holder (s : State) (ln : Nat) : Option (Fin 4) :=
  match allQuads.find? (fun q => (s.l2Get q ln).any (fun l => l.dirty)) with
  | some q => some q
  | none => allQuads.find? (fun q => s.l2Has q ln)

/-- A coherent read from outside a quad of bytes that a quad holds (R213): a dirty copy is written back first (R233), and a clean copy
with an uncorrectable word is removed. No bytes: memory must be read. -/
def State.snoopRead (s : State) (init a n : Nat) : Option (List Byte) × State :=
  match s.holder (lineOf a) with
  | none => (none, s)
  | some q => match s.l2Get q (lineOf a) with
    | none => (none, s)
    | some l =>
      if l.dirty then
        let s := s.snoopOthers none (lineOf a) false
        if (l.touched a n).any CErr.fatal then (none, s) else (some ((l.settled.bytes.drop (a % 64)).take n), s)
      else
        match s.meet init q l ((l.touched a n).filter (fun e => e.src == 7)) with
        | (.good, s) => (some (s.cohBytes a n), s)
        | (_, s) => (none, s)

/-- The bytes that a read of `n` bytes within one line returns, checked by the code (R213, R231): none where a word is uncorrectable. -/
def State.memRead (s : State) (init : Nat) (coh : Bool) (a n : Nat) : Option (List Byte) × State :=
  match (if coh then s.snoopRead init a n else (none, s)) with
  | (some b, s) => (some b, s)
  | (none, s) =>
    let e := s.checkBytes init a n
    if e.1 then (none, e.2) else (some (e.2.bytes a n), e.2)

end Sys2Proof.Machine
end

