-- ==== Sys2Proof/Machine/Mem.lean ====
section
/-! DEFINITION. The MEM block (R229, R235 to R237, R489): slot reservations, scrubbers, machine checks and the training of the DDR
channels. Readings and choices: log 61. -/

namespace Sys2Proof.Machine

/-- The state with one DDR channel changed. -/
def State.setDdr (s : State) (n : Fin 4) (x : Ddr) : State := { s with ddr := s.ddr.set n.val x }

/-- A write to MEM_RSVn (R229): staged until the channel's next frame start, or refused whole. -/
def State.rsvLand (s : State) (n : Fin 4) (data : Word) : State :=
  let a := Reg.MEM_RSV n
  if s.locked a then s
  else if 48 < Fld.MEM_RSV_RT0.get data + Fld.MEM_RSV_RT1.get data then s.setFld Reg.MEM_STAT Fld.MEM_STAT_RREF 1
  else match RegMap.find a with
    | some d => s.setDdr n { s.ddr[n.val] with stagedRsv := some (d.written false data 0 0) }
    | none => s

/-- RSV_WRITE (R229). -/
def execRsvWrite (_who : Who) (n : Fin 4) (data : Word) (s : State) : Out := .next (s.rsvLand n data)

/-- A write of MEM_RSVn that is staged takes effect as a frame of its channel starts (R229). -/
def State.frameStarts (s : State) (n : Fin 4) : State :=
  match s.ddr[n.val].stagedRsv with
  | some w => (s.setReg (Reg.MEM_RSV n) w).setDdr n { s.ddr[n.val] with stagedRsv := none }
  | none => s

/-- A channel comes to a slot of its frame; a slot not after the last one lies in a new frame (R229). -/
def State.atSlot (s : State) (n : Fin 4) (slot : Fin 64) : State :=
  let s := if slot.val ≤ s.ddr[n.val].slot then s.frameStarts n else s
  s.setDdr n { s.ddr[n.val] with slot := slot }

/-- RSV_APPLY (R229): the channel's next frame starts with the staged reservation. -/
def execRsvApply (n : Fin 4) (s : State) : Out :=
  .next (if s.ddr[n.val].stagedRsv.isSome then (s.frameStarts n).setDdr n { (s.frameStarts n).ddr[n.val] with slot := 0 } else s)

/-- The physical address of a channel address (R224, R225). -/
def channelAddr (n c : Nat) : Nat :=
  let a := 0x1000000000 + c / 256 * 1024 + c % 256
  a + 256 * (n ^^^ (a / 2 ^ 16 % 4) ^^^ (a / 2 ^ 24 % 4) ^^^ (a / 2 ^ 32 % 4))

/-- A scrub read of a line (R235): corrected, or left as it is and reported to the Lining service context (R233). -/
def State.scrubLine (s : State) (a : Nat) : State :=
  let r := s.checkBytes 0xFF a 64
  if r.1 then r.2.liningService .ecc else r.2

/-- DDR_SCRUB_READ (R235, R236): none in self-refresh (R481). -/
def execDdrScrubRead (n : Fin 4) (upsets : Upsets) (s : State) : Out :=
  let lines := s.dramSize / 256
  if s.flag Reg.MEM_SCRUB Fld.MEM_SCRUB_DEN ∧ s.fld Reg.MEM_STAT Fld.MEM_STAT_CHRDY / 2 ^ n.val % 2 = 1 ∧ 0 < lines ∧ s.sys.standby < 3 then
    let i := s.ddr[n.val].scrub % lines
    let s := (s.strike upsets).scrubLine (channelAddr n (64 * i))
    if i + 1 < lines then .next (s.setDdr n { s.ddr[n.val] with scrub := i + 1 })
    else .next ((s.setDdr n { s.ddr[n.val] with scrub := 0 }).raise (1219 + n.val))
  else .next s

/-- FM_SCRUB_READ (R235, R236): none while banks are retained or off (R481). -/
def execFmScrubRead (upsets : Upsets) (s : State) : Out :=
  if s.flag Reg.MEM_SCRUB Fld.MEM_SCRUB_FEN ∧ s.sys.standby < 4 then
    let i := s.fmScrub % 524288
    let s := (s.strike upsets).scrubLine (0x1000000 + 64 * i)
    if i + 1 < 524288 then .next { s with fmScrub := i + 1 }
    else .next (({ s with fmScrub := 0 }).raise 1223)
  else .next s

/-- A machine check of a channel (R236): recorded where none is, and sent to the Lining service context. -/
def State.machineCheck (s : State) (n : Fin 4) (kind : Nat) : State :=
  let a := Reg.MEM_MCSTAT n
  let s := if s.flag a Fld.MEM_MCSTAT_VALID then s
    else (s.setFlds a [(Fld.MEM_MCSTAT_VALID, 1), (Fld.MEM_MCSTAT_KIND, kind)]).raise (1224 + n.val)
  s.liningService .machineCheck

/-- DDR_MACHINE_CHECK (R236): `kind` 0–2 stands for the KIND codes 1–3. -/
def execDdrMachineCheck (n : Fin 4) (kind : Fin 3) (s : State) : Out := .next (s.machineCheck n (kind.val + 1))

/-- The channels. -/
def allChannels : List (Fin 4) := [0, 1, 2, 3]

/-- A write to MEM_CTRL (R489): the first nonzero DRAMSZ after reset starts the training of every channel. -/
def State.memCtrlLand (s : State) (data hw : Word) : State :=
  let untrained := allChannels.all (fun n => !s.ddr[n.val].training && !s.ddr[n.val].failed) &&
    s.fld Reg.MEM_STAT Fld.MEM_STAT_CHRDY == 0
  let s := s.plainWrite Reg.MEM_CTRL data hw
  if untrained && s.fld Reg.MEM_CTRL Fld.MEM_CTRL_DRAMSZ ≠ 0 then
    allChannels.foldl (fun s n => s.setDdr n { s.ddr[n.val] with training := true }) s
  else s

/-- DRAMSZ_WRITE (R489). -/
def execDramszWrite (_who : Who) (data : Word) (s : State) : Out := .next (s.memCtrlLand data 0)

/-- The requests that wait at a fabric target. -/
def Arb.all (a : Arb) : List Request := a.rt0 ++ a.rt1 ++ a.be ++ a.bk

/-- A write lands in the MEM block. -/
def State.landMem (s : State) (_who : Who) (a : Nat) (data hw : Word) : State :=
  if a = Reg.MEM_CTRL then s.memCtrlLand data hw
  else if 0x10300010 ≤ a ∧ a < 0x10300020 then s.rsvLand (Fin.ofNat 4 ((a - 0x10300010) / 4)) data
  else s.plainWrite a data hw

end Sys2Proof.Machine
end

