-- ==== Sys2Proof/Machine/Targets.lean ====
section
/-! DEFINITION. The memory targets of the fabric: their queues, the order of service (R222, R229), and what a request does at its
target (R11, R13, R160, R161). Readings and choices: logs 28, 72. -/

namespace Sys2Proof.Machine

/-! ### Queues -/

/-- The target number of a memory address: banks 0–31, the stores 32–36, the DDR channels 40–43. -/
def State.targetOf (s : State) (a : Nat) : Option Nat :=
  match s.region a with
  | .rom => some 32
  | .bank b => some b
  | .liningStore => some 33
  | .applique => some 34
  | .seamMem => some 35
  | .telegram => some 36
  | .dram => some (40 + dramChannel a)
  | _ => none

/-- An idle target. -/
def Arb.reset : Arb := ⟨[], [], [], [], 0, 0⟩

/-- The queues of a target. -/
def State.arb (s : State) (t : Nat) : Arb := (Sparse.get t s.fab.targets).getD Arb.reset

/-- The queues of a target changed. -/
def State.setArb (s : State) (t : Nat) (a : Arb) : State :=
  { s with fab := { s.fab with targets := if a = Arb.reset then Sparse.erase t s.fab.targets else Sparse.put t a s.fab.targets } }

/-- A queue of a bank or of a store has room (R222, R524); the spec bounds no queue of a DDR channel. -/
def Arb.room (a : Arb) (t : Nat) (c : TClass) : Bool :=
  40 ≤ t || (match c with
    | .rt0 => a.rt0.length < 4
    | .rt1 => a.rt1.length < 4
    | .be => a.be.length < 16
    | .bk => a.bk.length < 16)

/-- A request joins the queue of its class. -/
def Arb.push (a : Arb) (r : Request) : Arb :=
  match r.cls with
  | .rt0 => { a with rt0 := a.rt0 ++ [r] }
  | .rt1 => { a with rt1 := a.rt1 ++ [r] }
  | .be => { a with be := a.be ++ [r] }
  | .bk => { a with bk := a.bk ++ [r] }

/-- The queue of a class. -/
def Arb.queue (a : Arb) : TClass → List Request
  | .rt0 => a.rt0
  | .rt1 => a.rt1
  | .be => a.be
  | .bk => a.bk

/-- A class has a request waiting. -/
def Arb.has (a : Arb) (c : TClass) : Bool := !(a.queue c).isEmpty

/-- The queues without the head of one. -/
def Arb.drop (a : Arb) : TClass → Arb
  | .rt0 => { a with rt0 := a.rt0.drop 1 }
  | .rt1 => { a with rt1 := a.rt1.drop 1 }
  | .be => { a with be := a.be.drop 1 }
  | .bk => { a with bk := a.bk.drop 1 }

/-- The first class that has a request, in the order RT0, RT1, BE, BK. -/
def Arb.first (a : Arb) : Option TClass := [TClass.rt0, .rt1, .be, .bk].find? (fun c => a.has c)

/-- The class that a bank serves next, with the two exceptions of R222. -/
def Arb.bankChoice (a : Arb) : Option TClass :=
  if a.has .rt1 && 4 ≤ a.rt1Wait then some .rt1
  else if a.has .bk && 7 ≤ a.bkWait then some .bk
  else a.first

/-- The queues after a grant to a class at a bank (R222). -/
def Arb.bankGrant (a : Arb) (c : TClass) : Arb :=
  let b := a.drop c
  { b with
    rt1Wait := match c with
      | .rt1 => 0
      | .rt0 => if a.has .rt1 then a.rt1Wait + 1 else 0
      | _ => a.rt1Wait
    bkWait := match c with
      | .bk => 0
      | _ => if a.has .bk then a.bkWait + 1 else 0 }

/-- The first slot at or after `k`, wrapping within 4–63, that is not taken (R229). -/
def freeSlot (taken : List Nat) : Nat → Nat → Nat
  | 0, k => k
  | n + 1, k => if taken.contains k then freeSlot taken n (if k = 63 then 4 else k + 1) else k

/-- The RT0 slots of a frame (R229). -/
def rt0Slots (n0 : Nat) : List Nat := (List.range n0).map (fun i => 4 + 60 * i / n0)

/-- The RT0 and RT1 slots of a frame (R229). -/
def rtSlots (n0 n1 : Nat) : List Nat × List Nat :=
  let z := rt0Slots n0
  (z, (List.range n1).foldl (fun l j => l ++ [freeSlot (z ++ l) 64 (4 + 60 * j / n1)]) [])

/-- The number of unreserved slots before `slot` in a frame of a channel (R229). -/
def unreservedBefore (sl : List Nat × List Nat) (slot : Nat) : Nat :=
  ((List.range slot).filter (fun k => 4 ≤ k && !sl.1.contains k && !sl.2.contains k)).length

/-- The class that a DDR channel serves in a slot (R229): the first BKMIN unreserved slots of the frame go to BK while it waits. -/
def State.ddrChoice (s : State) (n : Fin 4) (a : Arb) (slot : Nat) : Option TClass :=
  let r := Reg.MEM_RSV n
  let sl := rtSlots (s.fld r Fld.MEM_RSV_RT0) (s.fld r Fld.MEM_RSV_RT1)
  if slot < 4 then none
  else if sl.1.contains slot && a.has .rt0 then some .rt0
  else if sl.2.contains slot && a.has .rt1 then some .rt1
  else if sl.1.contains slot || sl.2.contains slot then a.first
  else if a.has .bk && unreservedBefore sl slot < s.fld r Fld.MEM_RSV_BKMIN then some .bk
  else if a.has .be then some .be
  else if a.has .bk then some .bk
  else a.first

/-! ### Service -/

/-- A coherent write removes every cached copy of its line before it is performed (R213). -/
def State.uncached (s : State) (coh : Bool) (a : Nat) : State := if coh then s.snoopOthers none (lineOf a) true else s

/-- What an atomic operation stores (R160), over `w` bits. -/
def AmOp.apply (op : AmOp) (w : Nat) (old b : Nat) : Nat :=
  let m := 2 ^ w
  match op with
  | .swap => b
  | .add => (old + b) % m
  | .sub => (old + m - b) % m
  | .and => old &&& b
  | .or => old ||| b
  | .xor => old ^^^ b
  | .mins => if signed w old ≤ signed w b then old else b
  | .maxs => if signed w b ≤ signed w old then old else b
  | .minu => min old b
  | .maxu => max old b
  | .incw => if b ≤ old then 0 else old + 1
  | .cas e => if old = e.toNat % m then b else old

/-- The bytes that an atomic operation of `n` bytes stores over the old value; a compare that fails stores nothing (R160). -/
def AmOp.store (op : AmOp) (n old b : Nat) : Option (List Byte) :=
  let put := some (leBytes n (op.apply (8 * n) old (b % 2 ^ (8 * n))))
  match op with
  | .cas e => if old = e.toNat % 2 ^ (8 * n) then put else none
  | _ => put

/-- An uncorrectable word answers a request: an engine's goes to the Lining service context, too (R233). -/
def State.respondBad (s : State) (who : Who) : State :=
  let s := s.respond who .uncorrectable
  match who with
  | .ctx _ _ => s
  | _ => s.liningService .ecc

/-- An allowed memory request is performed at its target and answered (R13, R161, R233). -/
def State.perform (s : State) (r : Request) : State :=
  match r.kind with
  | .read =>
    match s.memRead r.who.id r.coh r.addr r.len with
    | (some b, s) => s.respond r.who (.data b)
    | (none, s) => s.respondBad r.who
  | .write d => (((s.uncached r.coh r.addr).memWrite r.who.id r.addr d).2).respond r.who .done
  | .fullLine d => (((s.uncached r.coh r.addr).memWrite r.who.id r.addr d).2).respond r.who .done
  | .atomic op b =>
    match (s.uncached r.coh r.addr).memRead r.who.id false r.addr r.len with
    | (none, s) => s.respondBad r.who
    | (some v, s) =>
      let s := match op.store r.len (leNat v) b.toNat with
        | some d => (s.memWrite r.who.id r.addr d).2
        | none => s
      s.respond r.who (.data v)

/-- A target serves the head of the queue that a choice names. -/
def State.serveTarget (s : State) (t : Nat) (choose : Arb → Option TClass) (grant : Arb → TClass → Arb) : State :=
  let a := s.arb t
  match choose a with
  | some c =>
    match a.queue c with
    | r :: _ => (s.setArb t (grant a c)).perform r
    | [] => s
  | none => s

/-- A target finishes every request that it has accepted (R481, R490). -/
def State.drainTarget (s : State) (t : Nat) : State := ((s.arb t).all).foldl (fun s r => s.perform r) (s.setArb t Arb.reset)

/-- Every request accepted at a DDR channel is finished. -/
def State.drainDdr (s : State) : State := [40, 41, 42, 43].foldl (fun s t => s.drainTarget t) s

/-- A memory target clears its memory after a reset and holds its requests (R295, R420). -/
def State.targetClearing (s : State) (t : Nat) : Bool :=
  (t == 34 && s.fab.clearing.contains .fab) || ((t == 35 || t == 36) && s.fab.clearing.contains .seam)

/-- In standby a request to a suspended block, to a fabric-memory bank or to DRAM is held at its port (R484). -/
def State.portHeld (s : State) (a : Nat) : Bool :=
  s.sys.standby != 0 && (match s.region a with
    | .devReg => blockIndex a == 1 || (5 ≤ blockIndex a && blockIndex a ≤ 12)
    | .bank _ => true
    | .dram => true
    | .seamMem => true
    | .telegram => true
    | _ => false)

/-- A request to memory waits: in standby, for the training of its channel (R489), or for the clearing of its store (R295, R420). -/
def State.memHeld (s : State) (a : Nat) : Bool :=
  s.portHeld a || s.dramHeld a || (match s.targetOf a with
    | some t => s.targetClearing t
    | none => false)

/-- The requests held at their ports whose queues have room now join them, in order (R222, R484). -/
def State.admitPort (s : State) : State :=
  let p := s.fab.port.foldl (fun (p : List Request × State) r =>
    match p.2.targetOf r.addr with
    | some t =>
      let a := p.2.arb t
      if p.2.portHeld r.addr || !a.room t r.cls then (p.1 ++ [r], p.2) else (p.1, p.2.setArb t (a.push r))
    | none => (p.1, p.2)) ([], s)
  { p.2 with fab := { p.2.fab with port := p.1 } }

/-- An allowed request to memory joins the queue of its class at its target; a full queue or standby holds it at its port (R222, R484). -/
def State.toMemory (s : State) (t : Nat) (r : Request) : State :=
  let a := s.arb t
  if s.portHeld r.addr || !a.room t r.cls then { s with fab := { s.fab with port := s.fab.port ++ [r] } }
  else s.setArb t (a.push r)

/-! ### A request served at once, in its turn -/

/-- A target with requests waiting, of which `m` of the class of the request `r` stand before it, serves what R222 or R229 puts before `r`,
and then grants `r`, which its initiator performs. -/
def State.serveAhead (t : Nat) (r : Request) : Nat → Nat → State → State
  | 0, _, s => s
  | k + 1, m, s =>
    let a := s.arb t
    let ch : Fin 4 := Fin.ofNat 4 (t - 40)
    let slot : Fin 64 := Fin.ofNat 64 (s.ddr[ch.val].slot + 1)
    let s := if t < 40 then s else s.atSlot ch slot
    match (if t < 40 then a.bankChoice else s.ddrChoice ch a slot) with
    | none => State.serveAhead t r k m s
    | some c =>
      let s := s.setArb t (if t < 40 then a.bankGrant c else a.drop c)
      if c = r.cls then
        if m = 0 then s
        else match a.queue c with
          | q :: _ => State.serveAhead t r k (m - 1) (s.perform q)
          | [] => s
      else match a.queue c with
        | q :: _ => State.serveAhead t r k m (s.perform q)
        | [] => s

/-- The requests that wait at a target or at a port for it. -/
def State.waitingAt (s : State) (t : Nat) : Nat :=
  (s.arb t).all.length + (s.fab.port.filter (fun r => s.targetOf r.addr = some t)).length

/-- How many requests the queue of a class at a target holds (R222, R524). -/
def queueDepth (t : Nat) (c : TClass) : Option Nat :=
  if 40 ≤ t then none else match c with
    | .rt0 => some 4
    | .rt1 => some 4
    | .be => some 16
    | .bk => some 16

/-- What stands in the queues of a target beyond their depths goes back to wait at its initiators' ports (R222). -/
def State.spill (s : State) (t : Nat) : State :=
  let a := s.arb t
  let beyond (c : TClass) : List Request := match queueDepth t c with
    | some n => (a.queue c).drop n
    | none => []
  let kept (c : TClass) : List Request := match queueDepth t c with
    | some n => (a.queue c).take n
    | none => a.queue c
  match beyond .rt0 ++ beyond .rt1 ++ beyond .be ++ beyond .bk with
  | [] => s
  | l =>
    let s := s.setArb t { a with rt0 := kept .rt0, rt1 := kept .rt1, be := kept .be, bk := kept .bk }
    { s with fab := { s.fab with port := s.fab.port ++ l } }

/-- A request is accepted at its target and served in its turn (R222, R229): the requests that the order of service puts before it are
served first, those held at a port for the same target among them (log 72). At an idle target nothing comes before it. -/
def State.turn (s : State) (r : Request) : State :=
  match s.targetOf r.addr with
  | none => s
  | some t =>
    let n := s.waitingAt t
    if n = 0 then s
    else
      let mine := s.fab.port.filter (fun q => s.targetOf q.addr = some t)
      let s := { s with fab := { s.fab with port := s.fab.port.filter (fun q => s.targetOf q.addr ≠ some t) } }
      let a := mine.foldl Arb.push (s.arb t)
      ((s.setArb t (a.push r)).serveAhead t r (2 * n + 16) (a.queue r.cls).length).spill t

/-- The write-back of a dirty line takes its turn at its target (R222, R229), where the firewall allows it. -/
def State.turnOut (s : State) (cls : TClass) (q : Fin 4) (ln : Nat) : State :=
  match s.l2Get q ln with
  | some l => if l.dirty && s.firewall (s.backRequest cls l) = .allowed then s.turn (s.backRequest cls l) else s
  | none => s

/-- The write-backs that a snoop of a line finds to do outside quad `q`, in class BE (R228), take their turns. -/
def State.turnDirty (s : State) (q : Option (Fin 4)) (ln : Nat) : State :=
  (allQuads.filter (fun p => some p != q)).foldl (fun s p => s.turnOut .be p ln) s

/-- A snoop of a line from outside quad `q` (R213): dirty copies are written back in their turn, and with `unique` every copy leaves. -/
def State.snoop (s : State) (q : Option (Fin 4)) (ln : Nat) (unique : Bool) : State := (s.turnDirty q ln).snoopOthers q ln unique

/-- Before a request is performed that its initiator makes at once: what it snoops is written back, and it takes its turn. -/
def State.comes (s : State) (r : Request) : State := (if r.coh then s.turnDirty none (lineOf r.addr) else s).turn r

end Sys2Proof.Machine
end

