-- ==== Sys2Proof/Machine/Fabric.lean ====
section
/-! DEFINITION. Requests that their initiators make and wait for: line fills (R213, R216, R233) and the memory accesses of engines
(R11, R14, R19, R21, R221). Readings and choices: logs 19, 57, 72. -/

namespace Sys2Proof.Machine

/-! ### Line fills -/

/-- A line is written back, in the class of the fill that evicts it (R228), and leaves a quad. -/
def State.evict (s : State) (cls : TClass) (q : Fin 4) (ln : Nat) : State :=
  let s := s.turnOut cls q ln
  match s.l2Get q ln with
  | some l => (s.writeBack cls l).dropLine q ln
  | none => s

/-- The snoop filter records that quad `q` fills a line; a line it evicts for it leaves every quad first (R213, R526). -/
def State.useSnoop (s : State) (cls : TClass) (q : Fin 4) (ln : Nat) : State :=
  let quads := ((s.fab.snoop.find? (fun e => e.1 == ln)).map (fun e => e.2)).getD 0 ||| quadBit q
  let put (s : State) : State :=
    { s with fab := { s.fab with snoop := (ln, quads) :: s.fab.snoop.filter (fun e => e.1 != ln) } }
  let same := s.fab.snoop.filter (fun e => e.1 % 16384 == ln % 16384 && e.1 != ln)
  if same.length < 16 then put s
  else match same.getLast? with
    | some v => put (allQuads.foldl (fun s p => s.evict cls p v.1) s)
    | none => put s

/-- A line is installed in a quad's level-two cache, the least recently used of a full set leaving first (R526). -/
def State.install (s : State) (cls : TClass) (q : Fin 4) (l : CLine) : State :=
  let s := s.dropLine q l.line
  let same := (s.quad q).l2.filter (fun x => x.line % 2048 == l.line % 2048)
  let s := if same.length < 16 then s else match same.getLast? with
    | some v => s.evict cls q v.line
    | none => s
  let s := s.useSnoop cls q l.line
  s.setQuad q { s.quad q with l2 := l :: (s.quad q).l2 }

/-- The error patterns of the eight words of a line in memory. -/
def State.lineErrs (s : State) (ln : Nat) : List (Nat × Flips) :=
  (List.range 8).filterMap (fun i => (Sparse.get (located (64 * ln + 8 * i)) s.ecc).map (fun f => (i, f)))

/-- A line is filled into a context's quad in class `cls`, in its turn at its target (R213, R216, R222, R228). With `unique` every other copy leaves. An
uncorrectable word of a store miss is installed poisoned while 0x21 goes to the Lining service context; otherwise an uncorrectable word
installs nothing, and the answer is true (R233). -/
def State.fillLine (s : State) (who : Who) (cls : TClass) (q : Fin 4) (ln : Nat) (unique store : Bool) : Bool × State :=
  let s := ((s.turnDirty (some q) ln).turn ⟨who, cls, .read, 64 * ln, 64, true⟩).snoopOthers (some q) ln unique
  let r := s.checkBytes who.id (64 * ln) 64
  let s := r.2
  if r.1 && !store then (true, s)
  else
    let s := if r.1 then s.liningService .ecc else s
    let errs := (s.lineErrs ln).map (fun p => (⟨p.1, poison, 7, 0⟩ : CErr))
    (false, s.install cls q ⟨ln, BitVec.ofNat 512 (leNat (s.bytes (64 * ln) 64)), false, errs, who⟩)

/-! ### Accesses of engines -/

/-- What an engine's read finds: bytes, a refusal, an uncorrectable word, or that its request is held (R484, R489, R295, R420). -/
inductive EngRead where
  | bytes (b : List Byte)
  | refused (cause addr : Nat)
  | uncorrectable (addr : Nat)
  | held
  deriving DecidableEq, Repr

/-- What an engine's write finds; a write in part of an uncorrectable word is not performed (R233). -/
inductive EngWrite where
  | done
  | refused (cause addr : Nat)
  | uncorrectable (addr : Nat)
  | held
  deriving DecidableEq, Repr

/-- The outcome of a write made after another: an uncorrectable word stops none that follows, and the first one is told. -/
def EngWrite.and (p q : EngWrite) : EngWrite :=
  match p, q with
  | .uncorrectable a, .done => .uncorrectable a
  | _, e => e

/-- The engine goes on to its next write. -/
def EngWrite.goesOn : EngWrite → Bool
  | .done => true
  | .uncorrectable _ => true
  | _ => false

/-- A register access of an engine goes its way on the register ring (R18; log 19). -/
def State.onRing (s : State) (who : Who) (a : Nat) (data : Option Word) : State :=
  { s with fab := { s.fab with ring := s.fab.ring ++ [(who, a, data)] } }

/-- An initiator has an access to a register on its way, or held by its block (R18, R39). -/
def State.onItsWay (s : State) (who : Who) : Bool :=
  s.fab.ring.any (fun q => q.1 = who) || s.fab.held.any (fun h => h.2.1 = who)

/-- Writes of an initiator have been accepted and have not landed (R220): on the ring, held by a block, or in a target's queue or at its port. -/
def State.writesOnWay (s : State) (who : Who) : Bool :=
  s.fab.ring.any (fun q => q.1 = who && q.2.2.isSome) || s.fab.held.any (fun h => h.2.1 = who && h.2.2.2.isSome) ||
  s.fab.port.any (fun r => r.who = who && r.kind.isWrite) || s.fab.targets.any (fun t => t.2.all.any (fun r => r.who = who && r.kind.isWrite))

/-- An initiator of the device's engines (R14): a shuttle, the presser, a pipe, the spool or the seam engine. -/
def Who.isEngine : Who → Bool
  | .shuttle _ => true
  | .presser => true
  | .pipe _ => true
  | .spool => true
  | .seam => true
  | _ => false

/-- What an engine's read of a register has come to: nothing asked, asked, or answered (R18). -/
def State.gotten (s : State) (who : Who) (a : Nat) : Option (Option Resp) :=
  (s.fab.got.find? (fun g => g.1 == who.id && g.2.1 == a)).map (fun g => g.2.2)

/-- An engine asks for a register. -/
def State.askRegister (s : State) (who : Who) (a : Nat) : State :=
  let s := s.onRing who a none
  { s with fab := { s.fab with got := s.fab.got ++ [(who.id, a, none)] } }

/-- An engine has used the registers that it has read. -/
def State.useGot (s : State) (who : Who) : State :=
  if s.fab.got.any (fun g => g.1 == who.id) then { s with fab := { s.fab with got := s.fab.got.filter (fun g => g.1 != who.id) } } else s

/-- An engine has used one register that it has read. -/
def State.useWord (s : State) (who : Who) (a : Nat) : State :=
  { s with fab := { s.fab with got := s.fab.got.filter (fun g => g.1 != who.id || g.2.1 != a) } }

/-- Answers that are to come to an engine find nobody, and nothing of it is held at its port (R328, R345). -/
def State.letGo (s : State) (who : Who) : State := (s.useGot who).forget who.id

/-- An engine's read of `n` bytes within one line, checked by the firewall (R19) and by the code (R233), in the engine's class (R14) and in
its turn (R222); a coherent one takes the latest cached value (R213, R221). A register's word comes over the ring (R18). -/
def State.engineRead (s : State) (who : Who) (coh : Bool) (a n : Nat) : EngRead × State :=
  let r : Request := ⟨who, s.classOf who, .read, a, n, coh⟩
  match s.gotten who a with
  | some (some (.data b)) => (.bytes b, s)
  | some (some _) => (.uncorrectable a, s)
  | some none => (.held, s)
  | none =>
    match s.verdict r with
    | .refused c g => (.refused c a, (s.dropAccepted r).recordRefusal r c g)
    | .allowed =>
      if s.region a = .devReg then (.held, (s.dropAccepted r).askRegister who a)
      else if s.memHeld a then (.held, s.keepAccepted r)
      else match ((s.dropAccepted r).comes r).memRead who.id coh a n with
        | (some b, s) => (.bytes b, s)
        | (none, s) => (.uncorrectable a, s.liningService .ecc)

/-- An engine's write within one line, checked by the firewall; a coherent one removes every cached copy first (R213). -/
def State.engineWrite (s : State) (who : Who) (coh : Bool) (a : Nat) (d : List Byte) : EngWrite × State :=
  let r : Request := ⟨who, s.classOf who, .write d, a, d.length, coh⟩
  match s.verdict r with
  | .refused c g => (.refused c a, (s.dropAccepted r).recordRefusal r c g)
  | .allowed =>
    if s.region a = .devReg then (.done, (s.dropAccepted r).onRing who a (some (BitVec.ofNat 32 (leNat d))))
    else if s.memHeld a then (.held, s.keepAccepted r)
    else
      let w := (((s.dropAccepted r).comes r).uncached coh a).memWrite who.id a d
      (if w.1 then .uncorrectable a else .done, w.2)

/-- The pieces of `a … a + n − 1` that lie within one 64-byte line each (R11). -/
def lineSplit : Nat → Nat → Nat → List (Nat × Nat)
  | 0, _, _ => []
  | fuel + 1, a, n => if n = 0 then [] else
    let m := min n (64 - a % 64)
    (a, m) :: lineSplit fuel (a + m) (n - m)

/-- Some request of a list is held: the engine waits before it makes the first. -/
def State.anyHeld (s : State) (l : List (Nat × Nat)) : Bool := l.any (fun w => s.memHeld w.1)

/-- An engine's read over several lines, stopping at the first refusal or error. -/
def State.engineReads (s : State) (who : Who) (coh : Bool) (a n : Nat) : EngRead × State :=
  let l := lineSplit (n / 64 + 2) a n
  if s.anyHeld l then (.held, s.acceptAll (l.map (fun w => ⟨who, s.classOf who, .read, w.1, w.2, coh⟩)))
  else l.foldl (fun p w => match p.1 with
    | .bytes b => let r := p.2.engineRead who coh w.1 w.2
                  (match r.1 with | .bytes c => .bytes (b ++ c) | e => e, r.2)
    | _ => p) (.bytes [], s)

/-- An engine's write over several lines, stopping at the first refusal. -/
def State.engineWrites (s : State) (who : Who) (coh : Bool) (a : Nat) (d : List Byte) : EngWrite × State :=
  let l := lineSplit (d.length / 64 + 2) a d.length
  if s.anyHeld l then (.held, s.acceptAll (l.map (fun w => ⟨who, s.classOf who, .write [], w.1, w.2, coh⟩)))
  else l.foldl (fun p w =>
    if p.1.goesOn then
      let r := p.2.engineWrite who coh w.1 ((d.drop (w.1 - a)).take w.2)
      (p.1.and r.1, r.2)
    else p) (.done, s)

/-- Bytes written one by one, gathered into runs of consecutive addresses. -/
def gather : List (Nat × Byte) → List (Nat × List Byte)
  | [] => []
  | (a, b) :: t => match gather t with
    | (k, l) :: r => if a + 1 = k then (a, b :: l) :: r else (a, [b]) :: (k, l) :: r
    | [] => [(a, [b])]

/-- An engine's write of gathered bytes, stopping at the first refusal. -/
def State.engineCells (s : State) (who : Who) (coh : Bool) (l : List (Nat × Byte)) : EngWrite × State :=
  if s.anyHeld (l.map (fun c => (c.1, 1))) then
    (.held, s.acceptAll ((gather l).flatMap (fun w => (lineSplit (w.2.length / 64 + 2) w.1 w.2.length).map (fun p =>
      (⟨who, s.classOf who, .write [], p.1, p.2, coh⟩ : Request)))))
  else (gather l).foldl (fun p w =>
    if p.1.goesOn then
      let r := p.2.engineWrites who coh w.1 w.2
      (p.1.and r.1, r.2)
    else p) (.done, s)

/-- Each of the bytes lands or not, as a write cut short leaves it: a free choice for each (log 11). -/
def State.tornCells (s : State) (who : Who) (coh : Bool) (l : List (Nat × Byte)) : State :=
  let kept := (l.zipIdx.filter (fun c => Config.freeBit (s.free + c.2))).map (fun c => c.1)
  ({ s with free := s.free + l.length }.engineCells who coh kept).2

end Sys2Proof.Machine
end

