-- ==== Sys2Proof/Machine/Translate.lean ====
section
/-! DEFINITION. Address translation (R201 to R212): the types of accesses, the TLBs, the table walk and the checks of a leaf. -/

namespace Sys2Proof.Machine

/-- How an access is made, after the region has limited its type (R201, R202). -/
inductive MType where
  | wb | nc | dev
  deriving DecidableEq, Repr

/-- The region is cacheable (R202). -/
def Region.cacheable : Region → Bool
  | .dram => true
  | .bank _ => true
  | .rom => true
  | _ => false

/-- The effective type of an access with page type `t` to physical address `a` (R202); RS is made as WB. -/
def State.effType (s : State) (t : BitVec 3) (a : Nat) : MType :=
  match s.region a with
  | .devReg => .dev
  | r => if t = 1 then .nc else if t = 2 then .dev else if r.cacheable || r = .unmapped then .wb else .nc

/-- The Lining bit and ID under which a context issues (R12, R14). -/
def State.whoOf (s : State) (c : Ctx) : Who := .ctx c (s.ctx c).status.lvl

/-- What a translation finds. -/
inductive Xl where
  | ok (pa : Nat) (ty : MType)
  | miss
  | fault (reason level : Nat)
  deriving DecidableEq, Repr

/-- A TLB entry matches a virtual address under an address-space identifier (R210). -/
def TlbEntry.hits (e : TlbEntry) (asid : BitVec 12) (va : VAddr) : Bool :=
  va.toNat / 2 ^ e.bits == e.vpn && (e.glob || e.asid == asid)

/-- The physical address under an entry (R206). -/
def TlbEntry.pa (e : TlbEntry) (va : VAddr) : Nat := e.ppn * 2 ^ e.bits + va.toNat % 2 ^ e.bits

/-- Entries with `e` used last (R526): `e` first, at most `n` held. -/
def useEntry (n : Nat) (e : TlbEntry) (l : List TlbEntry) : List TlbEntry := (e :: l.filter (fun x => x != e)).take n

/-- The level-two TLB with `e` used last: 4 ways in each set of the hash of R526. -/
def useEntry2 (e : TlbEntry) (l : List TlbEntry) : List TlbEntry :=
  let l := l.filter (fun x => x != e)
  let set (x : TlbEntry) : Nat := Config.tlbHash (x.vpn * 2 ^ (x.bits - 12)) % 256
  match l with
  | [] => [e]
  | _ =>
    let same := l.filter (fun x => set x == set e)
    if same.length < 4 then e :: l
    else match same.getLast? with
      | some v => e :: l.filter (fun x => x != v)
      | none => e :: l

/-- A TLB as a lookup finds it (R231, R232): the erroneous word of the entry that it meets is corrected, or the entry leaves where it is
uncorrectable (log 73). The answer names the erroneous entry. -/
def meetEntry (asid : BitVec 12) (va : VAddr) (l : List TlbEntry) : List TlbEntry × Option TlbEntry :=
  match l.find? (fun e => e.hits asid va) with
  | some e =>
    if e.flips = 0 then (l, none)
    else if eccResult e.flips = .uncorrectable then (l.filter (fun x => x != e), some e)
    else (l.map (fun x => if x = e then { e with flips := 0 } else x), if eccResult e.flips = .clean then none else some e)
  | none => (l, none)

/-- The error of an entry of a TLB is counted as corrected and recorded under the line that it translates to (R233, R237). -/
def State.reportEntry (s : State) (c : Ctx) (va : VAddr) (e : Option TlbEntry) : State :=
  match e with
  | some e => s.reportEcc false 8 (syndrome e.flips) c.val (e.pa va / 64 * 64)
  | none => s

/-- Of the entries of a 64 KiB group that the core's TLBs still hold, the one that the most recent walk made answers a lookup (R206); any
other page has one entry. -/
def newestOf (asid : BitVec 12) (va : VAddr) (e : TlbEntry) (held : List TlbEntry) : TlbEntry :=
  (held.filter (fun x => x.bits == 16 && x.hits asid va && x.flips == 0)).foldl (fun b x =>
    if b.bits = 16 ∧ b.walk < x.walk then x else b) e

/-- A lookup for a context: a hit at level one, else one at level two, which is copied to level one (R206, R210). -/
def State.tlbLookup (s : State) (c : Ctx) (va : VAddr) (fetch : Bool) : Option TlbEntry × State :=
  let k := coreOf c
  let x := s.core k
  let asid := (s.ctx c).asid
  let l1 := meetEntry asid va (if fetch then x.itlb else x.dtlb)
  let s := s.reportEntry c va l1.2
  let put (l : List TlbEntry) : Core := if fetch then { x with itlb := l } else { x with dtlb := l }
  match l1.1.find? (fun e => e.hits asid va) with
  | some e =>
    let e := newestOf asid va e (x.tlb2 ++ x.itlb ++ x.dtlb)
    (some e, s.setCore k (put (useEntry 64 e l1.1)))
  | none =>
    let l2 := meetEntry asid va x.tlb2
    let s := s.reportEntry c va l2.2
    match l2.1.find? (fun e => e.hits asid va) with
    | some e =>
      let e := newestOf asid va e (x.itlb ++ x.dtlb ++ l2.1)
      (some e, s.setCore k { put (useEntry 64 e l1.1) with tlb2 := useEntry2 e l2.1 })
    | none => (none, s.setCore k { put l1.1 with tlb2 := l2.1 })

/-- The first failing check of R208, as its reason. -/
def TlbEntry.refuses (e : TlbEntry) (ring : BitVec 2) (acc : Access) : Option Nat :=
  if e.ring.toNat < ring.toNat then some 4
  else if !e.rd && (acc = .load || acc = .latch || acc = .dcRead || acc = .atomic) then some 5
  else if !e.wr && (acc = .store || acc = .atomic || acc = .push || acc = .dcInv || acc = .dcZero) then some 6
  else if !e.ex && acc = .fetch then some 7
  else if acc = .fetch && (e.type = 2 || e.type = 3) then some 8
  else if (acc = .store || acc = .atomic || acc = .dcZero) && e.type = 3 then some 9
  else if acc = .push && e.type != 3 then some 0xA
  else none

/-- Translation of one part of an access of a context, under a given ring (R203, R204, R208). -/
def State.xlate (s : State) (c : Ctx) (ring : BitVec 2) (va : VAddr) (acc : Access) : Xl × State :=
  let x := s.ctx c
  if !x.status.te then
    if 2 ^ 40 ≤ va.toNat then (.fault 0xB 0, s)
    else (.ok va.toNat (if (s.region va.toNat).cacheable then .wb else .dev), s)
  else match s.tlbLookup c va (acc = .fetch) with
    | (none, s) => (.miss, s)
    | (some e, s) => match e.refuses ring acc with
      | some r => (.fault r 0, s)
      | none => (.ok (e.pa va) (s.effType e.type (e.pa va)), s)

/-- The code of a translation fault (R208): a fetch 0x01, a read 0x02, a write 0x03; DC.CI counts as a read and DC.INV as a write
(DESIGN CHOICE, log 74). -/
def Access.faultCode : Access → Nat
  | .fetch => 1
  | .load => 2
  | .latch => 2
  | .dcRead => 2
  | _ => 3

/-- The faulting access was a write (R173). -/
def Access.isWrite : Access → Bool
  | .fetch => false
  | .load => false
  | .latch => false
  | .dcRead => false
  | _ => true

/-- tfsr after a translation fault (R209). -/
def State.setTfsr (s : State) (c : Ctx) (reason level : Nat) : State :=
  s.setCtx c { s.ctx c with tfsr := BitVec.ofNat 6 (reason % 16 + level % 4 * 16) }

/-- What a walk finds. -/
inductive Walk where
  | leaf (e : TlbEntry)
  | fault (reason level : Nat)
  | refused
  | uncorrectable (a : Nat)
  | held
  deriving DecidableEq, Repr

/-- The class that a context's table reads and fills carry: the one in force when the miss that it waits for occurred (R228). -/
def State.missClass (s : State) (c : Ctx) : TClass :=
  match (s.ctx c).wait with
  | .walk _ _ _ _ => (s.ctx c).missClass
  | .fill _ _ _ _ => (s.ctx c).missClass
  | _ => s.ctxClass c

/-- A context waits for a walk or a fill, in the class now in force (R79, R228). -/
def State.await (s : State) (c : Ctx) (w : Wait) : State := s.setCtx c { s.ctx c with wait := w, missClass := s.ctxClass c }

/-- A walker's read of one table entry, coherent and through the quad's level-two cache (R207, R212); an erroneous word of a held line
is met as R233 says. -/
def State.readTable (s : State) (c : Ctx) (a : Nat) : EngRead × State :=
  let who := s.whoOf c
  let q := quadOf (coreOf c)
  let cls := s.missClass c
  let r : Request := ⟨who, cls, .read, a, 8, true⟩
  let held := match s.l2Get q (lineOf a) with
    | none => (none, s)
    | some l => match s.meet who.id q l ((l.touched a 8).filter (fun e => e.src != 5)) with
      | (.good, s) => (some (EngRead.bytes (s.quadBytes q a 8)), s.useL2 q (lineOf a))
      | (.bad, s) => (some (EngRead.uncorrectable a), s)
      | (.again, s) => (none, s)
  match held with
  | (some e, s) => (e, s)
  | (none, s) =>
    match s.verdict r with
    | .refused n g => (.refused n a, (s.dropAccepted r).recordRefusal r n g)
    | .allowed =>
      if s.memHeld a then (.held, s.keepAccepted r)
      else if (s.region a).cacheable then
        let r := (s.dropAccepted r).fillLine who cls q (lineOf a) false false
        if r.1 then (.uncorrectable a, r.2) else (.bytes (r.2.quadBytes q a 8), r.2)
      else match ((s.dropAccepted r).comes r).memRead who.id true a 8 with
        | (some b, s) => (.bytes b, s)
        | (none, s) => (.uncorrectable a, s)

/-- The leaf that entry `e` of `level` makes for a virtual address (R205, R206). -/
def leafOf (va : VAddr) (asid : BitVec 12) (e level : Nat) : TlbEntry :=
  let bits := match level with
    | 1 => 30
    | 2 => 21
    | _ => if e / 2 % 2 = 1 then 16 else 12
  { bits := bits, vpn := va.toNat / 2 ^ bits, asid := asid, glob := e / 32 % 2 = 1, ppn := e % 2 ^ 40 / 2 ^ bits,
    ring := BitVec.ofNat 2 (e / 64), rd := e / 256 % 2 = 1, wr := e / 512 % 2 = 1, ex := e / 1024 % 2 = 1,
    type := BitVec.ofNat 3 (e / 4) }

/-- The walk of R207 from `level`, whose table lies at `t`; the list counts the levels left. -/
def State.walkFrom (s : State) (c : Ctx) (va : VAddr) : List Nat → Nat → Walk × State
  | [], _ => (.fault 1 3, s)
  | level :: rest, t =>
    match s.readTable c (t + 8 * (va.toNat / 2 ^ (39 - 9 * level) % 512)) with
    | (.refused _ _, s) => (.refused, s)
    | (.uncorrectable a, s) => (.uncorrectable a, s)
    | (.held, s) => (.held, s)
    | (.bytes b, s) =>
      let e := leNat b
      if e % 2 = 0 then (.fault 1 level, s)
      else if level < 3 ∧ e / 2 % 2 = 1 then s.walkFrom c va rest (e % 2 ^ 40 / 4096 * 4096)
      else if e / 2 ^ 40 ≠ 0 ∨ e / 2 ^ 11 % 2 = 1 ∨ e / 16 % 2 = 1 then (.fault 2 level, s)
      else
        let l := leafOf va (s.ctx c).asid e level
        if level = 0 ∨ e % 2 ^ l.bits / 4096 ≠ 0 then (.fault 3 level, s) else (.leaf l, s)

/-- The walk of R207 for a context. -/
def State.walk (s : State) (c : Ctx) (va : VAddr) : Walk × State := s.walkFrom c va [0, 1, 2, 3] (s.ctx c).ptroot.toNat

/-- A leaf enters the TLBs of the context's core (R210); a 64 KiB page's bears the number of its walk (R206). -/
def State.installLeaf (s : State) (c : Ctx) (fetch : Bool) (e : TlbEntry) : State :=
  let k := coreOf c
  let x := s.core k
  let x := if e.bits = 16 then { x with walks := x.walks + 1 } else x
  let e := if e.bits = 16 then { e with walk := x.walks } else e
  let x := { x with tlb2 := useEntry2 e x.tlb2 }
  s.setCore k (if fetch then { x with itlb := useEntry 64 e x.itlb } else { x with dtlb := useEntry 64 e x.dtlb })

/-- A synchronous cause (R177), with the fields of its cause word (R173) and its fault address. -/
structure Cause where
  code : Nat
  addr : Dword
  wr : Bool := false
  half : Bool := false
  sub : Nat := 0
  num : Nat := 0
  deriving DecidableEq, Repr

/-- Translation with the walk made at once, for the accesses that entries and returns make (R174, R176). A walk that is held leaves the miss. -/
def State.xlateNow (s : State) (c : Ctx) (ring : BitVec 2) (va : VAddr) (acc : Access) : Xl × Option Cause × State :=
  match s.xlate c ring va acc with
  | (.miss, s) => match s.walk c va with
    | (.leaf e, s) =>
      let s := s.installLeaf c (acc = .fetch) e
      match s.xlate c ring va acc with
      | (.fault r l, s) => (.fault r l, none, s.setTfsr c r l)
      | (x, s) => (x, none, s)
    | (.fault r l, s) => (.fault r l, none, s.setTfsr c r l)
    | (.refused, s) => (.miss, some { code := 4, addr := va.zeroExtend 64, wr := acc.isWrite }, s)
    | (.uncorrectable a, s) => (.miss, some { code := 0x21, addr := BitVec.ofNat 64 (a / 64 * 64) }, s)
    | (.held, s) => (.miss, none, s)
  | (.fault r l, s) => (.fault r l, none, s.setTfsr c r l)
  | (x, s) => (x, none, s)

/-- The entries that TLBI.VA removes (R211). -/
def TlbEntry.coversVa (e : TlbEntry) (va : VAddr) (asid : BitVec 12) : Bool :=
  va.toNat / 2 ^ e.bits == e.vpn && (e.glob || e.asid == asid)

/-- Every TLB of every core filtered (R211). -/
def State.filterTlbs (s : State) (keep : TlbEntry → Bool) : State :=
  (List.finRange 16).foldl (fun s k => s.setCore k { s.core k with
    itlb := (s.core k).itlb.filter keep, dtlb := (s.core k).dtlb.filter keep, tlb2 := (s.core k).tlb2.filter keep }) s

end Sys2Proof.Machine
end

