-- ==== Sys2Proof/Machine/Entries.lean ====
section
/-! DEFINITION. Entries and their frames (R171 to R200): a synchronous cause taken, the ring-0 entry and its frame, the Lining
entry, and the return from each. -/

namespace Sys2Proof.Machine

/-- The status register's word (R115). -/
def Status.word (t : Status) : Dword :=
  BitVec.ofNat 64 (t.ring.toNat + 4 * bit t.lvl + 8 * bit t.ie + 16 * bit t.tack + 64 * bit t.te)

/-- The fields that a WRC to status writes: RING, IE and TE (R115, R116). -/
def Status.wrc (t : Status) (w : Dword) : Status :=
  { t with ring := BitVec.ofNat 2 w.toNat, ie := w.getLsbD 3, te := w.getLsbD 6 }

/-- A pending write of status or asid takes effect (R116). -/
def Context.applyShadow (x : Context) (h : Shadow) : Context :=
  if h.isAsid then { x with asid := BitVec.ofNat 12 h.value.toNat } else { x with status := x.status.wrc h.value }

/-- Every pending write completed, oldest first (R199). -/
def Context.flushShadows (x : Context) : Context := { x.shadows.foldl Context.applyShadow x with shadows := [] }

/-- The cause word of R173. -/
def causeWord (num sub : Nat) (wr half sh ds : Bool) (orig code : Nat) : Dword :=
  BitVec.ofNat 64 (num % 2048 * 2 ^ 32 + sub % 16 * 2 ^ 20 + bit wr * 2 ^ 19 + bit half * 2 ^ 18 + bit sh * 2 ^ 17 +
    bit ds * 2 ^ 16 + orig % 256 * 2 ^ 8 + code % 256)

/-- The eight doublewords of a frame (R172). -/
def frameWords (x : Context) (pc npc : VAddr) (cw addr : Dword) : List Dword :=
  [pc.zeroExtend 64, npc.zeroExtend 64, x.status.word, cw, addr, x.tackrem.zeroExtend 64, x.g[30], x.g[31]]

/-- The bytes of a frame. -/
def frameBytes (l : List Dword) : List Byte := l.flatMap (fun d => leBytes 8 d.toNat)

/-- The address of a context's Lining frame at depth `d` (R185). -/
def liningFrame (c : Ctx) (d : Nat) : Nat := 0x4060400 + c.val * 0x400 - 64 * d

/-- The core-local event `i` of a context's core (R107, R200). -/
def coreEvent (c : Ctx) (i : Nat) : Nat := 1424 + 7 * (coreOf c).val + i

/-- KDONE bit j and the core's kill-complete event (R99, R107). -/
def State.killDone (s : State) (c : Ctx) : State :=
  let a := Reg.HYC_CORESTAT (coreOf c)
  (s.setFld a Fld.HYC_CORESTAT_KDONE (s.fld a Fld.HYC_CORESTAT_KDONE ||| 2 ^ (c.val % 8))).raise (coreEvent c 0)

/-- A context stops itself (R101): it becomes Off with STOPPED. A KILL held by the Lining level finds it Off (R100; log 70), and a
pending Lining cause starts it again (R187). -/
def State.stopSelf (s : State) (c : Ctx) : State :=
  let held := (s.ctx c).heldKill
  let s := (s.setCtx c { s.ctx c with run := .off, heldKill := false }).setFld (Reg.HYC_CSTAT c) Fld.HYC_CSTAT_STOPPED 1
  let s := if held then (s.setFld (Reg.HYC_CSTAT c) Fld.HYC_CSTAT_ABLATE 1).killDone c else s
  if (s.ctx c).lpend = 0 || s.flag (Reg.HYC_CSTAT c) Fld.HYC_CSTAT_EXH then s else s.startCtx c

/-- The boot ROM's code at 0x200 (R527): with OK = 1 it goes on to the payload's handler; otherwise the entry fails the boot (R499), and the boot
ROM's run on context 0 with it, whichever context entered (DESIGN CHOICE, log 88). -/
def State.romHandler (s : State) (c : Ctx) : State :=
  let x := s.ctx c
  if s.flag Reg.SYS_BOOTSTAT Fld.SYS_BOOTSTAT_OK then
    s.setCtx c { x with pc := 0x4000000, npc := 0x4000004, slots := x.slots + 2 }
  else
    let s := (s.setFld Reg.SYS_BOOTSTAT Fld.SYS_BOOTSTAT_ERR 0x0A).setFld Reg.SYS_FAULT Fld.SYS_FAULT_BOOT 1
    ({ s with sys := { s.sys with boot := match s.sys.boot with | .rom _ => .done | b => b } }).stopSelf c

/-- A Lining exhaustion (R188): the context becomes Off with its registers and its pending causes as they stand. -/
def State.exhaust (s : State) (c : Ctx) : State :=
  let s := s.setCtx c { s.ctx c with run := .off, entry := none, wait := .none }
  let s := s.setFld (Reg.HYC_CSTAT c) Fld.HYC_CSTAT_EXH 1
  (s.setFld Reg.SYS_FAULT Fld.SYS_FAULT_LEXH 1).raise (coreEvent c 6)

/-- A Lining entry with its frame, or an exhaustion (R185, R188, R171). Pending mode changes are completed by it (R199). -/
def State.liningEntry (s : State) (c : Ctx) (code orig : Nat) (addr : Dword) (wr half : Bool) (sub num : Nat)
    (ds sh : Bool) (pc npc : VAddr) : State :=
  let x := (s.ctx c).flushShadows
  if x.ldepth = 16 then s.exhaust c
  else
    let d := x.ldepth.toNat + 1
    let f := liningFrame c d
    let cw := causeWord num sub wr half sh ds orig code
    let r : Request := ⟨.ctx c true, s.ctxClass c, .fullLine (frameBytes (frameWords x pc npc cw addr)), f, 64, true⟩
    let s := ((s.comes r).memWrite c.val f (frameBytes (frameWords x pc npc cw addr))).2
    let g := (x.g.set 31 (BitVec.ofNat 64 f)).set 30 cw
    let x := { x with
      g := g, ldepth := BitVec.ofNat 5 d, lcause := cw, lxaddr := addr,
      status := ⟨false, false, false, true, 0⟩, tackrem := 0, pc := 0x200, npc := 0x204,
      slot := false, annul := false, entry := none, wait := .none, brpt := none, chunk := none, slots := x.slots + 16,
      dsSaved := if ds then pc :: x.dsSaved else x.dsSaved }
    ((s.setCtx c x).raise (coreEvent c 4)).romHandler c

/-- The pc of an entry's handler (R171). -/
def Entry.target (e : Entry) (x : Context) : VAddr :=
  match e.kind with
  | .exception => x.vbase + BitVec.ofNat 48 (64 * e.code)
  | .event => x.vbase + 0x400
  | .gate t _ _ => t

/-- The status after an entry (R171). -/
def Entry.status (e : Entry) (t : Status) : Status :=
  match e.kind with
  | .gate _ r ie => { t with ring := r, ie := ie, tack := false }
  | _ => { t with ring := 0, ie := false, tack := false }

/-- A ring-0 entry begins (R174): its limit check comes first, and an overflow takes the Lining entry with code 0x24, whose fault
address is xsp − 64 modulo 2⁶⁴ (log 76). Pending mode changes are completed by the entry (R199); those of a GATE that is a shadow
instruction itself as well, with SH = 1 (DESIGN CHOICE, log 88). -/
def State.startEntry (s : State) (c : Ctx) (kind : EntryKind) (cause : Cause) (ds : Bool) (pc npc : VAddr) : State :=
  let x0 := s.ctx c
  let sh := !x0.shadows.isEmpty
  let x := x0.flushShadows
  if (x.xsp.toNat : Int) - 64 < x.xlim.toNat then
    s.liningEntry c 0x24 cause.code (x.xsp.zeroExtend 64 - 64) false false 0 0 ds sh pc npc
  else
    let e : Entry := { kind := kind, code := cause.code, num := cause.num, sub := cause.sub, wr := cause.wr, half := cause.half,
                       sh := sh, ds := ds, addr := cause.addr, savedPc := pc, savedNpc := npc, claimed := false }
    s.setCtx c { x with wait := .none, entry := some e, brpt := none, chunk := none }

/-- A synchronous cause of the instruction at pc is taken (R178, R186): a Lining entry in the Lining level and for the causes
0x21, 0x25 and 0x26, else a ring-0 exception entry. -/
def State.takeSync (s : State) (c : Ctx) (cause : Cause) : State :=
  let x := s.ctx c
  if x.status.lvl || cause.code = 0x21 || cause.code = 0x25 || cause.code = 0x26 then
    s.liningEntry c cause.code 0 cause.addr cause.wr cause.half cause.sub cause.num x.slot (!x.shadows.isEmpty) x.pc x.npc
  else s.startEntry c .exception cause x.slot x.pc x.npc

/-- A translation fault is taken (R208, R209). -/
def State.takeXlFault (s : State) (c : Ctx) (acc : Access) (va : VAddr) (half : Bool) (reason level : Nat) : State :=
  (s.setTfsr c reason level).takeSync c
    { code := acc.faultCode, addr := va.zeroExtend 64, wr := acc.isWrite, half := half }

/-- What a full-line write of a context finds: it is made, the fabric refuses it, or its request is held (R489). -/
inductive LineWrite where
  | made | refused | held
  deriving DecidableEq, Repr

/-- A full-line write of a context at a translated address (R174, R217): a cacheable line is taken uniquely without being read;
elsewhere it is one request, which device register space refuses (R5). -/
def State.fullLine (s : State) (c : Ctx) (pa : Nat) (ty : MType) (d : List Byte) : LineWrite × State :=
  let who := s.whoOf c
  let q := quadOf (coreOf c)
  let cls := s.ctxClass c
  let r : Request := ⟨who, cls, .fullLine d, pa, 64, ty ≠ .wb⟩
  let cached := ty = .wb ∧ s.region pa ≠ .rom
  if cached ∧ s.l2Has q (lineOf pa) = true then (.made, (s.turnDirty (some q) (lineOf pa)).writeLine who (coreOf c) pa d)
  else match s.verdict r with
    | .refused n g => (.refused, (s.dropAccepted r).recordRefusal r n g)
    | .allowed =>
      if s.memHeld pa then (.held, s.keepAccepted r)
      else if cached then
        let s := (s.dropAccepted r).snoop (some q) (lineOf pa) true
        (.made, (s.install cls q ⟨lineOf pa, BitVec.ofNat 512 (leNat d), true, [], who⟩).useL1d (coreOf c) (lineOf pa))
      else (.made, ((((s.dropAccepted r).comes r).uncached (ty ≠ .wb) pa).memWrite who.id pa d).2)

/-- The frame write of the entry in progress fails (R174, R175, R192): nothing of the entry takes effect, a claimed source is
released, and the Lining entry with code 0x25 follows. -/
def State.entryFails (s : State) (c : Ctx) (e : Entry) (f : VAddr) : State :=
  let s := if e.kind = .event ∧ e.claimed ∧ e.num ≠ 0x7FF then s.unclaim e.num else s
  s.liningEntry c 0x25 e.code (f.zeroExtend 64) false false 0 0 e.ds e.sh e.savedPc e.savedNpc

/-- The frame write of the entry in progress is made, and every change of the entry takes effect with it, or the Lining entry
with code 0x25 follows (R174, R175). An event entry waits for its claim. The saved tack count is that of the frame write (R196; DESIGN CHOICE,
log 88). -/
def State.finishEntry (s : State) (c : Ctx) (e : Entry) : State :=
  let x := s.ctx c
  let f := x.xsp - 64
  let cw := causeWord e.num e.sub e.wr e.half e.sh e.ds 0 e.code
  match s.xlateNow c 0 f .store with
  | (.ok pa ty, _, s) =>
    match s.fullLine c pa ty (frameBytes (frameWords x e.savedPc e.savedNpc cw e.addr)) with
    | (.refused, s) => s.entryFails c e f
    | (.held, s) => s
    | (.made, s) =>
      let x := s.ctx c
      let g := (x.g.set 31 (f.zeroExtend 64)).set 30 cw
      s.setCtx c { x with
        g := g, xsp := f, xcause := cw, xaddr := e.addr, status := e.status x.status, tackrem := 0,
        pc := e.target x, npc := e.target x + 4, slot := false, annul := false, entry := none,
        slots := x.slots + 12, dsSaved := if e.ds then e.savedPc :: x.dsSaved else x.dsSaved }
  | (.miss, none, s) => s
  | (_, _, s) => s.entryFails c e f

/-! ### The rows -/

/-- A group of a block-repeat instruction is under way: this is no boundary (R127, R191). -/
def Context.midGroup (x : Context) : Bool := x.brpt.any (fun k => k < 8) || x.chunk.isSome

/-- A mode change is due before the next instruction (R116). -/
def Context.shadowDue (x : Context) : Bool := x.shadows.any (fun h => h.left == 0)

/-- A context can issue: Active, no entry in progress, not waiting (R79). An instruction whose access was held issues it again. -/
def Context.canIssue (x : Context) : Bool := x.run = .active && x.entry.isNone && (x.wait = .none || x.wait = .port)

/-- The instruction at pc has issued an access that its port or the claim queue holds: no boundary lies inside it (R191). -/
def Context.inAccess (x : Context) : Bool := x.wait = .port

/-- ENTRY_FRAME_ACCEPTED (R175). -/
def execEntryFrameAccepted (c : Ctx) (s : State) : Out :=
  match (s.ctx c).entry with
  | some e => if (s.ctx c).run = .active ∧ (e.kind ≠ .event ∨ e.claimed) then .next (s.finishEntry c e) else .next s
  | none => .next s

/-- The lowest pending asynchronous cause (R187). -/
def lowestPending (p : BitVec 4) : Option LCause :=
  if p.getLsbD 0 then some .lockstep else if p.getLsbD 1 then some .ecc
  else if p.getLsbD 2 then some .machineCheck else if p.getLsbD 3 then some .lag else none

/-- A context that waits in this way stands between two instructions: the next one is still being fetched, or nothing is waited for. -/
def Wait.outside (w : Wait) : Bool :=
  match w with
  | .none => true
  | .walk _ acc _ _ => acc = .fetch
  | .fill _ _ acc _ => acc = .fetch
  | _ => false

/-- A Lining cause may enter a context here (R187, R191, R193, R197): no mode change is due first, a branch and its annulled slot count as
one, a group of a block-repeat instruction is not split, nor an instruction that waits for its access, and of the entries only an event
entry before its sixth grant ends. -/
def Context.liningBoundary (x : Context) : Bool :=
  x.run = .active && !x.annul && !x.shadowDue && !x.midGroup && x.wait.outside &&
  match x.entry with
  | some e => e.kind = .event && !e.made
  | none => true

/-- LINING_ENTRY (R185, R187, R193): at a boundary the lowest pending cause is taken; its bit clears at the entry, and stays set at an
exhaustion (R188). -/
def execLiningEntry (c : Ctx) (s : State) : Out :=
  let x := s.ctx c
  if x.liningBoundary then
    match lowestPending x.lpend with
    | none => .next s
    | some cause =>
      if x.ldepth = 16 then .next (s.exhaust c)
      else
        let (ds, pc, npc, sh) := match x.entry with
          | some e => (e.ds, e.savedPc, e.savedNpc, e.sh)
          | none => (x.slot, x.pc, x.npc, !x.shadows.isEmpty)
        let s := s.setCtx c { x with lpend := x.lpend &&& ~~~(BitVec.ofNat 4 (2 ^ cause.bit)), entry := none, wait := .none }
        .next (s.liningEntry c cause.code 0 0 false false 0 0 ds sh pc npc)
  else .next s

/-- LINING_CAUSE_PENDING (R187); contexts that lockstep takes away take none (R106). -/
def execLiningCausePending (c : Ctx) (cause : LCause) (s : State) : Out :=
  .next (if s.lockedOut c.val then s else s.liningPend c cause)

end Sys2Proof.Machine
end

