-- ==== Sys2Proof/Machine/Operands.lean ====
section
/-! DEFINITION. Operands of Hymota instructions (R109 to R111, R133, R134) and the frame every instruction runs in: what lets it
issue, its fetch, the causes that come before its own (R178), and how it completes (R110, R116, R120, R121). Readings and choices: logs 1, 20, 55, 75, 77. -/

namespace Sys2Proof.Machine

/-- A general register's value; g0 reads 0 (R109). -/
def Context.rg (x : Context) (r : Gpr) : Dword := if r = 0 then 0 else x.g[r.toNat]

/-- A general register written; a write to g0 is dropped (R109). -/
def Context.wg (x : Context) (r : Gpr) (v : Dword) : Context := if r = 0 then x else { x with g := x.g.set r.toNat v }

/-- A register of a context, read. -/
def State.rg (s : State) (c : Ctx) (r : Gpr) : Dword := (s.ctx c).rg r

/-- A register of a context, written. -/
def State.wg (s : State) (c : Ctx) (r : Gpr) (v : Dword) : State := s.setCtx c ((s.ctx c).wg r v)

/-- A 16-bit immediate, sign-extended (R133). -/
def simm (i : BitVec 16) : Dword := i.signExtend 64

/-- A 16-bit immediate, zero-extended (R133). -/
def zimm (i : BitVec 16) : Dword := i.zeroExtend 64

/-- The 64-bit value of LUI and AUIPC (R133). -/
def uimm (i : BitVec 21) : Dword := i.signExtend 64 <<< 11

/-- An address made from a 64-bit value: bits [47:0] (R111). -/
def toVa (v : Dword) : VAddr := v.truncate 48

/-- A target taken from a register: bits [47:2] (R111). -/
def regTarget (v : Dword) : VAddr := v.truncate 48 &&& ~~~(3 : VAddr)

/-- A pc-relative target (R133). -/
def relTarget {n : Nat} (pc : VAddr) (d : BitVec n) : VAddr := pc + (d.signExtend 48 <<< 2)

/-- The conditions of R134. -/
def condHolds (cond : BitVec 4) (f : CFlags) : Bool :=
  match cond.toNat with
  | 0 => f.z
  | 1 => !f.z
  | 2 => f.c
  | 3 => !f.c
  | 4 => f.c || f.z
  | 5 => !f.c && !f.z
  | 6 => f.n != f.v
  | 7 => f.n == f.v
  | 8 => f.z || f.n != f.v
  | 9 => !f.z && f.n == f.v
  | 10 => f.n
  | 11 => !f.n
  | 12 => f.v
  | 13 => !f.v
  | 14 => f.sat
  | _ => true

/-- What an instruction is to the rules of delay slots and loop ends (R85, R121): ordinary; a branch, jump, call or return, an indirect one
of which looks the target buffer up (R88); or GATE or ERET, which may not stand in a delay slot. -/
inductive IKind where
  | plain | branch | indirect | transfer
  deriving DecidableEq, Repr

/-- One further instruction has issued since a write of status or asid (R116). -/
def Shadow.tick (h : Shadow) : Shadow := { h with left := h.left - 1 }

/-- The loop decision of an eligible instruction at le (R120, R121): the pair after it, which is `next` where the loop does not repeat, and
lc. It is taken from lc, ls and le as they stand before the instruction; an instruction that writes one of them writes it after the
decision (DESIGN CHOICE, log 75). -/
def Context.loopDecision (x : Context) (next : VAddr × VAddr) : (VAddr × VAddr) × Dword :=
  if x.pc = x.le && x.lc ≠ 0 then
    if x.lc = 1 then (next, 0) else ((x.ls, x.ls + 4), x.lc - 1)
  else (next, x.lc)

/-- The pair moves on and the instruction completes (R110): `redirect` is the target of a taken transfer. An eligible instruction
at le takes the loop decision (R120, R121), pending mode changes count it (R116), and its cost is charged (R84). -/
def Context.complete (x : Context) (cost : Nat) (branch annulNext : Bool) (redirect : Option VAddr) : Context :=
  let x1 : Context := { x with
    icount := x.icount + 1, slots := x.slots + cost, slot := branch, annul := annulNext,
    shadows := x.shadows.map Shadow.tick }
  match redirect with
  | some t => { x1 with pc := x.npc, npc := t }
  | none =>
    if !branch && !x.slot then
      let d := x.loopDecision (x.npc, x.npc + 4)
      { x1 with pc := d.1.1, npc := d.1.2, lc := d.2 }
    else { x1 with pc := x.npc, npc := x.npc + 4 }

/-- An ordinary instruction completes. -/
def State.done (s : State) (c : Ctx) (cost : Nat) : State := s.setCtx c ((s.ctx c).complete cost false false none)

/-- An annulled delay slot completes: one grant, no effect, no count, no loop decision (R86, R113, R121). -/
def Context.annulled (x : Context) : Context :=
  { x with pc := x.npc, npc := x.npc + 4, slot := false, annul := false, slots := x.slots + 1,
           shadows := x.shadows.map Shadow.tick }

/-- A halt request that acts at the next boundary: one held by the Lining level waits unless its write carried the Lining
bit (R528). -/
def Context.haltDue (x : Context) : Bool :=
  match x.haltReq with
  | some lining => !x.status.lvl || lining
  | none => false

/-- What the fetch of the instruction at pc finds (R77, R178, R207): the instruction, a miss of the TLBs or of the instruction cache, a
request that is held, a fault, a refusal, or an uncorrectable error. -/
inductive Fetch where
  | ok | miss | fill (pa : Nat) | held | fault (reason level : Nat) | refused | uncorrectable (pa : Nat)

/-- The request of a fetch, of the line that holds the instruction (R215). -/
def State.fetchRequest (s : State) (c : Ctx) (pa : Nat) : Request := ⟨s.whoOf c, s.ctxClass c, .read, pa / 64 * 64, 64, true⟩

/-- A fetch that misses the instruction cache: the quad's level-two cache serves it (R74), or a request that the firewall allows. -/
def State.fetchMiss (s : State) (c : Ctx) (pa : Nat) : Fetch × State :=
  if s.l2Has (quadOf (coreOf c)) (lineOf pa) then (.fill pa, s)
  else match s.verdict (s.fetchRequest c pa) with
    | .refused n g => (.refused, s.recordRefusal (s.fetchRequest c pa) n g)
    | .allowed => (.fill pa, s.keepAccepted (s.fetchRequest c pa))

/-- A fetch through the core's instruction cache (R74, R77, R233). -/
def State.fetchCached (s : State) (c : Ctx) (pa : Nat) : Fetch × State :=
  let k := coreOf c
  let ln := lineOf pa
  if !(s.core k).l1i.contains ln then s.fetchMiss c pa
  else match s.l2Get (quadOf k) ln with
    | none => s.fetchMiss c pa
    | some l =>
      match s.meet c.val (quadOf k) l ((l.touched pa 4).filter (fun e => e.flips = poison || (e.src == 5 && e.core == k.val))) with
      | (.good, s) => (.ok, s.useL1i k ln)
      | (.again, s) => s.fetchMiss c pa
      | (.bad, s) => (.uncorrectable pa, s)

/-- A fetch that no cache serves: one request (R201). -/
def State.fetchUncached (s : State) (c : Ctx) (pa : Nat) : Fetch × State :=
  let r := s.fetchRequest c pa
  match s.verdict r with
  | .refused n g => (.refused, s.recordRefusal r n g)
  | .allowed =>
    if s.memHeld pa then (.held, s.keepAccepted r)
    else match (s.comes r).memRead c.val true r.addr 64 with
      | (some _, s) => (.ok, s)
      | (none, s) => (.uncorrectable pa, s)

/-- The fetch of the instruction at pc. The instruction itself comes with the command (log 20). -/
def State.fetch (s : State) (c : Ctx) : Fetch × State :=
  let x := s.ctx c
  match s.xlate c x.status.ring x.pc .fetch with
  | (.miss, s) => (.miss, s)
  | (.fault r l, s) => (.fault r l, s)
  | (.ok pa ty, s) => if ty = .wb then s.fetchCached c pa else s.fetchUncached c pa

/-- The owner field of the slot that a core's wheel offers in core cycle `t` (R78). -/
def State.slotOwner (s : State) (k : Fin 16) (t : Nat) : Nat :=
  ((s.reg (Reg.HYC_WHEELLO k)).toNat + (s.reg (Reg.HYC_WHEELHI k)).toNat * 2 ^ 32) / 16 ^ (t % 16) % 16

/-- The core cycles of a core's quad in this fabric cycle in which the wheel in force offers its slots: none while the quad's clock stands
(R478, R481, R486). -/
def State.openCycles (s : State) (k : Fin 16) : List Nat :=
  let x := s.quad (quadOf k)
  if s.pllRuns (2 + (quadOf k).val) then
    ((List.range x.span).map (fun i => x.cycles + 1 - x.span + i)).filter (fun t => (s.core k).wheelFrom ≤ t)
  else []

/-- A context of core `k` with local number `j` is ready in core cycle `t` (R79): Active, with nothing waited for, and its next instruction
latched with its sources ready, which is the front end's (log 77). -/
def State.readyAt (s : State) (k : Fin 16) (j t : Nat) : Bool :=
  let c : Ctx := Fin.ofNat 128 (8 * k.val + j)
  (s.ctx c).run = .active && (s.ctx c).wait = .none && !s.lockedOut c.val && Config.latched c.val t

/-- A context that has an instruction to issue takes the slot of core cycle `t` (R80): its own; or a reclaimed one, whose owner is not
ready, where it is not in strict timing mode and no other such context that is ready stands before it after the reclaim pointer. -/
def State.takesCycle (s : State) (c : Ctx) (t : Nat) : Bool :=
  let k := coreOf c
  let j := c.val % 8
  let o := s.slotOwner k t
  let strict (i : Nat) : Bool := s.flag (Reg.HYC_CSTAT (Fin.ofNat 128 (8 * k.val + i))) Fld.HYC_CSTAT_STRICTA
  o == j || (!(o < 8 && s.readyAt k o t) && !strict j &&
    (((List.range 8).map (fun i => ((s.core k).reclaim.val + 1 + i) % 8)).takeWhile (fun i => i != j)).all (fun i =>
      strict i || !s.readyAt k i t))

/-- A slot of a core cycle of this fabric cycle belongs to the context (R78, R81). -/
def State.ownsSlot (s : State) (c : Ctx) : Bool := (s.openCycles (coreOf c)).any (fun t => s.slotOwner (coreOf c) t == c.val % 8)

/-- A core cycle of this fabric cycle offers a slot that the context takes (R80). -/
def State.mayTake (s : State) (c : Ctx) : Bool := (s.openCycles (coreOf c)).any (fun t => s.takesCycle c t)

/-- A context takes the slot: the winner of a reclaimed one becomes the reclaim pointer of its core (R80). -/
def State.takeGrant (s : State) (c : Ctx) : State :=
  if s.ownsSlot c then s else s.setCore (coreOf c) { s.core (coreOf c) with reclaim := Fin.ofNat 8 (c.val % 8) }

/-- A context issues: an instruction whose access was held issues it again under the verdict that it has had (R22), and nothing of an
earlier one is held. -/
def State.reissue (s : State) (c : Ctx) : State :=
  if (s.ctx c).wait = .port then s.setCtx c { s.ctx c with wait := .none } else s.forget c.val

/-- A context issues the instruction at its pc (R79, R80): nothing happens while it cannot issue, while a mode change, a pending Lining
cause or a halt request comes first (R116, R187, R528; none does within a group of a block-repeat instruction). An annulled slot
completes without effect (R86). Then the fetch of the instruction may miss or fault (R178); otherwise `body` acts. -/
def State.issue (s : State) (c : Ctx) (body : State → State) : State :=
  let x := s.ctx c
  if !x.canIssue || x.shadowDue || !s.mayTake c then s
  else if x.annul then (s.takeGrant c).setCtx c x.annulled
  else if (x.lpend ≠ 0 || x.haltDue) && !x.midGroup && !x.inAccess then s
  else match (s.reissue c).fetch c with
    | (.miss, s) => s.await c (.walk x.pc .fetch false [])
    | (.fill pa, s) => s.await c (.fill pa x.pc .fetch false)
    | (.held, s) => s
    | (.fault r l, s) => s.takeXlFault c .fetch x.pc false r l
    | (.refused, s) => s.takeSync c { code := 4, addr := x.pc.zeroExtend 64 }
    | (.uncorrectable pa, s) => s.takeSync c { code := 0x21, addr := BitVec.ofNat 64 (pa / 64 * 64) }
    | (.ok, s) => body (s.takeGrant c)

/-- The context does not use the target buffer (R90). -/
def State.tbOff (s : State) (c : Ctx) : Bool := s.flag (Reg.HYC_CCTL c) Fld.HYC_CCTL_TBOFF

/-- An entry of the target buffer is the context's for the jump at pc (R88). -/
def TbEntry.matches (e : TbEntry) (x : Context) (c : Ctx) : Bool :=
  e.addr == x.pc && e.asid == x.asid && e.ring == x.status.ring && e.slot == c.val % 8

/-- A lookup of the target buffer that hits makes the entry the most recently used (R89), whether or not the transfer completes. -/
def State.tbLookup (s : State) (c : Ctx) : State :=
  let k := s.core (coreOf c)
  match k.tbuf.find? (fun e => e.matches (s.ctx c) c) with
  | some e => if s.tbOff c then s else s.setCore (coreOf c) { k with tbuf := e :: k.tbuf.filter (fun x => x != e) }
  | none => s

/-- A context issues an instruction of kind `k`, which looks the target buffer up first where it is indirect. The causes of R178 come in order: the fetch, `pre` (an emulation trap or a privileged
instruction), a delay-slot transfer, a loop end; otherwise `body` acts. -/
def State.instr (s : State) (c : Ctx) (k : IKind) (pre : Option Cause) (body : State → State) : State :=
  s.issue c (fun s =>
    let s := if k = .indirect then s.tbLookup c else s
    let x := s.ctx c
    match pre with
    | some p => s.takeSync c p
    | none =>
      if x.slot && k ≠ .plain then s.takeSync c { code := 8, addr := 0 }
      else if x.pc = x.le && x.lc ≠ 0 && (x.slot || k = .branch || k = .indirect) then s.takeSync c { code := 9, addr := 0 }
      else body s)

/-- The privileged-instruction cause where the ring is above `limit` outside the Lining level (R112, R166). -/
def State.privileged (s : State) (c : Ctx) (limit : Nat) : Option Cause :=
  let t := (s.ctx c).status
  if !t.lvl && limit < t.ring.toNat then some { code := 5, addr := 0 } else none

/-- An instruction of one register result that raises nothing: `f` gives the result from the context. -/
def State.compute (s : State) (c : Ctx) (cost : Nat) (rd : Gpr) (f : Context → Dword) : State :=
  s.instr c .plain none (fun s => (s.wg c rd (f (s.ctx c))).done c cost)

/-- As `compute`, and the flags take a new value too. -/
def State.computeF (s : State) (c : Ctx) (cost : Nat) (rd : Gpr) (f : Context → Dword) (fl : Context → CFlags) : State :=
  s.instr c .plain none (fun s =>
    let x := s.ctx c
    (s.setCtx c { x.wg rd (f x) with flags := fl x }).done c cost)

end Sys2Proof.Machine
end

