-- ==== Sys2Proof/Machine/Flags.lean ====
section
/-! DEFINITION. Flag computations (R117, R129, R143, R151). -/

namespace Sys2Proof.Machine

/-- N and Z of a result of width `w`, with C and V given; SAT is kept (R143). -/
def flagsOf (w r : Nat) (c v : Bool) (old : CFlags) : CFlags :=
  { n := r / 2 ^ (w - 1) % 2 = 1, z := r % 2 ^ w = 0, c := c, v := v, sat := old.sat }

/-- A signed number does not fit `w` bits. -/
def overflows (w : Nat) (i : Int) : Bool := i < -(2 ^ (w - 1) : Nat) || (2 ^ (w - 1) : Nat) ≤ i

/-- The flags of ADD, ADDC and ADDW (R143): carry out of bit w − 1 and signed overflow. -/
def addFlags (w a b cin : Nat) (old : CFlags) : CFlags :=
  flagsOf w (a % 2 ^ w + b % 2 ^ w + cin) (2 ^ w ≤ a % 2 ^ w + b % 2 ^ w + cin)
    (overflows w (signed w a + signed w b + cin)) old

/-- The flags of SUB, SUBC and SUBW (R143): borrow out of bit w − 1 and signed overflow. -/
def subFlags (w a b cin : Nat) (old : CFlags) : CFlags :=
  flagsOf w (a % 2 ^ w + 2 ^ w + 2 ^ w - b % 2 ^ w - cin) (a % 2 ^ w < b % 2 ^ w + cin)
    (overflows w (signed w a - signed w b - cin)) old

/-- The flags of the logical instructions (R143): C and V are 0. -/
def logicFlags (r : Dword) (old : CFlags) : CFlags := flagsOf 64 r.toNat false false old

/-- The flags of FCMP (R151): less, equal, greater, or unordered. -/
def cmpFlags (lt eq un : Bool) (old : CFlags) : CFlags :=
  { n := lt, z := eq, c := lt, v := un, sat := old.sat }

/-- SAT set where a packed result was clamped; the others are kept (R129). -/
def satFlags (clamped : Bool) (old : CFlags) : CFlags := { old with sat := old.sat || clamped }

/-- The flags register's word (R117). -/
def CFlags.word (f : CFlags) : Dword :=
  BitVec.ofNat 64 (bit f.v + 2 * bit f.c + 4 * bit f.z + 8 * bit f.n + 16 * bit f.sat)

/-- The flags that a word holds (R117, R163). -/
def CFlags.ofWord (w : Dword) : CFlags := ⟨w.getLsbD 3, w.getLsbD 2, w.getLsbD 1, w.getLsbD 0, w.getLsbD 4⟩

end Sys2Proof.Machine
end

