-- ==== Sys2Proof/Machine/Alu.lean ====
section
/-! DEFINITION. Integer arithmetic of a Hymota context: the ALU group, the immediate instructions, multiplication and division, and
shifts (R142 to R146). -/

namespace Sys2Proof.Machine

/-- An ALU instruction with the S field (R142, R143): its result and, with S = 1, its flags. -/
def State.alu (s : State) (c : Ctx) (sf : Bool) (rd rs1 rs2 : Gpr) (f : Dword → Dword → Nat → Dword)
    (fl : Dword → Dword → Nat → CFlags → CFlags) : State :=
  s.computeF c 1 rd (fun x => f (x.rg rs1) (x.rg rs2) (bit x.flags.c))
    (fun x => if sf then fl (x.rg rs1) (x.rg rs2) (bit x.flags.c) x.flags else x.flags)

/-- A logical ALU instruction (R142, R143). -/
def State.aluLogic (s : State) (c : Ctx) (sf : Bool) (rd rs1 rs2 : Gpr) (f : Dword → Dword → Dword) : State :=
  s.alu c sf rd rs1 rs2 (fun a b _ => f a b) (fun a b _ o => logicFlags (f a b) o)

/-- 1 or 0 in a register. -/
def boolD (b : Bool) : Dword := if b then 1 else 0

/-- The low word of a register's value. -/
def lowW (a : Dword) : Word := a.truncate 32

/-- ADD (R142, R143). -/
def execAdd (c : Ctx) (sf : Bool) (rd rs1 rs2 : Gpr) (s : State) : Out :=
  .next (s.alu c sf rd rs1 rs2 (fun a b _ => a + b) (fun a b _ o => addFlags 64 a.toNat b.toNat 0 o))

/-- SUB (R142, R143). -/
def execSub (c : Ctx) (sf : Bool) (rd rs1 rs2 : Gpr) (s : State) : Out :=
  .next (s.alu c sf rd rs1 rs2 (fun a b _ => a - b) (fun a b _ o => subFlags 64 a.toNat b.toNat 0 o))

/-- ADDC (R142, R143). -/
def execAddc (c : Ctx) (sf : Bool) (rd rs1 rs2 : Gpr) (s : State) : Out :=
  .next (s.alu c sf rd rs1 rs2 (fun a b k => a + b + BitVec.ofNat 64 k) (fun a b k o => addFlags 64 a.toNat b.toNat k o))

/-- SUBC (R142, R143). -/
def execSubc (c : Ctx) (sf : Bool) (rd rs1 rs2 : Gpr) (s : State) : Out :=
  .next (s.alu c sf rd rs1 rs2 (fun a b k => a - b - BitVec.ofNat 64 k) (fun a b k o => subFlags 64 a.toNat b.toNat k o))

/-- AND (R142, R143). -/
def execAndR (c : Ctx) (sf : Bool) (rd rs1 rs2 : Gpr) (s : State) : Out :=
  .next (s.aluLogic c sf rd rs1 rs2 (fun a b => a &&& b))

/-- OR (R142, R143). -/
def execOrR (c : Ctx) (sf : Bool) (rd rs1 rs2 : Gpr) (s : State) : Out :=
  .next (s.aluLogic c sf rd rs1 rs2 (fun a b => a ||| b))

/-- XOR (R142, R143). -/
def execXorR (c : Ctx) (sf : Bool) (rd rs1 rs2 : Gpr) (s : State) : Out :=
  .next (s.aluLogic c sf rd rs1 rs2 (fun a b => a ^^^ b))

/-- ANDN (R142, R143). -/
def execAndn (c : Ctx) (sf : Bool) (rd rs1 rs2 : Gpr) (s : State) : Out :=
  .next (s.aluLogic c sf rd rs1 rs2 (fun a b => a &&& ~~~b))

/-- ORN (R142, R143). -/
def execOrn (c : Ctx) (sf : Bool) (rd rs1 rs2 : Gpr) (s : State) : Out :=
  .next (s.aluLogic c sf rd rs1 rs2 (fun a b => a ||| ~~~b))

/-- SLT (R142). -/
def execSlt (c : Ctx) (rd rs1 rs2 : Gpr) (s : State) : Out :=
  .next (s.compute c 1 rd (fun x => let a := x.rg rs1; let b := x.rg rs2; boolD (a.slt b)))

/-- SLTU (R142). -/
def execSltu (c : Ctx) (rd rs1 rs2 : Gpr) (s : State) : Out :=
  .next (s.compute c 1 rd (fun x => let a := x.rg rs1; let b := x.rg rs2; boolD (a.ult b)))

/-- MIN, signed (R142). -/
def execMinS (c : Ctx) (rd rs1 rs2 : Gpr) (s : State) : Out :=
  .next (s.compute c 1 rd (fun x => let a := x.rg rs1; let b := x.rg rs2; if a.slt b then a else b))

/-- MAX, signed (R142). -/
def execMaxS (c : Ctx) (rd rs1 rs2 : Gpr) (s : State) : Out :=
  .next (s.compute c 1 rd (fun x => let a := x.rg rs1; let b := x.rg rs2; if a.slt b then b else a))

/-- MINU (R142). -/
def execMinu (c : Ctx) (rd rs1 rs2 : Gpr) (s : State) : Out :=
  .next (s.compute c 1 rd (fun x => let a := x.rg rs1; let b := x.rg rs2; if a.ult b then a else b))

/-- MAXU (R142). -/
def execMaxu (c : Ctx) (rd rs1 rs2 : Gpr) (s : State) : Out :=
  .next (s.compute c 1 rd (fun x => let a := x.rg rs1; let b := x.rg rs2; if a.ult b then b else a))

/-- ADDW (R142, R143). -/
def execAddw (c : Ctx) (sf : Bool) (rd rs1 rs2 : Gpr) (s : State) : Out :=
  .next (s.alu c sf rd rs1 rs2 (fun a b _ => (lowW a + lowW b).signExtend 64) (fun a b _ o => addFlags 32 a.toNat b.toNat 0 o))

/-- SUBW (R142, R143). -/
def execSubw (c : Ctx) (sf : Bool) (rd rs1 rs2 : Gpr) (s : State) : Out :=
  .next (s.alu c sf rd rs1 rs2 (fun a b _ => (lowW a - lowW b).signExtend 64) (fun a b _ o => subFlags 32 a.toNat b.toNat 0 o))

/-- SEXTB (R142). -/
def execSextb (c : Ctx) (rd rs1 : Gpr) (s : State) : Out :=
  .next (s.compute c 1 rd (fun x => ((x.rg rs1).truncate 8).signExtend 64))

/-- SEXTH (R142). -/
def execSexth (c : Ctx) (rd rs1 : Gpr) (s : State) : Out :=
  .next (s.compute c 1 rd (fun x => ((x.rg rs1).truncate 16).signExtend 64))

/-- SEXTW (R142). -/
def execSextw (c : Ctx) (rd rs1 : Gpr) (s : State) : Out :=
  .next (s.compute c 1 rd (fun x => ((x.rg rs1).truncate 32).signExtend 64))

/-- ZEXTB (R142). -/
def execZextb (c : Ctx) (rd rs1 : Gpr) (s : State) : Out :=
  .next (s.compute c 1 rd (fun x => ((x.rg rs1).truncate 8).zeroExtend 64))

/-- ZEXTH (R142). -/
def execZexth (c : Ctx) (rd rs1 : Gpr) (s : State) : Out :=
  .next (s.compute c 1 rd (fun x => ((x.rg rs1).truncate 16).zeroExtend 64))

/-- ZEXTW (R142). -/
def execZextw (c : Ctx) (rd rs1 : Gpr) (s : State) : Out :=
  .next (s.compute c 1 rd (fun x => ((x.rg rs1).truncate 32).zeroExtend 64))

/-- The number of bits before the first that holds `v`, counting the listed positions. -/
def runLength (a : Dword) : List Nat → Nat
  | [] => 0
  | i :: t => if a.getLsbD i then 0 else runLength a t + 1

/-- CLZ (R142). -/
def execClz (c : Ctx) (rd rs1 : Gpr) (s : State) : Out :=
  .next (s.compute c 1 rd (fun x => BitVec.ofNat 64 (runLength (x.rg rs1) (List.range 64).reverse)))

/-- CTZ (R142). -/
def execCtz (c : Ctx) (rd rs1 : Gpr) (s : State) : Out :=
  .next (s.compute c 1 rd (fun x => BitVec.ofNat 64 (runLength (x.rg rs1) (List.range 64))))

/-- POPC (R142). -/
def execPopc (c : Ctx) (rd rs1 : Gpr) (s : State) : Out :=
  .next (s.compute c 1 rd (fun x => BitVec.ofNat 64 ((List.range 64).countP (fun i => (x.rg rs1).getLsbD i))))

/-- BSWAP (R142). -/
def execBswap (c : Ctx) (rd rs1 : Gpr) (s : State) : Out :=
  .next (s.compute c 1 rd (fun x => BitVec.ofNat 64 (beNat (leBytes 8 (x.rg rs1).toNat))))

/-- CPICK (R142). -/
def execCpick (c : Ctx) (cond : BitVec 4) (rd rs1 rs2 : Gpr) (s : State) : Out :=
  .next (s.compute c 1 rd (fun x => if condHolds cond x.flags then x.rg rs1 else x.rg rs2))

/-- ADDI (R144). -/
def execAddi (c : Ctx) (rd rs1 : Gpr) (imm : BitVec 16) (s : State) : Out :=
  .next (s.compute c 1 rd (fun x => x.rg rs1 + simm imm))

/-- ANDI (R144). -/
def execAndi (c : Ctx) (rd rs1 : Gpr) (imm : BitVec 16) (s : State) : Out :=
  .next (s.compute c 1 rd (fun x => x.rg rs1 &&& zimm imm))

/-- ORI (R144). -/
def execOri (c : Ctx) (rd rs1 : Gpr) (imm : BitVec 16) (s : State) : Out :=
  .next (s.compute c 1 rd (fun x => x.rg rs1 ||| zimm imm))

/-- XORI (R144). -/
def execXori (c : Ctx) (rd rs1 : Gpr) (imm : BitVec 16) (s : State) : Out :=
  .next (s.compute c 1 rd (fun x => x.rg rs1 ^^^ zimm imm))

/-- SLTI (R144). -/
def execSlti (c : Ctx) (rd rs1 : Gpr) (imm : BitVec 16) (s : State) : Out :=
  .next (s.compute c 1 rd (fun x => boolD ((x.rg rs1).slt (simm imm))))

/-- SLTIU (R144). -/
def execSltiu (c : Ctx) (rd rs1 : Gpr) (imm : BitVec 16) (s : State) : Out :=
  .next (s.compute c 1 rd (fun x => boolD ((x.rg rs1).ult (simm imm))))

/-- LUI (R144). -/
def execLui (c : Ctx) (rd : Gpr) (imm : BitVec 21) (s : State) : Out :=
  .next (s.compute c 1 rd (fun _ => uimm imm))

/-- AUIPC (R144). -/
def execAuipc (c : Ctx) (rd : Gpr) (imm : BitVec 21) (s : State) : Out :=
  .next (s.compute c 1 rd (fun x => x.pc.zeroExtend 64 + uimm imm))

/-- The quotient of R145 at width `w`, as an integer: 0 for a zero divisor, and the nearest representable quotient where the exact
one is not representable. -/
def quotient (w : Nat) (sg : Bool) (a b : Nat) : Int :=
  let x : Int := if sg then signed w a else (a % 2 ^ w : Nat)
  let y : Int := if sg then signed w b else (b % 2 ^ w : Nat)
  if y = 0 then 0
  else if sg && x = -(2 ^ (w - 1) : Nat) && y = -1 then (2 ^ (w - 1) : Nat) - 1
  else x.tdiv y

/-- The remainder of R145: the dividend for a zero divisor, and 0 where the quotient is not representable. -/
def remainder (w : Nat) (sg : Bool) (a b : Nat) : Int :=
  let x : Int := if sg then signed w a else (a % 2 ^ w : Nat)
  let y : Int := if sg then signed w b else (b % 2 ^ w : Nat)
  if y = 0 then x
  else if sg && x = -(2 ^ (w - 1) : Nat) && y = -1 then 0
  else x.tmod y

/-- A 64-bit result, or a 32-bit one sign-extended (R145). -/
def resultD (w : Nat) (i : Int) : Dword := if w = 32 then (BitVec.ofInt 32 i).signExtend 64 else BitVec.ofInt 64 i

/-- MUL.LO (R145). -/
def execMulLo (c : Ctx) (rd rs1 rs2 : Gpr) (s : State) : Out :=
  .next (s.compute c 2 rd (fun x => BitVec.ofNat 64 ((x.rg rs1).toNat * (x.rg rs2).toNat)))

/-- MUL.HS (R145). -/
def execMulHs (c : Ctx) (rd rs1 rs2 : Gpr) (s : State) : Out :=
  .next (s.compute c 3 rd (fun x => BitVec.ofInt 64 ((x.rg rs1).toInt * (x.rg rs2).toInt / 2 ^ 64)))

/-- MUL.HU (R145). -/
def execMulHu (c : Ctx) (rd rs1 rs2 : Gpr) (s : State) : Out :=
  .next (s.compute c 3 rd (fun x => BitVec.ofNat 64 ((x.rg rs1).toNat * (x.rg rs2).toNat / 2 ^ 64)))

/-- MUL.HX (R145). -/
def execMulHx (c : Ctx) (rd rs1 rs2 : Gpr) (s : State) : Out :=
  .next (s.compute c 3 rd (fun x => BitVec.ofInt 64 ((x.rg rs1).toInt * ((x.rg rs2).toNat : Int) / 2 ^ 64)))

/-- MUL.W (R145). -/
def execMulW (c : Ctx) (rd rs1 rs2 : Gpr) (s : State) : Out :=
  .next (s.compute c 2 rd (fun x => (lowW (x.rg rs1) * lowW (x.rg rs2)).signExtend 64))

/-- QUO.S (R145). -/
def execQuoS (c : Ctx) (rd rs1 rs2 : Gpr) (s : State) : Out :=
  .next (s.compute c 18 rd (fun x => resultD 64 (quotient 64 true (x.rg rs1).toNat (x.rg rs2).toNat)))

/-- QUO.U (R145). -/
def execQuoU (c : Ctx) (rd rs1 rs2 : Gpr) (s : State) : Out :=
  .next (s.compute c 18 rd (fun x => resultD 64 (quotient 64 false (x.rg rs1).toNat (x.rg rs2).toNat)))

/-- RMD.S (R145). -/
def execRmdS (c : Ctx) (rd rs1 rs2 : Gpr) (s : State) : Out :=
  .next (s.compute c 18 rd (fun x => resultD 64 (remainder 64 true (x.rg rs1).toNat (x.rg rs2).toNat)))

/-- RMD.U (R145). -/
def execRmdU (c : Ctx) (rd rs1 rs2 : Gpr) (s : State) : Out :=
  .next (s.compute c 18 rd (fun x => resultD 64 (remainder 64 false (x.rg rs1).toNat (x.rg rs2).toNat)))

/-- QUO.SW (R145). -/
def execQuoSw (c : Ctx) (rd rs1 rs2 : Gpr) (s : State) : Out :=
  .next (s.compute c 10 rd (fun x => resultD 32 (quotient 32 true (x.rg rs1).toNat (x.rg rs2).toNat)))

/-- QUO.UW (R145). -/
def execQuoUw (c : Ctx) (rd rs1 rs2 : Gpr) (s : State) : Out :=
  .next (s.compute c 10 rd (fun x => resultD 32 (quotient 32 false (x.rg rs1).toNat (x.rg rs2).toNat)))

/-- RMD.SW (R145). -/
def execRmdSw (c : Ctx) (rd rs1 rs2 : Gpr) (s : State) : Out :=
  .next (s.compute c 10 rd (fun x => resultD 32 (remainder 32 true (x.rg rs1).toNat (x.rg rs2).toNat)))

/-- RMD.UW (R145). -/
def execRmdUw (c : Ctx) (rd rs1 rs2 : Gpr) (s : State) : Out :=
  .next (s.compute c 10 rd (fun x => resultD 32 (remainder 32 false (x.rg rs1).toNat (x.rg rs2).toNat)))

/-- The amount of a shift (R146): the immediate, or b[5:0], or b[4:0] for the W forms. -/
def Amt.value (m : Amt) (x : Context) (w : Nat) : Nat :=
  match m with
  | .imm n => n.toNat % w
  | .reg r => (x.rg r).toNat % w

/-- SLL (R146). -/
def execSll (c : Ctx) (rd rs1 : Gpr) (amt : Amt) (s : State) : Out :=
  .next (s.compute c 1 rd (fun x => let n := amt.value x 64; x.rg rs1 <<< n))

/-- SRL (R146). -/
def execSrl (c : Ctx) (rd rs1 : Gpr) (amt : Amt) (s : State) : Out :=
  .next (s.compute c 1 rd (fun x => let n := amt.value x 64; x.rg rs1 >>> n))

/-- SRA (R146). -/
def execSra (c : Ctx) (rd rs1 : Gpr) (amt : Amt) (s : State) : Out :=
  .next (s.compute c 1 rd (fun x => let n := amt.value x 64; (x.rg rs1).sshiftRight n))

/-- ROR (R146). -/
def execRor (c : Ctx) (rd rs1 : Gpr) (amt : Amt) (s : State) : Out :=
  .next (s.compute c 1 rd (fun x => let n := amt.value x 64; (x.rg rs1).rotateRight n))

/-- SLLW (R146). -/
def execSllw (c : Ctx) (rd rs1 : Gpr) (amt : Amt) (s : State) : Out :=
  .next (s.compute c 1 rd (fun x => let n := amt.value x 32; (lowW (x.rg rs1) <<< n).signExtend 64))

/-- SRLW (R146). -/
def execSrlw (c : Ctx) (rd rs1 : Gpr) (amt : Amt) (s : State) : Out :=
  .next (s.compute c 1 rd (fun x => let n := amt.value x 32; (lowW (x.rg rs1) >>> n).signExtend 64))

/-- SRAW (R146). -/
def execSraw (c : Ctx) (rd rs1 : Gpr) (amt : Amt) (s : State) : Out :=
  .next (s.compute c 1 rd (fun x => let n := amt.value x 32; ((lowW (x.rg rs1)).sshiftRight n).signExtend 64))

end Sys2Proof.Machine
end

