-- ==== Sys2Proof/Machine/DataPort.lean ====
section
/-! DEFINITION. The data port of a context (R147, R198, R201, R215, R216, R218 to R220): reads and writes of memory in one or two
line parts, return-stack pushes and latch refills. Device registers are reached through it by `RegPort`. Readings and choices: log 60. -/

namespace Sys2Proof.Machine

/-- What an access of a context answers: a value, a wait without grants (R79), or a cause (R177). -/
inductive Port (α : Type) where
  | ok (v : α) (s : State)
  | wait (s : State)
  | cause (x : Cause) (s : State)

/-- The next access on the state that an access leaves. -/
def Port.bind {α β : Type} (p : Port α) (f : α → State → Port β) : Port β :=
  match p with
  | .ok v s => f v s
  | .wait s => .wait s
  | .cause x s => .cause x s

/-- One part of an access: its virtual address, its length, and whether it is the second half of a split access (R148, R198). -/
structure Part where
  va : VAddr
  off : Nat
  len : Nat
  half : Bool
  deriving DecidableEq, Repr

/-- The parts of `n` bytes at `va`: two where they lie in two lines (R148). -/
def partsOf (va : VAddr) (n : Nat) : List Part :=
  let m := 64 - va.toNat % 64
  if n ≤ m then [⟨va, 0, n, false⟩] else [⟨va, 0, m, false⟩, ⟨va + BitVec.ofNat 48 m, m, n - m, true⟩]

/-- What an instruction translates after a part: the address, the access and the half of each part that follows. -/
abbrev Later := List (VAddr × Access × Bool)

/-- A part translated and checked under a ring: a miss waits for the walk, a fault is the access's cause (R208). -/
def State.partXlate (s : State) (c : Ctx) (ring : BitVec 2) (acc : Access) (p : Part) (later : Later) : Port (Part × Nat × MType) :=
  match s.xlate c ring p.va acc with
  | (.ok pa ty, s) => .ok (p, pa, ty) s
  | (.miss, s) => .wait (s.await c (.walk p.va acc p.half later))
  | (.fault r l, s) =>
    .cause { code := acc.faultCode, addr := p.va.zeroExtend 64, wr := acc.isWrite, half := p.half } (s.setTfsr c r l)

/-- Every part translated before anything is accessed (R198); `later` is what the instruction translates after them. -/
def State.partsXlate (s : State) (c : Ctx) (ring : BitVec 2) (acc : Access) (later : Later) :
    List Part → Port (List (Part × Nat × MType))
  | [] => .ok [] s
  | p :: t => (s.partXlate c ring acc p (t.map (fun q => (q.va, acc, q.half)) ++ later)).bind (fun v s =>
      (s.partsXlate c ring acc later t).bind (fun l s => .ok (v :: l) s))

/-- An access waits at its port, accepted (R22): its instruction issues it again. -/
def State.portWait (s : State) (c : Ctx) : State := s.setCtx c { s.ctx c with wait := .port }

/-- The access is made through the caches (R202): in the boot ROM only reads are. -/
def State.isCached (s : State) (pa : Nat) (ty : MType) (write : Bool) : Bool :=
  ty = .wb && !(write && s.region pa = .rom)

/-- The firewall's answer to a context's request (R215), recorded where it refuses. -/
def State.ctxRequest (s : State) (c : Ctx) (k : ReqKind) (pa n : Nat) : Bool × State :=
  let r : Request := ⟨s.whoOf c, s.ctxClass c, k, pa, n, true⟩
  match s.verdict r with
  | .refused x g => (true, s.recordRefusal r x g)
  | .allowed => (false, s)

/-- A context's request is held at its port (R22, R489). -/
def State.ctxHeld (s : State) (c : Ctx) (k : ReqKind) (pa n : Nat) : State :=
  (s.keepAccepted ⟨s.whoOf c, s.ctxClass c, k, pa, n, true⟩).portWait c

/-- An access misses the caches (R216): its line's fill is a request, which the firewall may refuse. -/
def State.lineMiss (s : State) (c : Ctx) (pa : Nat) (acc : Access) (half : Bool) (va : VAddr) : Port Unit :=
  match s.ctxRequest c .read (64 * lineOf pa) 64 with
  | (true, s) => .cause { code := 4, addr := va.zeroExtend 64, wr := acc.isWrite, half := half } s
  | (false, s) =>
    .wait ((s.keepAccepted ⟨s.whoOf c, s.ctxClass c, .read, 64 * lineOf pa, 64, true⟩).await c (.fill pa va acc half))

/-- An erroneous word that a data access of core `k` meets: a poisoned one, one of its data cache where that holds the line, else one of
the level-two cache or of the data cache that holds the line dirty. -/
def CErr.metBy (e : CErr) (k : Nat) (inL1 dirty : Bool) : Bool :=
  e.flips = poison || (if inL1 then e.src == 6 && e.core == k else e.src == 7 || (dirty && e.src == 6))

/-- The erroneous words of a line that an access meets: those it touches where its core's data cache holds the line, and every word of
the line where the level-two cache serves it (R231). A write reads no word that it writes whole, and goes on beside a word that was
installed poisoned for it (R233). -/
def State.lineMeets (s : State) (k : Fin 16) (l : CLine) (pa n : Nat) (write : Bool) : List CErr :=
  let inL1 := (s.core k).l1d.contains l.line
  let met := (if inL1 then l.touched pa n else l.errs).filter (fun e => e.metBy k.val inL1 l.dirty)
  if write then met.filter (fun e =>
    !(pa ≤ 64 * l.line + 8 * e.word && 64 * l.line + 8 * e.word + 8 ≤ pa + n) && (l.dirty || e.flips != poison))
  else met

/-- The line of an access is held by the context's quad, or the answer says what comes first (R216, R233): a line not held is filled;
an erroneous word that the access meets has its clean line removed to be fetched again, and in a dirty line an uncorrectable one is the
cause 0x21 of a read, while a write keeps off that word (`State.writeLine`). -/
def State.lineReady (s : State) (c : Ctx) (pa n : Nat) (acc : Access) (half : Bool) (va : VAddr) : Port Unit :=
  let k := coreOf c
  match s.l2Get (quadOf k) (lineOf pa) with
  | none => s.lineMiss c pa acc half va
  | some l =>
    let write : Bool := acc = .store || acc = .push
    let es := s.lineMeets k l pa n write
    if write && l.dirty && es.any CErr.fatal then .ok () s
    else match s.meet c.val (quadOf k) l es with
      | (.good, s) => .ok () s
      | (.again, s) => s.lineMiss c pa acc half va
      | (.bad, s) => .cause { code := 0x21, addr := BitVec.ofNat 64 (64 * lineOf pa), half := half } s

/-- A translated part of memory read: from the quad's caches, or as one request of its own (R201, R215). -/
def State.partRead (s : State) (c : Ctx) (acc : Access) (v : Part × Nat × MType) : Port (List Byte) :=
  let (p, pa, ty) := v
  if s.isCached pa ty false then
    (s.lineReady c pa p.len acc p.half p.va).bind (fun _ s =>
      .ok (s.quadBytes (quadOf (coreOf c)) pa p.len) (s.useData (coreOf c) (lineOf pa)))
  else match s.ctxRequest c .read pa p.len with
    | (true, s) => .cause { code := 4, addr := p.va.zeroExtend 64, half := p.half } s
    | (false, s) =>
      if s.memHeld pa then .wait (s.ctxHeld c .read pa p.len)
      else match (s.comes ⟨s.whoOf c, s.ctxClass c, .read, pa, p.len, true⟩).memRead c.val true pa p.len with
        | (some b, s) => .ok b s
        | (none, s) => .cause { code := 0x21, addr := BitVec.ofNat 64 (pa / 64 * 64), half := p.half } s

/-- An access error of the second part of an access comes before an uncorrectable error of the first (R178): each part that makes a
request of its own, or whose line must be filled, is checked by the firewall first. -/
def State.partsAllowed (s : State) (c : Ctx) (acc : Access) : List (Part × Nat × MType) → Port Unit
  | [] => .ok () s
  | (p, pa, ty) :: t =>
    let cached := s.isCached pa ty false
    if cached && s.l2Has (quadOf (coreOf c)) (lineOf pa) then s.partsAllowed c acc t
    else match s.ctxRequest c .read (if cached then 64 * lineOf pa else pa) (if cached then 64 else p.len) with
      | (true, s) => .cause { code := 4, addr := p.va.zeroExtend 64, wr := acc.isWrite, half := p.half } s
      | (false, s) => s.partsAllowed c acc t

/-- The parts read in order, and their bytes joined. -/
def State.partsTake (s : State) (c : Ctx) (acc : Access) : List (Part × Nat × MType) → Port (List Byte)
  | [] => .ok [] s
  | v :: t => (s.partRead c acc v).bind (fun b s => (s.partsTake c acc t).bind (fun l s => .ok (b ++ l) s))

/-- A read of memory in its parts (R178, R198). -/
def State.partsRead (s : State) (c : Ctx) (acc : Access) (l : List (Part × Nat × MType)) : Port (List Byte) :=
  (s.partsAllowed c acc l).bind (fun _ s => s.partsTake c acc l)

/-- A translated part is ready to be written: its line held, or its request allowed (R180, R198). -/
def State.partReady (s : State) (c : Ctx) (acc : Access) (d : List Byte) (v : Part × Nat × MType) : Port Unit :=
  let (p, pa, ty) := v
  if s.isCached pa ty true then s.lineReady c pa p.len acc p.half p.va
  else match s.ctxRequest c (.write d) pa p.len with
    | (true, s) => .cause { code := 4, addr := p.va.zeroExtend 64, wr := true, half := p.half } s
    | (false, s) => if s.memHeld pa then .wait (s.ctxHeld c (.write d) pa p.len) else .ok () s

/-- Every part ready before any is written (R198). -/
def State.partsReady (s : State) (c : Ctx) (acc : Access) (d : List Byte) : List (Part × Nat × MType) → Port Unit
  | [] => .ok () s
  | v :: t => (s.partReady c acc d v).bind (fun _ s => s.partsReady c acc d t)

/-- A ready part of memory written: into the line held uniquely, or as one request that lands (R220). -/
def State.partWrite (s : State) (c : Ctx) (d : List Byte) (v : Part × Nat × MType) : State :=
  let (p, pa, ty) := v
  let b := (d.drop p.off).take p.len
  if s.isCached pa ty true then (s.turnDirty (some (quadOf (coreOf c))) (lineOf pa)).writeLine (s.whoOf c) (coreOf c) pa b
  else
    let r : Request := ⟨s.whoOf c, s.ctxClass c, .write b, pa, p.len, true⟩
    (((s.comes r).uncached true pa).memWrite c.val pa b).2

/-- A read of memory by a context (R147, R198). -/
def State.portRead (s : State) (c : Ctx) (ring : BitVec 2) (acc : Access) (va : VAddr) (n : Nat) : Port (List Byte) :=
  (s.partsXlate c ring acc [] (partsOf va n)).bind (fun l s => s.partsRead c acc l)

/-- A write of memory by a context: both halves are translated and checked before either is written (R198). -/
def State.portWrite (s : State) (c : Ctx) (ring : BitVec 2) (acc : Access) (va : VAddr) (d : List Byte) : Port Unit :=
  (s.partsXlate c ring acc [] (partsOf va d.length)).bind (fun l s =>
    (s.partsReady c acc d l).bind (fun _ s => .ok () (l.foldl (fun s v => s.partWrite c d v) s)))

/-- What an instruction does with the answer of its access: a cause is taken, a wait leaves the instruction to issue again. -/
def Port.finish {α : Type} (p : Port α) (c : Ctx) (f : α → State → State) : State :=
  match p with
  | .ok v s => f v s
  | .wait s => s
  | .cause x s => s.takeSync c x

/-- Slots added where an access lies in two lines (R148). -/
def splitCost (va : VAddr) (n : Nat) : Nat := if 64 < va.toNat % 64 + n then 1 else 0

/-- A read within one line with its walk and its line fill made at once, for latch refills and the frames that returns read
(R125, R176). -/
def State.readNow (s : State) (c : Ctx) (ring : BitVec 2) (acc : Access) (va : VAddr) (n : Nat) : Port (List Byte) :=
  let w := (s.ctx c).wait
  match s.xlateNow c ring va acc with
  | (.fault _ _, _, s) => .cause { code := acc.faultCode, addr := va.zeroExtend 64 } s
  | (_, some k, s) => .cause k s
  | (_, none, s) =>
    match s.portRead c ring acc va n with
    | .ok b s => .ok b s
    | .cause k s => .cause k s
    | .wait s =>
      match (s.ctx c).wait with
      | .fill pa _ _ _ =>
        let s := s.setCtx c { s.ctx c with wait := w }
        if s.memHeld pa then .wait s
        else match s.fillLine (s.whoOf c) (s.ctxClass c) (quadOf (coreOf c)) (lineOf pa) false false with
          | (true, s) => .cause { code := 0x21, addr := BitVec.ofNat 64 (pa / 64 * 64) } s
          | (false, s) => s.portRead c ring acc va n
      | _ => .wait (s.setCtx c { s.ctx c with wait := w })

/-- The return-target latch is refilled from the entry at rsp, where the stack is not empty (R125). -/
def State.refill (s : State) (c : Ctx) : Port Unit :=
  let x := s.ctx c
  if x.rsp.toNat < x.rstop.toNat then
    (s.readNow c x.status.ring .latch x.rsp 8).bind (fun b s =>
      .ok () (s.setCtx c { s.ctx c with latch := some (BitVec.ofNat 48 (leNat b)) }))
  else .ok () s

end Sys2Proof.Machine
end

