-- ==== Sys2Proof/WellFormed.lean ====
section
/-! DEFINITION. Which commands are well formed: the checks on operands that Syntax's types leave open. -/

namespace Sys2Proof
open Machine

/-- An immediate shift amount fits the form: SH[5] is 0 in a W form (R146). -/
def wfAmtW : Amt → Bool
  | .imm n => n.toNat < 32
  | .reg _ => true

/-- A fabric request lies within one 64-byte line, has a 40-bit address, and carries as many bytes as it says (R11). -/
def wfRequest (r : Request) : Bool :=
  0 < r.len && r.addr % 64 + r.len ≤ 64 && r.addr < 2 ^ 40 &&
  (match r.who with
   | .ctx _ _ => r.coh
   | .pipe _ => !r.coh
   | _ => true) &&
  match r.kind with
  | .read => true
  | .write d => d.length == r.len
  | .fullLine d => d.length == 64 && r.len == 64
  | .atomic _ _ => (r.len == 4 || r.len == 8) && r.addr % r.len == 0

/-- A command's operands are ones the spec gives it. -/
def Instr.wf : Instr → Bool
  | .fabricRequest r => wfRequest r
  | .registerWrite _ a _ _ => 0x10000000 ≤ a && a < 0x11200000 && a % 4 == 0
  | .sllw _ _ _ m => wfAmtW m
  | .srlw _ _ _ m => wfAmtW m
  | .sraw _ _ _ m => wfAmtW m
  | .cvt _ src dst _ _ => Hymota.convertible src dst
  | .rdc _ _ n => Hymota.readable n
  | .wrc _ _ n => Hymota.writable n
  | .emulationTrap c w => (Hymota.decode c w).isNone
  | .lockstepMismatch k => 1 ≤ k.toNat && k.toNat ≤ 5
  | _ => true

end Sys2Proof
end

