-- ==== Sys2Proof/Machine/Control.lean ====
section
/-! DEFINITION. Control registers (R112 to R118, R163, R181, R209), the mode shadow's end (R116) and the emulation trap (R136 to R138). -/

namespace Sys2Proof.Machine

/-- A control register's value (R113, R181, R209). -/
def Context.creg (x : Context) (c : Ctx) (n : Nat) : Dword :=
  match n with
  | 0x000 => x.status.word
  | 0x001 => x.asid.zeroExtend 64
  | 0x002 => BitVec.ofNat 64 c.val
  | 0x003 => x.icount
  | 0x004 => x.flags.word
  | 0x005 => x.fpcsr.zeroExtend 64
  | 0x010 => x.lc
  | 0x011 => x.ls.zeroExtend 64
  | 0x012 => x.le.zeroExtend 64
  | 0x018 => x.rsp.zeroExtend 64
  | 0x019 => x.rsbase.zeroExtend 64
  | 0x01A => x.rstop.zeroExtend 64
  | 0x030 => x.vbase.zeroExtend 64
  | 0x031 => x.xsp.zeroExtend 64
  | 0x032 => x.xlim.zeroExtend 64
  | 0x033 => x.xcause
  | 0x034 => x.xaddr
  | 0x035 => x.gtbase.zeroExtend 64
  | 0x036 => x.gtcount.zeroExtend 64
  | 0x037 => x.tackrem.zeroExtend 64
  | 0x040 => x.ldepth.zeroExtend 64
  | 0x041 => x.lcause
  | 0x042 => x.lxaddr
  | 0x043 => x.lpend.zeroExtend 64
  | 0x080 => x.ptroot.zeroExtend 64
  | 0x081 => x.tfsr.zeroExtend 64
  | 0x0E0 => x.emword.zeroExtend 64
  | _ => 0

/-- A value with its low `k` bits cleared, at an address's width. -/
def alignTo (w k : Nat) (v : Dword) : BitVec w := BitVec.ofNat w (v.toNat / 2 ^ k * 2 ^ k)

/-- A control register written at once, under the bits it holds (R113, R114, R181, R209). A write of rsp empties the return-target
latch for its refill (R125). -/
def Context.setCreg (x : Context) (n : Nat) (v : Dword) : Context :=
  match n with
  | 0x000 => { x with status := x.status.wrc v }
  | 0x001 => { x with asid := BitVec.ofNat 12 v.toNat }
  | 0x004 => { x with flags := CFlags.ofWord v }
  | 0x005 => { x with fpcsr := BitVec.ofNat 9 v.toNat &&& 0x1F3 }
  | 0x010 => { x with lc := v }
  | 0x011 => { x with ls := alignTo 48 2 v }
  | 0x012 => { x with le := alignTo 48 2 v }
  | 0x018 => { x with rsp := alignTo 48 3 v, latch := none }
  | 0x019 => { x with rsbase := alignTo 48 3 v }
  | 0x01A => { x with rstop := alignTo 48 3 v }
  | 0x030 => { x with vbase := alignTo 48 12 v }
  | 0x031 => { x with xsp := alignTo 48 6 v }
  | 0x032 => { x with xlim := alignTo 48 6 v }
  | 0x035 => { x with gtbase := alignTo 40 4 v }
  | 0x036 => { x with gtcount := BitVec.ofNat 11 (min v.toNat 1024) }
  | 0x040 => { x with ldepth := BitVec.ofNat 5 (min v.toNat 16) }
  | 0x080 => { x with ptroot := alignTo 40 12 v }
  | _ => x

/-- The highest ring that reads a control register, or none where only the Lining level does (R113, R181, R209). -/
def readRing (n : Nat) : Option Nat :=
  if n = 0x040 ∨ n = 0x041 ∨ n = 0x042 ∨ n = 0x043 then none
  else if n ∈ [0x000, 0x002, 0x003, 0x004, 0x005, 0x010, 0x011, 0x012, 0x018] then some 3 else some 0

/-- The highest ring that writes a control register, or none where only the Lining level does. -/
def writeRing (n : Nat) : Option Nat :=
  if n = 0x040 then none else if n ∈ [0x004, 0x005, 0x010, 0x011, 0x012] then some 3 else some 0

/-- The privileged-instruction cause of an access whose ring column is `r` (R112, R181). -/
def State.cregPrivileged (s : State) (c : Ctx) (r : Option Nat) : Option Cause :=
  match r with
  | some n => s.privileged c n
  | none => if (s.ctx c).status.lvl then none else some { code := 5, addr := 0 }

/-- A reserved encoding executes (R137): the emulation trap, with the word in emword. Nothing else changes. -/
def State.emulate (s : State) (c : Ctx) (w : Word) : State :=
  s.issue c (fun s => (s.setCtx c { s.ctx c with emword := w }).takeSync c { code := 6, addr := 0 })

/-- EMULATION_TRAP (R136, R137). -/
def execEmulationTrap (c : Ctx) (word : Word) (s : State) : Out :=
  if (Hymota.decode c word).isNone then .next (s.emulate c word) else .next s

/-- RDC (R112, R163); a number that is not implemented is a reserved encoding (R136, R138). -/
def execRdc (c : Ctx) (rd : Gpr) (num : BitVec 12) (s : State) : Out :=
  if Hymota.readable num then
    .next (s.instr c .plain (s.cregPrivileged c (readRing num.toNat)) (fun s =>
      (s.wg c rd ((s.ctx c).creg c num.toNat)).done c 1))
  else .next (s.emulate c (Hymota.wordI 0x31 rd 0 (num.zeroExtend 16)))

/-- WRC (R112, R114, R116, R163): status and asid take effect after two further instructions, every other register at W. At le, the loop
decision is taken with the old lc, ls and le, and the written value then stands (DESIGN CHOICE, log 75). -/
def execWrc (c : Ctx) (rs2 : Gpr) (num : BitVec 12) (s : State) : Out :=
  if Hymota.writable num then
    .next (s.instr c .plain (s.cregPrivileged c (writeRing num.toNat)) (fun s =>
      let x := s.ctx c
      let v := x.rg rs2
      let y := x.complete 1 false false none
      if num = 0 || num = 1 then s.setCtx c { y with shadows := y.shadows ++ [⟨num = 1, v, 2⟩] }
      else s.setCtx c (y.setCreg num.toNat v)))
  else .next (s.emulate c (Hymota.wordI 0x32 rs2 0 (num.zeroExtend 16)))

/-- MODE_SHADOW_END (R116): every write of status or asid whose two instructions have issued takes effect, oldest first. -/
def execModeShadowEnd (c : Ctx) (s : State) : Out :=
  let x := s.ctx c
  let due := x.shadows.filter (fun h => h.left == 0)
  .next (s.setCtx c { due.foldl Context.applyShadow x with shadows := x.shadows.filter (fun h => h.left != 0) })

end Sys2Proof.Machine
end

