-- ==== Sys2Proof/Machine/System.lean ====
section
/-! DEFINITION. The SYS group and the waits it and the caches end (R166): gates and returns (R176, R182 to R184), STOP, SLEEP, tack
windows (R194 to R196), breakpoints (R531), TLB and cache maintenance (R211, R217), table walks (R207) and line fills (R216). Readings and choices: log 62. -/

namespace Sys2Proof.Machine

/-- What a killed context has claimed (R248): its claims in the queue are released when they are granted, and an answer that its load has not
taken is released at once. -/
def State.dropClaims (s : State) (c : Ctx) : State :=
  let got := (s.evc.answers.filter (fun p => p.1 == c.val && p.2 != 0x7FF)).map (fun p => p.2)
  let s := { s with evc := { s.evc with
    claims := s.evc.claims.map (fun q => if q.ctx = c then { q with dead := true } else q)
    answers := s.evc.answers.filter (fun p => p.1 != c.val) } }
  got.foldl State.unclaim s

/-- An event that the entry in progress of a killed context has claimed is released (R193, R248). -/
def State.dropEntry (s : State) (c : Ctx) : State :=
  match (s.ctx c).entry with
  | some e => if e.kind = .event ∧ e.claimed ∧ e.num ≠ 0x7FF then s.unclaim e.num else s
  | none => s

/-- A KILL sampled in a context that runs, sleeps or is halted (R99): it takes no further grant, and an entry in progress ends
(R193). -/
def State.killNow (s : State) (c : Ctx) : State :=
  let s := (s.dropEntry c).dropClaims c
  s.setCtx c { s.ctx c with run := .killing, entry := none, wait := .none, heldKill := false, haltReq := none, brpt := none }

/-- The doublewords of a frame read from memory. -/
def frameOf (b : List Byte) (i : Nat) : Nat := leNat ((b.drop (8 * i)).take 8)

/-- pc and npc put in place by a return or a debugger: the next instruction is a delay slot where the pair is not sequential
(R110, R197; log 22), and where the frame of a return says so and its pc is that of a delay slot saved: a pair that a handler has moved on
to a branch's target (R138) names no slot. -/
def Context.setPair (x : Context) (ds : Bool) (pc npc : VAddr) : Context :=
  { x with
    pc := pc, npc := npc, slot := (ds && x.dsSaved.contains pc) || npc != pc + 4, annul := false, brpt := none,
    dsSaved := if !ds then x.dsSaved else if x.dsSaved.contains pc then x.dsSaved.erase pc else x.dsSaved.drop 1 }

/-- A return restores a frame (R176, R196): pc, npc, g30, g31, and status; LVL comes from the frame only in the Lining level, tackrem comes
with the window, and a restored count of 0 leaves it closed. An ERET or GATE at le takes the loop decision, of which only lc remains
(R120, R121; log 75). -/
def Context.restore (x : Context) (b : List Byte) (cost : Nat) : Context :=
  let st := BitVec.ofNat 64 (frameOf b 2)
  let count := frameOf b 5 % 8192
  let status : Status := ⟨st.getLsbD 6, st.getLsbD 4 && count ≠ 0, st.getLsbD 3, x.status.lvl && st.getLsbD 2, BitVec.ofNat 2 st.toNat⟩
  let lc := (x.loopDecision (x.npc, x.npc + 4)).2
  let x := x.setPair (frameOf b 3 / 2 ^ 16 % 2 == 1)
    (alignTo 48 2 (BitVec.ofNat 64 (frameOf b 0))) (alignTo 48 2 (BitVec.ofNat 64 (frameOf b 1)))
  { x with
    status := status, tackrem := BitVec.ofNat 13 count, lc := lc,
    g := (x.g.set 30 (BitVec.ofNat 64 (frameOf b 6))).set 31 (BitVec.ofNat 64 (frameOf b 7)),
    icount := x.icount + 1, slots := x.slots + cost }

/-- A KILL held while the context ran in the Lining level acts when it has left it (R100, R176). -/
def State.afterReturn (s : State) (c : Ctx) : State :=
  let x := s.ctx c
  if x.heldKill && !x.status.lvl then s.killNow c else s

/-- A return from the frame at xsp outside the Lining level (R176, R184); a failing read is the Lining entry with code 0x26. `check`
may stop it with a gate fault. A read that is held waits at its port (R22). -/
def State.returnFrom (s : State) (c : Ctx) (cost : Nat) (check : List Byte → Option Cause) : State :=
  let x := s.ctx c
  let flushed := s.setCtx c x.flushShadows
  match flushed.readNow c 0 .load x.xsp 64 with
  | .wait s' => s'.setCtx c { x with wait := .port }
  | .cause _ s' => (s'.setCtx c { s'.ctx c with shadows := x.shadows }).takeSync c { code := 0x26, addr := x.xsp.zeroExtend 64 }
  | .ok b s' =>
    match check b with
    | some k => s.takeSync c k
    | none => (s'.setCtx c { (s'.ctx c).restore b cost with xsp := x.xsp + 64 }).afterReturn c

/-- ERET (R176). -/
def execEret (c : Ctx) (s : State) : Out :=
  .next (s.instr c .transfer (s.privileged c 0) (fun s =>
    let x := s.ctx c
    if x.status.lvl then
      let d := max x.ldepth.toNat 1
      let f := liningFrame c d
      match (s.comes ⟨.ctx c true, s.ctxClass c, .read, f, 64, true⟩).memRead c.val true f 64 with
      | (none, s) => s.takeSync c { code := 0x26, addr := BitVec.ofNat 64 f }
      | (some b, s) =>
        let x := (s.ctx c).flushShadows
        (s.setCtx c { x.restore b 8 with ldepth := BitVec.ofNat 5 (x.ldepth.toNat - 1) }).afterReturn c
    else s.returnFrom c 8 (fun _ => none)))

/-- A gate fault (R183). -/
def gateFault (g sub : Nat) : Cause := { code := 0xD, addr := 0, sub := sub, num := g }

/-- The gate descriptor read as an uncached load with the Lining bit clear (R182): its two doublewords. -/
def State.readGate (s : State) (c : Ctx) (a : Nat) : Port (Nat × Nat) :=
  let r : Request := ⟨.ctx c false, s.ctxClass c, .read, a, 16, true⟩
  match s.verdict r with
  | .refused n g => .cause { code := 4, addr := BitVec.ofNat 64 a } (s.recordRefusal r n g)
  | .allowed =>
    if s.memHeld a then .wait ((s.keepAccepted r).portWait c)
    else match (s.comes r).memRead c.val true a 16 with
      | (some b, s) => .ok (leNat (b.take 8), leNat (b.drop 8)) s
      | (none, s) => .cause { code := 0x21, addr := BitVec.ofNat 64 (a / 64 * 64) } s

/-- The descriptor's TYPE and reserved bits are valid (R182, R183). -/
def gateValid (d0 d1 : Nat) : Bool :=
  (d1 / 256 % 4 = 1 || d1 / 256 % 4 = 2) && d0 / 2 ^ 48 = 0 && d0 % 4 = 0 && d1 / 1024 = 0 && d1 / 8 % 2 = 0

/-- GATE (R182 to R184, R189): the checks in their order, then a call's entry with cause code 0x11 or a return. -/
def execGate (c : Ctx) (rs1 : Gpr) (s : State) : Out :=
  .next (s.instr c .transfer none (fun s =>
    let x := s.ctx c
    let g := (x.rg rs1).toNat % 1024
    let ring := x.status.ring.toNat
    if x.status.lvl then s.takeSync c (gateFault g 7)
    else if x.gtcount.toNat ≤ g then s.takeSync c (gateFault g 1)
    else (s.readGate c ((x.gtbase.toNat + 16 * g) % 2 ^ 40)).finish c (fun d s =>
      if !gateValid d.1 d.2 then s.takeSync c (gateFault g 2)
      else if d.2 / 16 / 2 ^ ring % 2 = 0 then s.takeSync c (gateFault g 3)
      else if d.2 / 256 % 4 = 1 then
        if ring < d.2 % 4 then s.takeSync c (gateFault g 4)
        else
          let d' := x.loopDecision (x.pc + 4, x.pc + 8)
          let s := s.setCtx c { s.ctx c with icount := (s.ctx c).icount + 1, lc := d'.2 }
          s.startEntry c (.gate (BitVec.ofNat 48 d.1) (BitVec.ofNat 2 d.2) (d.2 / 4 % 2 = 1))
            { code := 0x11, addr := 0, num := g } false d'.1.1 d'.1.2
      else s.returnFrom c 12 (fun b =>
        if frameOf b 3 % 256 ≠ 0x11 then some (gateFault g 5)
        else if frameOf b 2 % 4 < ring then some (gateFault g 6) else none))))

/-- STOP (R101). A KILL held by the Lining level finds the context Off (R100; log 70). -/
def execStop (c : Ctx) (s : State) : Out :=
  .next (s.instr c .plain (s.privileged c 0) (fun s => (s.done c 1).stopSelf c))

/-- A tack window closes without an event (R195, R196). -/
def Context.closeTack (x : Context) : Context := { x with status := { x.status with tack := false }, tackrem := 0 }

/-- SLEEP (R195, R251). -/
def execSleep (c : Ctx) (s : State) : Out :=
  .next (s.instr c .plain none (fun s =>
    let s := s.done c 1
    s.setCtx c { (s.ctx c).closeTack with run := .asleep }))

/-- TACK (R194): with a window open or a = 0 nothing changes. -/
def execTack (c : Ctx) (rs1 : Gpr) (s : State) : Out :=
  .next (s.instr c .plain (s.privileged c 0) (fun s =>
    let x := s.ctx c
    let a := (x.rg rs1).toNat
    let x := if x.status.tack || a = 0 then x
      else { x with status := { x.status with tack := true }, tackrem := BitVec.ofNat 13 (min a 4096) }
    (s.setCtx c x).done c 1))

/-- UNTACK (R195). -/
def execUntack (c : Ctx) (s : State) : Out :=
  .next (s.instr c .plain (s.privileged c 0) (fun s => (s.setCtx c (s.ctx c).closeTack).done c 1))

/-- TACK_EXPIRY (R195): an open window whose count has run out closes and raises the core's tack-expiry event. -/
def execTackExpiry (c : Ctx) (s : State) : Out :=
  let x := s.ctx c
  if x.status.tack ∧ x.tackrem = 0 then .next ((s.setCtx c x.closeTack).raise (coreEvent c 5)) else .next s

/-- BRK (R531): claimed by the debugger outside the Lining level it completes, and its context halts at the boundary after it;
otherwise it is the breakpoint exception. -/
def execBrk (c : Ctx) (s : State) : Out :=
  .next (s.instr c .plain none (fun s =>
    if s.flag Reg.DBG_CTRL Fld.DBG_CTRL_BRKCLAIM && !s.flag Reg.DBG_CTRL Fld.DBG_CTRL_NOHALT && !(s.ctx c).status.lvl then
      let s := s.done c 1
      let s := s.setCtx c { s.ctx c with haltReq := some true }
      let a := Reg.DBG_BSTAT (c.val / 32)
      s.setReg a (s.reg a ||| BitVec.ofNat 32 (2 ^ (c.val % 32)))
    else s.takeSync c { code := 0xC, addr := 0 }))

/-- Target-buffer entries of an address-space identifier leave every core (R89, R211). -/
def State.dropTargets (s : State) (asid : BitVec 12) : State :=
  (List.finRange 16).foldl (fun s k => s.setCore k { s.core k with tbuf := (s.core k).tbuf.filter (fun e => e.asid != asid) }) s

/-- TLBI.VA (R211): every entry covering a in address space b[11:0], and every global entry covering a. -/
def execTlbiVa (c : Ctx) (rs1 rs2 : Gpr) (s : State) : Out :=
  .next (s.instr c .plain (s.privileged c 0) (fun s =>
    let va := toVa (s.rg c rs1)
    let asid := BitVec.ofNat 12 (s.rg c rs2).toNat
    (s.filterTlbs (fun e => !e.coversVa va asid)).done c 2))

/-- TLBI.AS (R89, R211). -/
def execTlbiAs (c : Ctx) (rs2 : Gpr) (s : State) : Out :=
  .next (s.instr c .plain (s.privileged c 0) (fun s =>
    let asid := BitVec.ofNat 12 (s.rg c rs2).toNat
    ((s.filterTlbs (fun e => e.glob || e.asid != asid)).dropTargets asid).done c 2))

/-- TLBI.ALL (R211). -/
def execTlbiAll (c : Ctx) (s : State) : Out :=
  .next (s.instr c .plain (s.privileged c 0) (fun s => (s.filterTlbs (fun _ => false)).done c 2))

/-- A maintenance instruction on the line holding a (R166, R208, R217): translated and checked, and then, on a cacheable page, `f`
acts on the line in every cache of the device. -/
def State.maintain (s : State) (c : Ctx) (rs1 : Gpr) (acc : Access) (f : Nat → State → State) : State :=
  s.instr c .plain (s.privileged c 0) (fun s =>
    let va := toVa (s.rg c rs1)
    (s.partXlate c (s.ctx c).status.ring acc ⟨va, 0, 1, false⟩ []).finish c (fun v s =>
      (if s.isCached v.2.1 v.2.2 false then f (lineOf v.2.1) s else s).done c 1))

/-- DC.CLN (R217): dirty copies are written back and stay valid. -/
def execDcCln (c : Ctx) (rs1 : Gpr) (s : State) : Out :=
  .next (s.maintain c rs1 .dcRead (fun ln s => s.snoop none ln false))

/-- DC.INV (R217): every copy leaves, unwritten. -/
def execDcInv (c : Ctx) (rs1 : Gpr) (s : State) : Out :=
  .next (s.maintain c rs1 .dcInv (fun ln s => allQuads.foldl (fun s q => s.dropLine q ln) s))

/-- DC.CI (R217): dirty copies are written back, and every copy leaves. -/
def execDcCi (c : Ctx) (rs1 : Gpr) (s : State) : Out :=
  .next (s.maintain c rs1 .dcRead (fun ln s => s.snoop none ln true))

/-- DC.ZERO (R217): the whole line is zeroed without reading memory; a refusal raises X. -/
def execDcZero (c : Ctx) (rs1 : Gpr) (s : State) : Out :=
  .next (s.instr c .plain none (fun s =>
    let va := toVa (s.rg c rs1) &&& ~~~(63 : VAddr)
    (s.partXlate c (s.ctx c).status.ring .dcZero ⟨va, 0, 64, false⟩ []).finish c (fun v s =>
      match s.fullLine c v.2.1 v.2.2 (List.replicate 64 0) with
      | (.refused, s) => s.takeSync c { code := 4, addr := va.zeroExtend 64, wr := true }
      | (.held, s) => s.portWait c
      | (.made, s) => s.done c 1)))

/-- The first translation fault of what an instruction translates after a walk that fails (R178): `none` where there is none, and no answer
where a walk for it is held. -/
def State.laterFault (s : State) (c : Ctx) : Later → Option (Option (VAddr × Access × Bool × Nat × Nat)) × State
  | [] => (some none, s)
  | (va, acc, half) :: t =>
    match s.xlateNow c (s.ctx c).status.ring va acc with
    | (.fault r l, _, s) => (some (some (va, acc, half, r, l)), s)
    | (.miss, none, s) => (none, s)
    | (_, _, s) => s.laterFault c t

/-- A walk fails for another cause than a fault: a translation fault of a later part of its instruction comes first (R178). -/
def State.walkFails (s : State) (c : Ctx) (later : Later) (cause : Cause) : State :=
  match s.laterFault c later with
  | (some (some (va, acc, half, r, l)), s) => (s.setCtx c { s.ctx c with wait := .none }).takeXlFault c acc va half r l
  | (some none, s) => (s.setCtx c { s.ctx c with wait := .none }).takeSync c cause
  | (none, s) => s

/-- TABLE_WALK (R207): the walk that the context waits for installs a leaf, or reports a fault. -/
def execTableWalk (c : Ctx) (upsets : Upsets) (s : State) : Out :=
  match (s.ctx c).run, (s.ctx c).wait with
  | .active, .walk va acc half later =>
    match (s.strike upsets).walk c va with
    | (.leaf e, s) => let s := s.installLeaf c (acc = .fetch) e
                      .next (s.setCtx c { s.ctx c with wait := .none })
    | (.fault r l, s) => .next ((s.setCtx c { s.ctx c with wait := .none }).takeXlFault c acc va half r l)
    | (.refused, s) => .next (s.walkFails c later { code := 4, addr := va.zeroExtend 64, wr := acc.isWrite, half := half })
    | (.uncorrectable a, s) => .next (s.walkFails c later { code := 0x21, addr := BitVec.ofNat 64 (a / 64 * 64) })
    | (.held, s) => .next s
  | _, _ => .next s

/-- What the fill of a line comes to: filled, an uncorrectable error that a read found, or a refusal. -/
inductive FillResult where
  | filled | uncorrectable | refused
  deriving DecidableEq, Repr

/-- A line that the quad does not hold is filled by memory: under the verdict that its miss had, or, where it was held then, a new one
(R215); a channel that has failed its training meanwhile refuses it (R489). -/
def State.fillMemory (s : State) (c : Ctx) (ln : Nat) (unique store : Bool) : FillResult × State :=
  let cls := s.missClass c
  let r : Request := ⟨s.whoOf c, cls, .read, 64 * ln, 64, true⟩
  match s.verdict r with
  | .refused n g => (.refused, (s.dropAccepted r).recordRefusal r n g)
  | .allowed =>
    let f := (s.dropAccepted r).fillLine (s.whoOf c) cls (quadOf (coreOf c)) ln unique store
    (if f.1 then .uncorrectable else .filled, f.2)

/-- The fill that a context waits for is made (R216): by its quad's level-two cache where that holds the line, which an atomic operation
needs to be the only copy, in one data cache (R161), else by memory. A read that finds an uncorrectable error installs nothing (R233). -/
def State.fillFor (s : State) (c : Ctx) (pa : Nat) (acc : Access) : FillResult × State :=
  let q := quadOf (coreOf c)
  let ln := lineOf pa
  let store : Bool := acc = .store || acc = .push
  let unique : Bool := store || acc = .atomic
  match s.l2Get q ln with
  | some l =>
    let s := if unique then (s.snoop (some q) ln true).aloneInQuad (coreOf c) ln else s
    let met := l.errs.filter (fun e => e.src == 7 || (l.dirty && e.src == 6))
    match s.meet c.val q l (if store then met.filter (fun e => !l.dirty && e.flips != poison) else met) with
      | (.good, s) => (.filled, s.useL2 q ln)
      | (.again, s) => s.fillMemory c ln unique store
      | (.bad, s) => (.uncorrectable, s)
  | none => s.fillMemory c ln unique store

/-- LINE_FILL_COMPLETE (R216, R233): the line that the context waits for is filled, and the context is ready again; a fill for a
read that finds an uncorrectable error installs nothing and takes 0x21, and a refused one raises X (R180). -/
def execLineFillComplete (c : Ctx) (upsets : Upsets) (s : State) : Out :=
  match (s.ctx c).run, (s.ctx c).wait with
  | .active, .fill pa va acc half =>
    if s.memHeld pa then .next s
    else
      match (s.strike upsets).fillFor c pa acc with
      | (.uncorrectable, s) => .next ((s.setCtx c { s.ctx c with wait := .none }).takeSync c
          { code := 0x21, addr := BitVec.ofNat 64 (pa / 64 * 64), half := half })
      | (.refused, s) => .next ((s.setCtx c { s.ctx c with wait := .none }).takeSync c
          { code := 4, addr := va.zeroExtend 64, wr := acc.isWrite, half := half })
      | (.filled, s) =>
        let s := if acc = .fetch then s.useL1i (coreOf c) (lineOf pa) else s.useL1d (coreOf c) (lineOf pa)
        .next (s.setCtx c { s.ctx c with wait := .none })
  | _, _ => .next s

end Sys2Proof.Machine
end

