-- ==== Sys2Proof/Machine/Debug.lean ====
section
/-! DEFINITION. The DBG block (R528 to R532): halts and resumes of contexts, and their registers while they stand still. Readings and choices: logs 55, 58. -/

namespace Sys2Proof.Machine

/-- NOHALT keeps a halt or resume write out (R528, R529). -/
def State.noHalt (s : State) (who : Who) : Bool := s.flag Reg.DBG_CTRL Fld.DBG_CTRL_NOHALT && !who.lining

/-- A context becomes Halted (R528). -/
def State.haltNow (s : State) (c : Ctx) (resumeTo : Run) : State :=
  (s.setCtx c { s.ctx c with run := .halted, resumeTo := resumeTo, haltReq := none, brpt := none }).raise 1360

/-- A request to halt a context (R528): an Asleep one halts at once, unless the Lining level holds the request. -/
def State.haltRequest (s : State) (who : Who) (c : Ctx) : State :=
  let x := s.ctx c
  let ask := s.setCtx c { x with haltReq := some (who.lining || x.haltReq == some true) }
  if s.noHalt who || s.lockedOut c then s
  else match x.run with
    | .active => ask
    | .asleep => if x.status.lvl && !who.lining then ask else s.haltNow c .asleep
    | _ => s

/-- The contexts whose bits of word `w` a write sets. -/
def maskCtxs (w : Nat) (data : Word) : List Ctx :=
  ((List.range 32).filter (fun i => data.getLsbD i)).map (fun i => Fin.ofNat 128 (32 * w + i))

/-- A write to DBG_HALTw. -/
def State.haltLand (s : State) (who : Who) (w : Nat) (data : Word) : State :=
  (maskCtxs w data).foldl (fun s c => s.haltRequest who c) s

/-- HALT_REQUEST (R528). -/
def execHaltRequest (who : Who) (w : Fin 4) (data : Word) (s : State) : Out := .next (s.haltLand who w data)

/-- CONTEXT_HALT (R528): an Active context halts at its next instruction boundary at which no entry is in progress; a block-repeat group
completes first. -/
def execContextHalt (c : Ctx) (s : State) : Out :=
  let x := s.ctx c
  if x.canIssue ∧ x.inAccess = false ∧ x.annul = false ∧ x.midGroup = false ∧ x.haltDue then .next (s.haltNow c .active) else .next s

/-- A resume of a Halted context (R529, R187). -/
def State.resume (s : State) (who : Who) (c : Ctx) : State :=
  let x := s.ctx c
  if s.noHalt who || x.run ≠ .halted then s
  else s.setCtx c { x with run := if x.resumeTo = .asleep && x.lpend ≠ 0 then .active else x.resumeTo }

/-- A write to DBG_RESUMEw. -/
def State.resumeLand (s : State) (who : Who) (w : Nat) (data : Word) : State :=
  (maskCtxs w data).foldl (fun s c => s.resume who c) s

/-- CONTEXT_RESUME (R529). -/
def execContextResume (who : Who) (w : Fin 4) (data : Word) (s : State) : Out := .next (s.resumeLand who w data)

/-- The context that DBG_RSEL selects. -/
def State.rselCtx (s : State) : Ctx := Fin.ofNat 128 (s.fld Reg.DBG_RSEL Fld.DBG_RSEL_CTX)

/-- The register that DBG_RSEL selects. -/
def State.rselReg (s : State) : Nat := s.fld Reg.DBG_RSEL Fld.DBG_RSEL_REG

/-- An access to the selected register is performed (R530): the context is Halted, the register listed or implemented, and one
whose ring column holds L is reached with the Lining bit. -/
def State.rselOpen (s : State) (who : Who) : Bool :=
  let n := s.rselReg
  (s.ctx s.rselCtx).run == .halted &&
  (n ≤ 0x21 ||
   (0x1000 ≤ n && n ≤ 0x1FFF && Hymota.readable (BitVec.ofNat 12 (n - 0x1000)) &&
    (who.lining || ((readRing (n - 0x1000)).isSome && (n - 0x1000) ≠ 0x040))))

/-- The value of the selected register. -/
def State.rselValue (s : State) : Dword :=
  let n := s.rselReg
  let x := s.ctx s.rselCtx
  if n < 32 then x.rg (BitVec.ofNat 5 n)
  else if n = 0x20 then x.pc.zeroExtend 64
  else if n = 0x21 then x.npc.zeroExtend 64
  else x.creg s.rselCtx (n - 0x1000)

/-- A refused access of R530. -/
def State.rselRefused (s : State) : State := s.setFld Reg.DBG_STAT Fld.DBG_STAT_RERR 1

/-- A read of DBG_RDATL (R530). -/
def State.rdatlRead (s : State) (who : Who) : State :=
  if s.rselOpen who then
    let v := s.rselValue
    let s := { s with dbg := { s.dbg with latches := Sparse.put who.id (BitVec.ofNat 32 (v.toNat / 2 ^ 32)) s.dbg.latches } }
    s.respondWord who (BitVec.ofNat 32 v.toNat)
  else s.rselRefused.respondWord who 0

/-- DBG_RDATL_READ (R530). -/
def execDbgRdatlRead (who : Who) (s : State) : Out := .next (s.rdatlRead who)

/-- A write to the selected register (R530). -/
def State.rselWrite (s : State) (v : Dword) : State :=
  let n := s.rselReg
  let c := s.rselCtx
  let x := s.ctx c
  if n < 32 then s.setCtx c (x.wg (BitVec.ofNat 5 n) v)
  else if n = 0x20 then s.setCtx c (x.setPair false (alignTo 48 2 v) x.npc)
  else if n = 0x21 then s.setCtx c (x.setPair false x.pc (alignTo 48 2 v))
  else if Hymota.writable (BitVec.ofNat 12 (n - 0x1000)) then s.setCtx c (x.setCreg (n - 0x1000) v)
  else s

/-- A write of DBG_RDATL (R530). -/
def State.rdatlWrite (s : State) (who : Who) (data : Word) : State :=
  if s.rselOpen who then s.rselWrite (BitVec.ofNat 64 (data.toNat + (s.reg Reg.DBG_RDATH).toNat * 2 ^ 32))
  else s.rselRefused

/-- DBG_RDATL_WRITE (R530). -/
def execDbgRdatlWrite (who : Who) (data : Word) (s : State) : Out := .next (s.rdatlWrite who data)

/-- The TAP controller's next state at a rising DBG_TCK with a level of DBG_TMS (R533: as IEEE 1149.1 has it; PRESUMED, log 82). -/
def TapState.next (t : TapState) (tms : Bool) : TapState :=
  match t with
  | .testLogicReset => if tms then .testLogicReset else .runTestIdle
  | .runTestIdle => if tms then .selectDr else .runTestIdle
  | .selectDr => if tms then .selectIr else .captureDr
  | .captureDr => if tms then .exit1Dr else .shiftDr
  | .shiftDr => if tms then .exit1Dr else .shiftDr
  | .exit1Dr => if tms then .updateDr else .pauseDr
  | .pauseDr => if tms then .exit2Dr else .pauseDr
  | .exit2Dr => if tms then .updateDr else .shiftDr
  | .updateDr => if tms then .selectDr else .runTestIdle
  | .selectIr => if tms then .testLogicReset else .captureIr
  | .captureIr => if tms then .exit1Ir else .shiftIr
  | .shiftIr => if tms then .exit1Ir else .shiftIr
  | .exit1Ir => if tms then .updateIr else .pauseIr
  | .pauseIr => if tms then .exit2Ir else .pauseIr
  | .exit2Ir => if tms then .updateIr else .shiftIr
  | .updateIr => if tms then .selectDr else .runTestIdle

/-- The TAP controller after a walk: the levels of DBG_TMS at successive rising edges of DBG_TCK (R533). -/
def TapState.walk (t : TapState) (tms : List Bool) : TapState := tms.foldl TapState.next t

/-- The levels of DBG_TMS that bring the controller from any state to Test-Logic-Reset, and on to Shift-IR; then the scan of the 4-bit
instruction register and Update-IR (log 82). -/
def tapToUpdateIr : List Bool :=
  [true, true, true, true, true, false, true, true, false, false] ++ [false, false, false, true] ++ [true]

/-- From Update-IR to Capture-DR. -/
def tapToCaptureDr : List Bool := [true, false]

/-- From Capture-DR through the scan of the 73-bit DBGACC register to Update-DR. -/
def tapScanDr : List Bool := [false] ++ List.replicate 72 false ++ [true, true]

/-- A register of `w` bits, shifted least significant bit first: each level of DBG_TDI enters at the top (R533). -/
def scanIn (w : Nat) : Nat → List Bool → Nat
  | v, [] => v
  | v, b :: t => scanIn w (v / 2 + bit b * 2 ^ (w - 1)) t

/-- The `w` low bits of a number, the least significant first: what DBG_TDO gives as a register that holds it is shifted, and what
DBG_TDI takes to fill one with it. -/
def scanBits (w v : Nat) : List Bool := (List.range w).map (fun i => v.testBit i)

/-- The instruction register is scanned: the code is selected at Update-IR (R533). -/
def Dbg.scanIr (d : Dbg) (code : BitVec 4) : Dbg :=
  { d with tap := d.tap.walk tapToUpdateIr, tapIr := BitVec.ofNat 4 (scanIn 4 1 (scanBits 4 code.toNat)) }

/-- What the DBGACC register captures (R533). -/
def Dbg.captured (d : Dbg) : BitVec 73 :=
  BitVec.ofNat 73 (d.tapData.toNat + bit d.tapOutstanding.isSome * 2 ^ 32 + bit d.tapRefused * 2 ^ 33)

/-- TAP_BYPASS (R533): BYPASS, and every code the table does not list, selects the 1-bit register. -/
def execTapBypass (code : BitVec 4) (s : State) : Out :=
  if code = 0xE ∨ code = 8 then .next s else .next { s with dbg := { s.dbg.scanIr code with tapDr := 0 } }

/-- TAP_IDCODE (R533). -/
def execTapIdcode (s : State) : Out :=
  let d := s.dbg.scanIr 0xE
  .next { s with dbg := { d with tapDr := devid.zeroExtend 73, tap := d.tap.walk tapToCaptureDr } }

/-- The DBGACC register is selected and captures (R533). -/
def Dbg.captureAcc (d : Dbg) : Dbg :=
  let e := d.scanIr 8
  { e with tapDr := d.captured, tap := e.tap.walk tapToCaptureDr }

/-- The DBGACC register is scanned and updated with `dr`: DBG_TDO gives what it captured (R533). -/
def Dbg.scanAcc (d : Dbg) (dr : BitVec 73) : Dbg :=
  let e := d.captureAcc
  { e with
    tap := e.tap.walk tapScanDr, tapOut := scanBits 73 e.tapDr.toNat,
    tapDr := BitVec.ofNat 73 (scanIn 73 e.tapDr.toNat (scanBits 73 dr.toNat)) }

/-- DBGACC_CAPTURE (R533). -/
def execDbgaccCapture (s : State) : Out := .next { s with dbg := s.dbg.captureAcc }

/-- A write lands in the DBG block (R534). -/
def State.landDbg (s : State) (who : Who) (a : Nat) (data hw : Word) : State :=
  let o := a - 0x11000000
  if a = Reg.DBG_CTRL then
    let data := if who.lining then data
      else Fld.DBG_CTRL_NOHALT.put (s.fld a Fld.DBG_CTRL_NOHALT) (Fld.DBG_CTRL_LOCK.put 0 data)
    s.plainWrite a data hw
  else if a = Reg.DBG_RDATL then s.rdatlWrite who data
  else if 0x100 ≤ o ∧ o < 0x110 then s.haltLand who ((o - 0x100) / 4) data
  else if 0x110 ≤ o ∧ o < 0x120 then s.resumeLand who ((o - 0x110) / 4) data
  else s.plainWrite a data hw

/-- A read of the DBG block. -/
def State.readDbg (s : State) (who : Who) (a : Nat) (hw : Word) : State :=
  let o := a - 0x11000000
  if a = Reg.DBG_RDATL then s.rdatlRead who
  else if a = Reg.DBG_RDATH then s.respondWord who ((Sparse.get who.id s.dbg.latches).getD 0)
  else if 0x120 ≤ o ∧ o < 0x130 then
    s.respondWord who (BitVec.ofNat 32 ((List.range 32).foldl (fun w i =>
      if (s.ctx (Fin.ofNat 128 (32 * ((o - 0x120) / 4) + i))).run = .halted then w + 2 ^ i else w) 0))
  else let r := s.plainRead a hw
       r.2.respondWord who r.1

end Sys2Proof.Machine
end

