-- ==== Sys2Proof/Machine/Hyc.lean ====
section
/-! DEFINITION. The HYC block (R81 to R83, R97 to R108, R190): wheels, strict timing, starts and kills, lockstep. -/

namespace Sys2Proof.Machine

/-- The context with local number j of core k (R74). -/
def ctxOf (k : Fin 16) (j : Nat) : Ctx := Fin.ofNat 128 (8 * k.val + j)

/-- Half a wheel as a write stores it: an owner of 9–15 is stored as 8, no owner (R10, R78). -/
def wheelNibbles (w : Word) : Word :=
  BitVec.ofNat 32 ((List.range 8).foldl (fun a i => a + min (w.toNat / 16 ^ i % 16) 8 * 16 ^ i) 0)

/-- The slots of a wheel that local context j owns. -/
def wheelSlots (lo hi : Word) (j : Nat) : List Nat :=
  (List.range 16).filter (fun i => (lo.toNat + hi.toNat * 2 ^ 32) / 16 ^ i % 16 == j)

/-- Distances between consecutive slots, the last to the first included, are at least 4 (R82). -/
def spacedFrom : Nat → List Nat → Bool
  | _, [] => true
  | first, [a] => 4 ≤ first + 16 - a
  | first, a :: b :: t => 4 ≤ b - a && spacedFrom first (b :: t)

/-- A context's slots are correctly spaced (R82). -/
def spaced (lo hi : Word) (j : Nat) : Bool :=
  match wheelSlots lo hi j with
  | [] => true
  | a :: t => spacedFrom a (a :: t)

/-- A wheel or STRICT write is refused (R83). -/
def State.refuseWheel (s : State) (k : Fin 16) : State :=
  (s.setFld (Reg.HYC_CORESTAT k) Fld.HYC_CORESTAT_WREF 1).raise (1424 + 7 * k.val + 1)

/-- A staged value waits for position 0 (R81). -/
def State.wheelPending (s : State) (k : Fin 16) : State := s.setFld (Reg.HYC_CORESTAT k) Fld.HYC_CORESTAT_WPEND 1

/-- A write to HYC_WHEELLOk (R81, R83): both halves are staged, unless a strict context would be spaced incorrectly. -/
def State.wheelLand (s : State) (k : Fin 16) (data : Word) : State :=
  if s.locked (Reg.HYC_WHEELLO k) then s else
  let lo := wheelNibbles data
  let hi := (s.core k).wheelHi
  let bad := (List.range 8).any (fun j => s.flag (Reg.HYC_CCTL (ctxOf k j)) Fld.HYC_CCTL_STRICT && !spaced lo hi j)
  if bad then s.refuseWheel k
  else (s.setCore k { s.core k with staged := some (lo, hi), reach := (s.quad (quadOf k)).crossing }).wheelPending k

/-- WHEEL_WRITE (R81). -/
def execWheelWrite (_who : Who) (k : Fin 16) (data : Word) (s : State) : Out :=
  if s.lockstep ∧ k = 15 then .next s else .next (s.wheelLand k data)

/-- WHEEL_APPLIED (R81, R83): at the first position 0 after they have reached the core, the staged wheel and STRICT values take effect. -/
def execWheelApplied (k : Fin 16) (s : State) : Out :=
  let x := s.core k
  match s.positionZero (quadOf k) x.reach with
  | none => .next s
  | some t =>
  if x.staged.isNone ∧ x.strictStaged = false then .next s
  else
    let s := match x.staged with
      | some (lo, hi) => (s.setReg (Reg.HYC_WHEELLO k) lo).setReg (Reg.HYC_WHEELHI k) hi
      | none => s
    let s := (List.range 8).foldl (fun s j =>
      let c := ctxOf k j
      s.setFld (Reg.HYC_CSTAT c) Fld.HYC_CSTAT_STRICTA (s.fld (Reg.HYC_CCTL c) Fld.HYC_CCTL_STRICT)) s
    let s := s.setCore k { x with staged := none, strictStaged := false, wheelFrom := t }
    .next ((s.setFld (Reg.HYC_CORESTAT k) Fld.HYC_CORESTAT_WPEND 0).raise (1424 + 7 * k.val + 2))

/-- A write to HYC_CCTLn (R83, R90): STRICT is refused to a context spaced incorrectly in the wheel in force or the staged one. -/
def State.cctlLand (s : State) (c : Ctx) (data : Word) : State :=
  let a := Reg.HYC_CCTL c
  if s.locked a then s else
  let k := coreOf c
  let j := c.val % 8
  let s := s.setFld a Fld.HYC_CCTL_TBOFF (Fld.HYC_CCTL_TBOFF.get data)
  let good (lo hi : Word) : Bool := spaced lo hi j
  let ok := good (s.reg (Reg.HYC_WHEELLO k)) (s.reg (Reg.HYC_WHEELHI k)) &&
    (match (s.core k).staged with
     | some (lo, hi) => good lo hi
     | none => true)
  let v := Fld.HYC_CCTL_STRICT.get data
  if v = 1 ∧ ok = false then s.refuseWheel k
  else
    let s := s.setFld a Fld.HYC_CCTL_STRICT v
    (s.setCore k { s.core k with strictStaged := true, reach := (s.quad (quadOf k)).crossing }).wheelPending k

/-- CCTL_WRITE (R83). -/
def execCctlWrite (_who : Who) (c : Ctx) (data : Word) (s : State) : Out :=
  if s.lockedOut c then .next s else .next (s.cctlLand c data)

/-- TARGET_BUFFER_FLUSH (R89): a write of 1 to TBFLUSH. -/
def execTargetBufferFlush (_who : Who) (k : Fin 16) (s : State) : Out :=
  if s.lockstep ∧ k = 15 then .next s else .next (s.setCore k { s.core k with tbuf := [] })

/-- A write to HYC_CORECTLk. -/
def State.corectlLand (s : State) (k : Fin 16) (data hw : Word) : State :=
  let s := s.plainWrite (Reg.HYC_CORECTL k) data hw
  if Fld.HYC_CORECTL_TBFLUSH.get data = 1 then s.setCore k { s.core k with tbuf := [] } else s

/-- A context is started by a write of START, in the Off state only (R98). -/
def State.contextStart (s : State) (c : Ctx) : State := if (s.ctx c).run = .off then s.startCtx c else s

/-- CONTEXT_START (R98). -/
def execContextStart (_who : Who) (c : Ctx) (s : State) : Out :=
  if s.lockedOut c then .next s else .next (s.contextStart c)

/-- A KILL sampled (R99 to R101). -/
def State.contextKill (s : State) (who : Who) (c : Ctx) : State :=
  let x := s.ctx c
  match x.run with
  | .killing => s
  | .off =>
    if s.flag (Reg.HYC_CSTAT c) Fld.HYC_CSTAT_STOPPED then (s.setFld (Reg.HYC_CSTAT c) Fld.HYC_CSTAT_ABLATE 1).killDone c else s
  | _ => if x.status.lvl && !who.lining then s.setCtx c { x with heldKill := true } else s.killNow c

/-- CONTEXT_KILL (R99). -/
def execContextKill (who : Who) (c : Ctx) (s : State) : Out :=
  if s.lockedOut c then .next s else .next (s.contextKill who c)

/-- KILL_COMPLETE (R99, R187): the context becomes Off, and a pending Lining cause then starts it. -/
def execKillComplete (c : Ctx) (s : State) : Out :=
  if (s.ctx c).run = .killing then
    let k := s.core (coreOf c)
    let s := s.setCore (coreOf c) { k with tbuf := k.tbuf.filter (fun e => e.slot != c.val % 8) }
    let s := s.setCtx c { s.ctx c with run := .off }
    let s := (s.setFld (Reg.HYC_CSTAT c) Fld.HYC_CSTAT_KILLED 1).killDone c
    .next (if (s.ctx c).lpend ≠ 0 ∧ s.flag (Reg.HYC_CSTAT c) Fld.HYC_CSTAT_EXH = false then s.startCtx c else s)
  else .next s

/-- A write to HYC_CCMDn (R98): with both bits it is a KILL alone. -/
def State.ccmdLand (s : State) (who : Who) (c : Ctx) (data : Word) : State :=
  if data.getLsbD 1 then s.contextKill who c else if data.getLsbD 0 then s.contextStart c else s

/-- LOCKSTEP_MISMATCH (R104, R105): the first mismatching output of the safety core. -/
def execLockstepMismatch (kind : BitVec 3) (s : State) : Out :=
  if s.lockstep ∧ s.flag Reg.HYC_LSSTAT Fld.HYC_LSSTAT_SPLIT = false ∧ 1 ≤ kind.toNat ∧ kind.toNat ≤ 5 then
    let s := s.setFld Reg.SYS_FAULT Fld.SYS_FAULT_LSMIS 1
    let s := s.setFlds Reg.HYC_LSSTAT [(Fld.HYC_LSSTAT_MIS, 1), (Fld.HYC_LSSTAT_SPLIT, 1), (Fld.HYC_LSSTAT_KIND, kind.toNat)]
    let s := s.raise (1424 + 7 * 14 + 3)
    .next ((List.range 8).foldl (fun s j =>
      let c := ctxOf 14 j
      if (s.ctx c).run = .off then s else s.liningPend c .lockstep) s)
  else .next s

/-- An HYC register that lockstep takes away (R106): core 15's, and those of contexts 120–127. -/
def State.hycHidden (s : State) (a : Nat) : Bool :=
  let o := a - 0x11100000
  s.lockstep && ((0xF00 ≤ o && o < 0x1000) || (0x2000 + 32 * 120 ≤ o && o < 0x3000))

/-- A write lands in the HYC block. -/
def State.landHyc (s : State) (who : Who) (a : Nat) (data hw : Word) : State :=
  let o := a - 0x11100000
  if s.hycHidden a then s
  else if o < 0x1000 then
    let k : Fin 16 := Fin.ofNat 16 (o / 0x100)
    match o % 0x100 with
    | 0 => s.wheelLand k data
    | 4 => if s.locked a then s else s.setCore k { s.core k with wheelHi := wheelNibbles data }
    | 8 => s.corectlLand k data hw
    | _ => s.plainWrite a data hw
  else if 0x2000 ≤ o ∧ o < 0x3000 then
    let c : Ctx := Fin.ofNat 128 ((o - 0x2000) / 0x20)
    match o % 0x20 with
    | 0 => s.cctlLand c data
    | 8 => s.ccmdLand who c data
    | _ => s.plainWrite a data hw
  else if a = Reg.HYC_LSVC then if who.lining then s.plainWrite a data hw else s
  else s.plainWrite a data hw

/-- The STATE code of a run state (R97). -/
def Run.code : Run → Nat
  | .off => 0
  | .active => 1
  | .asleep => 2
  | .halted => 3
  | .killing => 4

/-- A read of the HYC block: HYC_CSTATn.STATE shows the run state. -/
def State.readHyc (s : State) (who : Who) (a : Nat) (hw : Word) : State :=
  let o := a - 0x11100000
  if s.hycHidden a then s.respondWord who 0
  else
    let r := s.plainRead a hw
    if 0x2000 ≤ o ∧ o < 0x3000 ∧ o % 0x20 = 4 then
      r.2.respondWord who (Fld.HYC_CSTAT_STATE.put (s.ctx (Fin.ofNat 128 ((o - 0x2000) / 0x20))).run.code r.1)
    else r.2.respondWord who r.1

end Sys2Proof.Machine
end

