-- ==== Sys2Proof/Machine/Psq.lean ====
section
/-! DEFINITION. The pattern sequencer (R29 to R73): device time, lanes, control entries, periods, the swap of banks, starts and
stops. The dispatching entries stand in PsqDispatch.lean, since they write the registers of other blocks. Readings and choices: logs 71, 86. -/

namespace Sys2Proof.Machine

/-! ### Device time -/

/-- One fc of device time (R29, R31), in units of 2⁻³² ns, wrapping at 2⁶⁴ ns (R30). -/
def Psq.tick (p : Psq) (slew : Nat) : Psq :=
  let s : Int := (p.inc / 2 ^ slew : Nat)
  let step : Int := if 0 < p.adjRem then min s p.adjRem else if p.adjRem < 0 then -(min s (-p.adjRem)) else 0
  { p with time := ((p.time : Int) + p.inc + step).toNat % 2 ^ 96, adjRem := p.adjRem - step }

/-- The course of device time with the fc that ends at `fc`, in which it rose from `old` (R389). -/
def Psq.noted (p : Psq) (old fc : Nat) : Psq :=
  let rise := (p.time + 2 ^ 96 - old) % 2 ^ 96
  match p.past with
  | (f, t, k) :: _ => if k = rise ∧ (t + k * (fc - f)) % 2 ^ 96 = p.time then p else { p with past := (fc - 1, old, rise) :: p.past }
  | [] => { p with past := [(fc - 1, old, rise)] }

/-- The device time `ago` fc before now, in units of 2⁻³² ns (R389). -/
def Psq.timeBefore (p : Psq) (now ago : Nat) : Nat :=
  if ago = 0 then p.time
  else match p.past.find? (fun e => e.1 + ago ≤ now) with
    | some (f, t, k) => (t + k * (now - ago - f)) % 2 ^ 96
    | none => ((p.time : Int) - ago * p.inc).toNat

/-- The increment in force takes both parts (R34). -/
def State.loadInc (s : State) : State :=
  { s with psq := { s.psq with
      inc := (s.reg Reg.PSQ_DTINCL).toNat + s.fld Reg.PSQ_DTINCH Fld.PSQ_DTINCH_INCHI * 2 ^ 32 } }

/-- The seam servo disciplines device time (R32). -/
def State.disciplined (s : State) : Bool := s.flag Reg.PSQ_DTCTRL Fld.PSQ_DTCTRL_DISC

/-- A write to PSQ_DTADJ (R31, R32). -/
def State.dtadjLand (s : State) (data : Word) : State :=
  if s.disciplined then s else { s with psq := { s.psq with adjRem := data.toInt * 2 ^ 32 } }

/-- DTADJ_WRITE (R31). -/
def execDtadjWrite (_who : Who) (data : Word) (s : State) : Out := .next (s.dtadjLand data)

/-- A write to PSQ_DTINCL (R34). -/
def State.dtinclLand (s : State) (data : Word) : State :=
  if s.disciplined then s else (s.setReg Reg.PSQ_DTINCL data).loadInc

/-- DTINCL_WRITE (R34). -/
def execDtinclWrite (_who : Who) (data : Word) (s : State) : Out := .next (s.dtinclLand data)

/-- A write to PSQ_DTCTRL (R33): a step is refused where DISC was 1 before it, and otherwise acts on the second fc after it. -/
def State.dtctrlLand (s : State) (data hw : Word) : State :=
  let disc := s.disciplined
  let s := s.plainWrite Reg.PSQ_DTCTRL data hw
  if Fld.PSQ_DTCTRL_STEP.get data = 0 then s
  else if disc then s.setFld Reg.PSQ_DTCTRL Fld.PSQ_DTCTRL_SREF 1
  else { s with psq := { s.psq with stepDue := s.psq.stepDue ++ [s.fc + 2] } }

/-- DTSTEP_REQUEST (R33). -/
def execDtstepRequest (_who : Who) (data : Word) (s : State) : Out := .next (s.dtctrlLand data 0)

/-! ### Lanes -/

/-- A lane. -/
def State.lane (s : State) (l : Fin 16) : Lane := s.psq.lanes[l.val]

/-- The state with one lane changed. -/
def State.setLane (s : State) (l : Fin 16) (x : Lane) : State := { s with psq := { s.psq with lanes := s.psq.lanes.set l.val x } }

/-- The lanes. -/
def allLanes : List (Fin 16) := List.finRange 16

/-- A lane's state (R65). -/
def State.laneState (s : State) (l : Fin 16) : Nat := s.fld (Reg.PSQ_LSTAT l) Fld.PSQ_LSTAT_STATE

/-- A lane's state changed. -/
def State.setLaneState (s : State) (l : Fin 16) (n : Nat) : State := s.setFld (Reg.PSQ_LSTAT l) Fld.PSQ_LSTAT_STATE n

/-- The bank that a lane uses. -/
def State.laneBank (s : State) (l : Fin 16) : Nat := s.fld Reg.PSQ_SWAPSTAT Fld.PSQ_SWAPSTAT_LBANK / 2 ^ l.val % 2

/-- The bank that the last accepted flip selected. -/
def State.targetBank (s : State) : Nat := s.fld Reg.PSQ_SWAPSTAT Fld.PSQ_SWAPSTAT_TARGET

/-- Event k of a lane (R70): raised while its bit is 1; the lag-limit event always. -/
def State.laneEvent (s : State) (l : Fin 16) (k : Nat) : State :=
  s.raiseIf (k == 3 || (s.reg (Reg.PSQ_LEVTEN l)).getLsbD k) (128 + 8 * l.val + k)

/-- A lane records a cause (R60). -/
def State.laneError (s : State) (l : Fin 16) (cause : Nat) : State :=
  let s := s.setFlds (Reg.PSQ_LSTAT l) [(Fld.PSQ_LSTAT_ERR, 1), (Fld.PSQ_LSTAT_CAUSE, cause)]
  if cause = 5 ∨ cause = 6 then s.laneEvent l 6 else s

/-- A lane changes to the TARGET bank (R63): PENDING clears with the last. -/
def State.changeBank (s : State) (l : Fin 16) : State :=
  let b := s.fld Reg.PSQ_SWAPSTAT Fld.PSQ_SWAPSTAT_LBANK
  let b := b - b / 2 ^ l.val % 2 * 2 ^ l.val + s.targetBank * 2 ^ l.val
  let s := s.setFld Reg.PSQ_SWAPSTAT Fld.PSQ_SWAPSTAT_LBANK b
  let s := if b = 65535 * s.targetBank then s.setFld Reg.PSQ_SWAPSTAT Fld.PSQ_SWAPSTAT_PENDING 0 else s
  s.laneEvent l 4

/-- A lane enters the stopped state (R58, R64, R68) and changes bank where it has not (R63), for a flip in that same fc as well. LLAG, LPCNT, LREF
and LATE keep the last period's values until the next period starts (both DESIGN CHOICE, log 87). -/
def State.enterStopped (s : State) (l : Fin 16) (done : Bool) : State :=
  let s := s.setLaneState l 0
  let old := s.flag (Reg.PSQ_LSTAT l) Fld.PSQ_LSTAT_DONE
  let s := if done then s.setFld (Reg.PSQ_LSTAT l) Fld.PSQ_LSTAT_DONE 1 else s
  let s := s.setLane l { s.lane l with
    ended := if done then some (s.fc, old) else none, rep := none, bodyEnded := false, stopAtEnd := false
    endMet := none, closings := [], dueSince := none }
  let s := if s.laneBank l ≠ s.targetBank then s.changeBank l else s
  s.laneEvent l 5

/-- What a read of a lane's descriptor finds (R41, R42, R61). -/
inductive DescRead where
  | valid (first period hem maxLag : Nat)
  | off
  | bad (cause : Nat)
  deriving DecidableEq, Repr

/-- The base of a bank in the window (R38). -/
def bankBase (b : Nat) : Nat := 0x10280000 + b * 0x40000

/-- A lane's descriptor in a bank. -/
def State.readDesc (s : State) (l : Fin 16) (b : Nat) : DescRead × State :=
  let a := bankBase b + 16 * l.val
  let r := s.tableRead 0xFE a 16
  if r.1 then (.bad 7, r.2)
  else
    let s := r.2
    let w0 := (s.reg a).toNat
    let p := (s.reg (a + 4)).toNat
    let h := (s.reg (a + 8)).toNat
    if w0 / 2 ^ 31 = 0 then (.off, s)
    else if p < 1000 ∨ p < h + 1000 then (.bad 4, s)
    else (.valid (w0 % 8192) p h (s.reg (a + 12)).toNat, s)

/-- The time at which a lane's next period starts (R56, R67), where it is known. It is not reduced modulo 2⁶⁴ ns, so one past the wrap of device
time (R30) is not reached (DESIGN CHOICE, log 87). -/
def State.nextStart (s : State) (l : Fin 16) : Option Nat :=
  let x := s.lane l
  if s.laneState l = 1 then some x.start
  else if s.laneState l = 3 then x.endMet.map (fun c => max c (x.start + x.period - min x.lag x.hem))
  else none

/-- A lag as the registers show it: saturating at 0xFFFF_FFFF. -/
def satLag (n : Nat) : Word := BitVec.ofNat 32 (min n 0xFFFFFFFF)

/-- A period begins at `start` with reference `ref` under the lane's descriptor (R45, R56, R59, R70). -/
def State.beginPeriod (s : State) (l : Fin 16) (start ref pcnt : Nat) (first : Bool) : State :=
  let x := s.lane l
  let lag := start - ref
  let old := x.lag
  let s := s.setLane l { x with
    ref := ref, start := start, lag := lag, prevLag := old, firstPeriod := first, entry := x.first, rep := none,
    bodyEnded := false, stopAtEnd := false, endMet := none, closings := [], dueSince := none }
  let s := s.setFlds (Reg.PSQ_LSTAT l) [(Fld.PSQ_LSTAT_STATE, 2), (Fld.PSQ_LSTAT_LATE, bit (0 < lag))]
  let s := s.setReg (Reg.PSQ_LPCNT l) (BitVec.ofNat 32 pcnt)
  let s := if (s.reg (Reg.PSQ_LPEAK l)).toNat < (satLag lag).toNat then s.setReg (Reg.PSQ_LPEAK l) (satLag lag) else s
  let s := s.laneEvent l 0
  let s := if 0 < lag && (first || old == 0) then s.laneEvent l 1 else s
  let s := if lag == 0 && !first && 0 < old then s.laneEvent l 2 else s
  if x.maxLag < lag && !s.flag (Reg.PSQ_LSTAT l) Fld.PSQ_LSTAT_LAGMAX then
    ((s.setFld (Reg.PSQ_LSTAT l) Fld.PSQ_LSTAT_LAGMAX 1).laneEvent l 3).liningService .lag
  else s

/-- PERIOD_START (R56, R58, R59, R63, R64): at the first fc edge at or after the start, the period begins, or the lane stops. -/
def execPeriodStart (l : Fin 16) (upsets : Upsets) (s : State) : Out :=
  match s.nextStart l with
  | none => .next s
  | some t =>
    if s.psq.time < t * 2 ^ 32 then .next s else
    let s := s.strike upsets
    let x := s.lane l
    let waiting := s.laneState l = 1
    let ref := if waiting then x.ref else x.ref + x.period
    let pcnt := if waiting then 0 else (s.reg (Reg.PSQ_LPCNT l)).toNat + 1
    if x.stopAtEnd then .next (s.enterStopped l true)
    else if s.laneBank l ≠ s.targetBank ∧ s.psq.flipFc ≠ some s.fc then
      match s.readDesc l s.targetBank with
      | (.valid f p h m, s) =>
        let s := (s.setLane l { s.lane l with first := f, period := p, hem := h, maxLag := m }).changeBank l
        .next (s.beginPeriod l t ref pcnt waiting)
      | (.off, s) => .next (s.enterStopped l false)
      | (.bad c, s) => .next ((s.laneError l c).enterStopped l false)
    else .next (s.beginPeriod l t ref pcnt waiting)

/-- The conditions of Cₖ are met at this fc, where they are (R56): the state is closing, and its time is noted. -/
def State.checkEnd (s : State) (l : Fin 16) : State :=
  let x := s.lane l
  if x.bodyEnded && x.closings.isEmpty && x.endMet.isNone then
    s.setLane l { x with endMet := some ((s.psq.time + (2 ^ 32 - 1)) / 2 ^ 32) }
  else s

/-- The period body ends (R45): at HALT the lane stops at the period's end. -/
def State.endBody (s : State) (l : Fin 16) (halt : Bool) : State :=
  let x := s.lane l
  let s := s.setLane l { x with bodyEnded := true, stopAtEnd := x.stopAtEnd || halt, rep := none, dueSince := none }
  (s.setLaneState l 3).checkEnd l

/-- Where evaluation goes on after index `i` with `skip` further entries passed over (R45, R46). -/
def Lane.after (x : Lane) (i skip : Nat) : Lane :=
  match x.rep with
  | none => { x with entry := i + 1 + skip, dueSince := none }
  | some r =>
    let n := min (i + 1 + skip) (r.last + 1)
    if n ≤ r.last then { x with entry := n, dueSince := none }
    else if r.j + 1 < r.count then { x with entry := r.first, rep := some { r with j := r.j + 1 }, dueSince := none }
    else { x with entry := r.last + 1, rep := none, dueSince := none }

/-- The lane moves on past its entry; passing entry 8,191 acts as END and records cause 8 (R46). -/
def State.laneNext (s : State) (l : Fin 16) (skip : Nat) : State :=
  let x := (s.lane l).after (s.lane l).entry skip
  if 8191 < x.entry then (((s.setLane l { x with entry := 8191 }).laneError l 8).endBody l false) else s.setLane l x

/-- The address of the entry that a lane evaluates or waits to dispatch (R38). -/
def State.entryAddr (s : State) (l : Fin 16) : Nat := bankBase (s.laneBank l) + 0x10000 + 16 * (s.lane l).entry

/-- Word i of that entry. -/
def State.entryWord (s : State) (l : Fin 16) (i : Nat) : Nat := (s.reg (s.entryAddr l + 4 * i)).toNat

/-- The OP of that entry (R43). -/
def State.entryOp (s : State) (l : Fin 16) : Nat := s.entryWord l 0 / 2 ^ 26

/-- CLOSE of that entry (R43). -/
def State.entryClose (s : State) (l : Fin 16) : Bool := s.entryWord l 0 / 2 ^ 25 % 2 == 1

/-- A running lane evaluates an entry whose OP satisfies `op`: an uncorrectable entry is not executed and records cause 7 (R61);
otherwise `act` acts. -/
def State.evaluate (s : State) (l : Fin 16) (op : Nat → Bool) (act : State → State) : State :=
  if s.laneState l = 2 ∧ op (s.entryOp l) = true then
    let r := s.tableRead 0xFE (s.entryAddr l) 16
    if r.1 then (r.2.laneError l 7).laneNext l 0 else act r.2
  else s

/-- PSQ_NOP (R45). -/
def execPsqNop (l : Fin 16) (s : State) : Out := .next (s.evaluate l (· == 0) (fun s => s.laneNext l 0))

/-- PSQ_END (R45). -/
def execPsqEnd (l : Fin 16) (s : State) : Out := .next (s.evaluate l (· == 1) (fun s => s.endBody l false))

/-- PSQ_HALT (R45). -/
def execPsqHalt (l : Fin 16) (s : State) : Out := .next (s.evaluate l (· == 2) (fun s => s.endBody l true))

/-- PSQ_SEL (R45, R46). -/
def execPsqSel (l : Fin 16) (s : State) : Out :=
  .next (s.evaluate l (· == 3) (fun s =>
    let pcnt := (s.reg (Reg.PSQ_LPCNT l)).toNat
    let skip := if pcnt % max (s.entryWord l 2) 1 ≠ s.entryWord l 3 then s.entryWord l 0 % 8192 else 0
    s.laneNext l skip))

/-- PSQ_REP (R45, R46): nested, it records cause 3 and acts as NOP. -/
def execPsqRep (l : Fin 16) (s : State) : Out :=
  .next (s.evaluate l (· == 4) (fun s =>
    let x := s.lane l
    let len := s.entryWord l 0 % 256
    let count := s.entryWord l 2 % 65536
    if x.rep.isSome then (s.laneError l 3).laneNext l 0
    else if len = 0 ∨ count = 0 then s.laneNext l len
    else (s.setLane l { x with rep := some ⟨x.entry + 1, x.entry + len, 0, count, s.entryWord l 3⟩ }).laneNext l 0))

/-- The OPs of the table of R43. -/
def knownOp (n : Nat) : Bool := n ≤ 4 || (0x10 ≤ n && n ≤ 0x16)

/-- PSQ_UNIMPLEMENTED_OP (R44). -/
def execPsqUnimplementedOp (l : Fin 16) (s : State) : Out :=
  .next (s.evaluate l (fun n => !knownOp n) (fun s => (s.laneError l 1).laneNext l 0))

/-! ### Dispatch order -/

/-- The effective offset of a lane's entry (R45). -/
def State.entryOffset (s : State) (l : Fin 16) : Nat :=
  s.entryWord l 1 + (match (s.lane l).rep with
    | some r => r.j * r.stride
    | none => 0)

/-- A dispatching entry inside the hem (R47). -/
def State.inHem (s : State) (l : Fin 16) : Bool :=
  (s.lane l).period ≤ s.entryOffset l + (s.lane l).hem

/-- Device time has reached a lane's entry (R37). -/
def State.entryDue (s : State) (l : Fin 16) : Bool := ((s.lane l).start + s.entryOffset l) * 2 ^ 32 ≤ s.psq.time

/-- The unanswered WAKEs of a lane to a context (R52). -/
def State.unanswered (s : State) (l c : Nat) : Nat := (s.psq.waked.filter (fun w => w.lane == l && w.ctx.val == c)).length

/-- A hold of R52 or R55 holds a lane's entry. -/
def State.entryHeld (s : State) (l : Fin 16) : Bool :=
  (s.entryClose l && 32 ≤ (s.lane l).closings.length) ||
  (s.entryOp l == 0x10 && 32 ≤ s.unanswered l.val (s.entryWord l 0 % 128))

/-- A lane's entry is a due head that the port serves (R53): running, an OP that writes, outside the hem, due, and not held. -/
def State.dueHead (s : State) (l : Fin 16) : Bool :=
  s.laneState l == 2 && 0x10 ≤ s.entryOp l && s.entryOp l ≤ 0x15 && !s.inHem l && s.entryDue l && !s.entryHeld l

/-- The fc since which a lane's entry has been the due head (R53). -/
def State.dueFrom (s : State) (l : Fin 16) : Nat := ((s.lane l).dueSince).getD s.fc

/-- The pattern port serves this lane in this fc (R53): one write each fc, the longest due first, the lowest number among
equals. -/
def State.portServes (s : State) (l : Fin 16) : Bool :=
  s.dueHead l && s.psq.portFc != some s.fc &&
  allLanes.all (fun k => !s.dueHead k || s.dueFrom l < s.dueFrom k || (s.dueFrom l == s.dueFrom k && l.val ≤ k.val))

/-- At the end of an fc, every lane whose entry is the due head and has not been so before notes that it is. -/
def State.noteDue (s : State) : State :=
  allLanes.foldl (fun s l =>
    if s.dueHead l && (s.lane l).dueSince.isNone then s.setLane l { s.lane l with dueSince := some s.fc } else s) s

/-- A closing entry is outstanding until its job completes (R55). -/
def State.addClosing (s : State) (l : Fin 16) (j : Job) (signalled : Bool) : State :=
  if s.entryClose l then
    s.setLane l { s.lane l with closings := (s.lane l).closings ++ [⟨j, if signalled then some s.fc else none⟩] }
  else s

/-- A closing entry's job has ended (R48). -/
def Closing.signal (c : Closing) (fc : Nat) : Closing := { c with signalled := some (c.signalled.getD fc) }

/-- An engine signals the completion of its job (R48): every closing entry that waits for it may be recognised. -/
def State.psqSignal (s : State) (j : Job) : State :=
  allLanes.foldl (fun s l => s.setLane l { s.lane l with
    closings := (s.lane l).closings.map (fun c => if c.job = j then c.signal s.fc else c) }) s

/-- COMPLETION_RECOGNISED (R49, R55, R56): a closing entry of a lane is recognised from 2 fc after its signal. -/
def execCompletionRecognised (l : Fin 16) (i : Nat) (s : State) : Out :=
  match (s.lane l).closings[i]? with
  | some c =>
    if c.signalled.any (fun n => n + 2 ≤ s.fc) then
      .next ((s.setLane l { s.lane l with closings := (s.lane l).closings.eraseIdx i }).checkEnd l)
    else .next s
  | none => .next s

/-- The oldest closing entry of a context's WAKE that is not signalled is signalled. -/
def signalWake (c : Ctx) (fc : Nat) : List Closing → List Closing
  | [] => []
  | k :: t => if k.job = .wake c ∧ k.signalled = none then k.signal fc :: t else k :: signalWake c fc t

/-- A JDONE write (R49, R51): it answers the oldest unanswered WAKE of the lane named to the writing context; that of a closing entry signals
its completion. -/
def State.jdone (s : State) (who : Who) (data : Word) : State :=
  let l : Fin 16 := Fin.ofNat 16 (Fld.PSQ_JDONE_LANE.get data)
  match who with
  | .ctx c _ =>
    match s.psq.waked.find? (fun w => w.lane == l.val && w.ctx == c) with
    | none => s
    | some w =>
      let s := { s with psq := { s.psq with waked := s.psq.waked.erase w } }
      if w.closing then s.setLane l { s.lane l with closings := signalWake c s.fc (s.lane l).closings } else s
  | _ => s

/-- JDONE_WRITE (R51). -/
def execJdoneWrite (who : Who) (data : Word) (s : State) : Out := .next (s.jdone who data)

/-! ### The swap of banks, starts and stops -/

/-- A write to PSQ_SWAP (R62, R63): an accepted flip changes every stopped lane at once. -/
def State.flip (s : State) (data : Word) : State :=
  if Fld.PSQ_SWAP_FLIP.get data = 0 then s
  else if s.flag Reg.PSQ_SWAPSTAT Fld.PSQ_SWAPSTAT_PENDING then s.setFld Reg.PSQ_SWAPSTAT Fld.PSQ_SWAPSTAT_FREF 1
  else
    let s := s.setFlds Reg.PSQ_SWAPSTAT [(Fld.PSQ_SWAPSTAT_TARGET, 1 - s.targetBank), (Fld.PSQ_SWAPSTAT_PENDING, 1)]
    let s := { s with psq := { s.psq with flipFc := some s.fc } }
    allLanes.foldl (fun s l => if s.laneState l = 0 then s.changeBank l else s) s

/-- SWAP_FLIP (R62). -/
def execSwapFlip (_who : Who) (data : Word) (s : State) : Out := .next (s.flip data)

/-- START of a lane (R67). PSQ_LREF shows R₀ and PSQ_LENT 0 from here until the first period begins, and PSQ_LENT keeps its last index while
the lane closes or is stopped (DESIGN CHOICE, log 86). -/
def State.laneStart (s : State) (l : Fin 16) : State :=
  if s.laneState l ≠ 0 then s
  else match s.readDesc l (s.laneBank l) with
    | (.off, s) => s.laneError l 4
    | (.bad c, s) => s.laneError l c
    | (.valid f p h m, s) =>
      let t0 := s.reg64 (Reg.PSQ_LSTARTL l) (Reg.PSQ_LSTARTH l)
      let r0 := if s.psq.time < t0 * 2 ^ 32 then t0 else t0 + ((s.psq.time - t0 * 2 ^ 32) / (p * 2 ^ 32) + 1) * p
      let s := s.setLane l { Lane.reset with first := f, period := p, hem := h, maxLag := m, ref := r0, start := r0, firstPeriod := true }
      (s.setReg (Reg.PSQ_LPCNT l) 0).setLaneState l 1

/-- What a STOP discards (R52, R68): outstanding closing entries, the lag, and the closing marks of unanswered WAKEs. -/
def State.laneDiscard (s : State) (l : Fin 16) : State :=
  let s := s.setLane l { s.lane l with closings := [], lag := 0, dueSince := none, ended := none }
  { s with psq := { s.psq with
    waked := s.psq.waked.map (fun (w : Waked) => if w.lane = l.val then { w with closing := false } else w) } }

/-- STOP of a lane (R66, R68, R69). Where the natural end was in this fc the STOP takes effect, and the lane, stopped already, loses the DONE
that the end set (log 86). -/
def State.laneStop (s : State) (l : Fin 16) : State :=
  if s.laneState l = 4 then s
  else if s.laneState l = 0 then
    match (s.lane l).ended.filter (fun e => e.1 == s.fc) with
    | some e => (s.laneDiscard l).setFld (Reg.PSQ_LSTAT l) Fld.PSQ_LSTAT_DONE (bit e.2)
    | none => if s.flag (Reg.PSQ_LSTAT l) Fld.PSQ_LSTAT_DONE then s.setFld (Reg.PSQ_LSTAT l) Fld.PSQ_LSTAT_ABLATE 1 else s
  else (s.laneDiscard l).setLaneState l 4

/-- FINISH of a lane (R58, R66). -/
def State.laneFinish (s : State) (l : Fin 16) : State :=
  if s.laneState l = 2 ∨ s.laneState l = 3 then s.setLane l { s.lane l with stopAtEnd := true } else s

/-- LANE_START (R67). -/
def execLaneStart (_who : Who) (l : Fin 16) (s : State) : Out := .next (s.laneStart l)

/-- LANE_STOP (R68). -/
def execLaneStop (_who : Who) (l : Fin 16) (s : State) : Out := .next (s.laneStop l)

/-- LANE_FINISH (R58). -/
def execLaneFinish (_who : Who) (l : Fin 16) (s : State) : Out := .next (s.laneFinish l)

/-- LANE_STOPPED (R68). -/
def execLaneStopped (l : Fin 16) (s : State) : Out :=
  if s.laneState l = 4 then .next (s.enterStopped l false) else .next s

/-- A write to PSQ_LCMDl, its bits in the order STOP, FINISH, START (R66). -/
def State.laneCommand (s : State) (l : Fin 16) (data : Word) : State :=
  let s := if data.getLsbD 1 then s.laneStop l else s
  let s := if data.getLsbD 2 then s.laneFinish l else s
  if data.getLsbD 0 then s.laneStart l else s

/-- DTSTEP_ACT (R33): the step that is due acts, or is refused while any lane is not stopped. -/
def execDtstepAct (s : State) : Out :=
  match s.psq.stepDue with
  | [] => .next s
  | d :: t =>
    if s.fc < d then .next s
    else
      let s := { s with psq := { s.psq with stepDue := t } }
      if allLanes.any (fun l => s.laneState l != 0) then .next (s.setFld Reg.PSQ_DTCTRL Fld.PSQ_DTCTRL_SREF 1)
      else
        let s := s.unlockAudio
        .next { s with psq := { s.psq with time := s.reg64 Reg.PSQ_DTSETL Reg.PSQ_DTSETH * 2 ^ 32, adjRem := 0 } }

/-- A read of PSQ_DTF (R35). -/
def State.dtfRead (s : State) (who : Who) : State :=
  let s := { s with psq := { s.psq with latches := Sparse.put who.id (BitVec.ofNat 64 s.now) s.psq.latches } }
  s.respondWord who (BitVec.ofNat 32 (s.psq.time / 2 ^ 16 % 2 ^ 16))

/-- DTF_READ (R35). -/
def execDtfRead (who : Who) (s : State) : Out := .next (s.dtfRead who)

/-! ### The window -/

/-- The bank that a window address lies in, where the window holds something there (R38). -/
def patternBank (a : Nat) : Option Nat :=
  let o := a - 0x10280000
  let i := o % 0x40000
  if 0x10280000 ≤ a ∧ o < 0x80000 ∧ (i < 0x100 ∨ (0x10000 ≤ i ∧ i < 0x30000)) then some (o / 0x40000) else none

/-- A lane that waits, runs, closes or stops uses the bank (R40). -/
def State.bankInUse (s : State) (b : Nat) : Bool :=
  allLanes.any (fun l => s.laneState l != 0 && s.laneBank l == b)

/-- The bits of W0 below CLOSE that an entry's OP names (R43). -/
def opBits (op : Nat) : Nat :=
  match op with
  | 3 => 0x1FFF
  | 4 => 0xFF
  | 0x10 => 0x7F
  | 0x11 => 0x3F
  | 0x13 => 7
  | 0x15 => 0x7FFFFF
  | _ => 0

/-- The bits of word `i` of an entry that its OP names (R7, R43); the others are reserved. -/
def entryBits (op i : Nat) : Nat :=
  match i with
  | 0 => 0xFE000000 + opBits op
  | 1 => if 0x10 ≤ op ∧ op ≤ 0x16 then 0xFFFFFFFF else 0
  | 2 => if op = 4 ∨ op = 0x13 then 0xFFFF else if op = 3 ∨ op = 0x12 ∨ op = 0x14 ∨ op = 0x15 then 0xFFFFFFFF else 0
  | _ => if op = 3 ∨ op = 4 then 0xFFFFFFFF else if op = 0x12 ∨ op = 0x14 then 0xFF else 0

/-- The bits of a pattern-table word that are not reserved (R7, R41, R43): in W0 of a descriptor, and by its OP in an entry. A word W1 to W3 is
kept whole and judged by the OP as it is read (DEDUCED, log 86). -/
def State.patternBits (s : State) (a : Nat) : Nat :=
  if (a - 0x10280000) % 0x40000 < 0x100 then (if a % 16 = 0 then 0x80001FFF else 0xFFFFFFFF)
  else entryBits ((s.reg (a / 16 * 16)).toNat / 2 ^ 26) (a % 16 / 4)

/-- The bits of a written pattern-table word that are stored. -/
def patternStored (a : Nat) (data : Word) : Word :=
  if a % 16 = 0 then
    data &&& BitVec.ofNat 32 (if (a - 0x10280000) % 0x40000 < 0x100 then 0x80001FFF else entryBits (data.toNat / 2 ^ 26) 0)
  else data

/-- A write lands in the PSQ block. -/
def State.landPsq (s : State) (who : Who) (a : Nat) (data hw : Word) : State :=
  let o := a - 0x10200000
  match patternBank a with
  | some b =>
    if s.bankInUse b then s.setFld Reg.PSQ_SWAPSTAT Fld.PSQ_SWAPSTAT_BWI 1
    else s.windowWrite who.id a (patternStored a data)
  | none =>
    if a = Reg.PSQ_OWNER then if who.lining then s.plainWrite a data hw else s
    else if a = Reg.PSQ_JDONE then s.jdone who data
    else if a = Reg.PSQ_SWAP then s.flip data
    else if a = Reg.PSQ_DTINCL then s.dtinclLand data
    else if a = Reg.PSQ_DTINCH then if s.disciplined then s else s.plainWrite a data hw
    else if a = Reg.PSQ_DTADJ then s.dtadjLand data
    else if a = Reg.PSQ_DTCTRL then s.dtctrlLand data hw
    else if 0x1000 ≤ o ∧ o < 0x1400 ∧ o % 64 = 0 then s.laneCommand (Fin.ofNat 16 ((o - 0x1000) / 64)) data
    else s.plainWrite a data hw

/-- What the PSQ block's registers show of its records (R31, R52, R72). -/
def State.psqShows (s : State) (who : Who) (a : Nat) : Option Word :=
  let o := a - 0x10200000
  let latch := ((Sparse.get who.id s.psq.latches).getD 0).toNat
  if a = Reg.PSQ_DTL then some (BitVec.ofNat 32 latch)
  else if a = Reg.PSQ_DTH then some (BitVec.ofNat 32 (latch / 2 ^ 32))
  else if a = Reg.PSQ_DTADJ then some (BitVec.ofInt 32 (Int.tdiv s.psq.adjRem (2 ^ 32)))
  else if 0x2000 ≤ o ∧ o < 0x2200 then
    some (BitVec.ofNat 32 (allLanes.foldl (fun w l => if s.unanswered l.val ((o - 0x2000) / 4) = 0 then w else w + 2 ^ l.val) 0))
  else if 0x1000 ≤ o ∧ o < 0x1400 then
    let l : Fin 16 := Fin.ofNat 16 ((o - 0x1000) / 64)
    let x := s.lane l
    match o % 64 with
    | 0x04 => some (Fld.PSQ_LSTAT_BANK.put (s.laneBank l) (s.reg a))
    | 0x10 => some (satLag x.lag)
    | 0x18 => some (BitVec.ofNat 32 x.entry)
    | 0x24 => some (BitVec.ofNat 32 x.ref)
    | 0x28 => some (BitVec.ofNat 32 (x.ref / 2 ^ 32))
    | _ => none
  else none

/-- A read of the PSQ block. -/
def State.readPsq (s : State) (who : Who) (a : Nat) (hw : Word) : State :=
  match patternBank a with
  | some _ => s.windowShow who a (fun w => w &&& BitVec.ofNat 32 (s.patternBits a))
  | none =>
    if a = Reg.PSQ_DTF then s.dtfRead who
    else match s.psqShows who a with
      | some w => s.respondWord who w
      | none => let r := s.plainRead a hw
                r.2.respondWord who r.1

end Sys2Proof.Machine
end

