-- ==== Sys2Proof/Machine/SeamFrame.lean ====
section
/-! DEFINITION. The formats of frames that the seam engine reads and makes: Ethernet and tags, IPv4 and UDP, TRDP, gPTP, AVTP
(R378 to R381, R408, R410, R416, R417). What the named standards fix and the spec does not repeat is PRESUMED (log 31). Readings and choices: log 29. -/

namespace Sys2Proof.Machine

/-- `n` bytes of a frame at offset `o`. -/
def slice (l : List Byte) (o n : Nat) : List Byte := (l.drop o).take n

/-- A number of `n` bytes at offset `o`, most significant byte first. -/
def beAt (l : List Byte) (o n : Nat) : Nat := beNat (slice l o n)

/-- The bytes with `d` put at offset `o`. -/
def patch (l : List Byte) (o : Nat) (d : List Byte) : List Byte := l.take o ++ d ++ l.drop (o + d.length)

/-! ### Checks -/

/-- One bit of the CRC-32C of R380. -/
def crc32cBit (c : Word) : Word := if c.getLsbD 0 then (c >>> 1) ^^^ 0x82F63B78 else c >>> 1

/-- One byte of the CRC-32C. -/
def crc32cByte (c : Word) (b : Byte) : Word :=
  crc32cBit (crc32cBit (crc32cBit (crc32cBit (crc32cBit (crc32cBit (crc32cBit (crc32cBit (c ^^^ b.zeroExtend 32))))))))

/-- The CRC-32C of R380: polynomial 0x1EDC_6F41 reflected, initial value all ones, final inversion. -/
def crc32c (l : List Byte) : Nat := (l.foldl crc32cByte 0xFFFFFFFF ^^^ 0xFFFFFFFF).toNat

/-- The CRC-32 of IEEE 802.3 over bytes, as the TRDP header FCS has it. -/
def crc32 (l : List Byte) : Nat := (crcBytes 0xFFFFFFFF l ^^^ 0xFFFFFFFF).toNat

/-- The sum of 16-bit words, most significant byte first. -/
def sum16 : List Byte → Nat
  | [] => 0
  | [a] => a.toNat * 256
  | a :: b :: t => a.toNat * 256 + b.toNat + sum16 t

/-- The one's complement fold of a sum. -/
def fold16 (n : Nat) : Nat := if n = 0 then 0 else (n - 1) % 65535 + 1

/-- The Internet checksum of bytes. -/
def inetSum (l : List Byte) : Nat := 65535 - fold16 (sum16 l)

/-! ### Ethernet -/

/-- A frame is tagged (EtherType 0x8100). -/
def tagged (l : List Byte) : Bool := beAt l 12 2 == 0x8100

/-- The tag control information. -/
def tci (l : List Byte) : Nat := if tagged l then beAt l 14 2 else 0

/-- A frame without its tag. -/
def untag (l : List Byte) : List Byte := if tagged l then l.take 12 ++ l.drop 16 else l

/-- A frame with a tag. -/
def withTag (l : List Byte) (t : Nat) : List Byte := let u := untag l; u.take 12 ++ beBytes 2 0x8100 ++ beBytes 2 t ++ u.drop 12

/-- A frame padded to 64 bytes with its FCS (R396). -/
def padFrame (l : List Byte) : List Byte := l ++ List.replicate (60 - l.length) 0

/-- Destination address as a number. -/
def dstMac (l : List Byte) : Nat := beAt l 0 6

/-- Source address. -/
def srcMac (l : List Byte) : Nat := beAt l 6 6

/-- The EtherType behind any tag. -/
def etherType (l : List Byte) : Nat := beAt (untag l) 12 2

/-- The frame carries an R-TAG (EtherType 0xF1C1). -/
def hasRtag (l : List Byte) : Bool := etherType l == 0xF1C1

/-- The sequence number of an R-TAG. -/
def rtagSeq (l : List Byte) : Nat := beAt (untag l) 16 2

/-- The offset of the EtherType behind any tag. -/
def typeOffset (l : List Byte) : Nat := if tagged l then 16 else 12

/-- A frame without its R-TAG (R385). -/
def dropRtag (l : List Byte) : List Byte := let o := typeOffset l; if hasRtag l then l.take o ++ l.drop (o + 6) else l

/-- A frame with an R-TAG (R385): EtherType, two reserved bytes, sequence number. -/
def addRtag (l : List Byte) (seq : Nat) : List Byte :=
  let o := typeOffset l
  l.take o ++ beBytes 2 0xF1C1 ++ [0, 0] ++ beBytes 2 seq ++ l.drop o

/-- Destinations that are never forwarded (R381). -/
def linkLocal (l : List Byte) : Bool := 0x0180C2000000 ≤ dstMac l && dstMac l ≤ 0x0180C200000F

/-- A gPTP frame (R381). -/
def isGptp (l : List Byte) : Bool := etherType l == 0x88F7

/-! ### IPv4, UDP and TRDP -/

/-- The IPv4 packet of a frame, from its header on, or none. -/
def ipv4 (l : List Byte) : Option (List Byte) :=
  let u := untag l
  if beAt u 12 2 = 0x800 then some (u.drop 14) else none

/-- The IPv4 header's length in bytes. -/
def ihl (ip : List Byte) : Nat := beAt ip 0 1 % 16 * 4

/-- The bytes of the UDP datagram: header and data. -/
def udp (ip : List Byte) : List Byte := let u := ip.drop (ihl ip); u.take (beAt u 4 2)

/-- The sum that a UDP checksum covers besides the datagram (RFC 768). -/
def pseudo (ip : List Byte) (len : Nat) : Nat := sum16 (slice ip 12 8) + 17 + len

/-- The checks of the IPv4 and UDP headers (R410): no options, no fragment, checksums that hold. -/
def ipUdpOk (ip : List Byte) : Bool :=
  let u := udp ip
  ihl ip == 20 && beAt ip 6 2 % 2 ^ 14 == 0 && fold16 (sum16 (ip.take 20)) == 65535 &&
  (beAt u 6 2 == 0 || fold16 (pseudo ip u.length + sum16 u) == 65535)

/-- The TRDP telegram of a frame: its header and data, and the destination UDP port, where the frame is UDP over IPv4. -/
def trdp (l : List Byte) : Option (List Byte × Nat) :=
  match ipv4 l with
  | some ip => if beAt ip 9 1 = 17 then some ((udp ip).drop 8, beAt (udp ip) 2 2) else none
  | none => none

/-- The length of a telegram's header: 116 bytes for message data, whose msgType begins with 'M', and 40 otherwise. -/
def trdpHeader (t : List Byte) : Nat := if beAt t 6 1 = 0x4D then 116 else 40

/-- The header FCS as written: the CRC-32 over the header before it, least significant byte first. -/
def trdpFcs (t : List Byte) : List Byte := leBytes 4 (crc32 (t.take (trdpHeader t - 4)))

/-- The header FCS holds. -/
def trdpFcsOk (t : List Byte) : Bool := slice t (trdpHeader t - 4) 4 == trdpFcs t

/-- The TRDP header FCS filled in at byte `o` of a frame (R396). -/
def fillFcs (l : List Byte) (o : Nat) : List Byte :=
  let t := l.drop o
  patch l (o + trdpHeader t - 4) (trdpFcs t)

/-- The IPv4 header and UDP checksums filled in (R396). -/
def fillSums (l : List Byte) : List Byte :=
  match ipv4 l with
  | none => l
  | some ip =>
    let base := typeOffset l + 2
    let h := patch (ip.take (ihl ip)) 10 [0, 0]
    let l := patch l (base + 10) (beBytes 2 (inetSum h))
    if beAt ip 9 1 = 17 then
      let u := patch (udp ip) 6 [0, 0]
      let c := 65535 - fold16 (pseudo ip u.length + sum16 u)
      patch l (base + ihl ip + 6) (beBytes 2 (if c = 0 then 65535 else c))
    else l

/-- A process data telegram (R408): the bytes of its frame. The IPv4 identification, which the rule does not give, is `ident`. -/
def pdFrame (dmac smac : Nat) (tag : Option Nat) (dscp ttl sip dip ident seq comId topo0 topo1 : Nat) (data : List Byte) : List Byte :=
  let head := beBytes 4 seq ++ beBytes 2 0x100 ++ beBytes 2 0x5064 ++ beBytes 4 comId ++ beBytes 4 topo0 ++ beBytes 4 topo1 ++
    beBytes 4 data.length ++ beBytes 12 0
  let pd := head ++ leBytes 4 (crc32 head) ++ data
  let ip := beBytes 1 0x45 ++ beBytes 1 (dscp * 4) ++ beBytes 2 (28 + pd.length) ++ beBytes 2 ident ++ beBytes 2 0x4000 ++
    beBytes 1 ttl ++ beBytes 1 17 ++ [0, 0] ++ beBytes 4 sip ++ beBytes 4 dip
  let udp := beBytes 2 17224 ++ beBytes 2 17224 ++ beBytes 2 (8 + pd.length) ++ [0, 0] ++ pd
  let eth := beBytes 6 dmac ++ beBytes 6 smac ++ beBytes 2 0x800 ++ ip ++ udp
  let l := fillSums eth
  match tag with
  | some t => withTag l t
  | none => l

/-! ### gPTP -/

/-- The clock identity made of a MAC address. -/
def clockId (mac : Nat) : List Byte := beBytes 3 (mac / 2 ^ 24) ++ [0xFF, 0xFE] ++ beBytes 3 mac

/-- The identity of port p. -/
def portId (mac p : Nat) : List Byte := clockId mac ++ beBytes 2 (p + 1)

/-- A gPTP message: type, flags, port identity, sequence number, control field, log interval, body. -/
def ptpFrame (mac : Nat) (type flags : Nat) (id : List Byte) (seq control interval : Nat) (body : List Byte) : List Byte :=
  beBytes 6 0x0180C200000E ++ beBytes 6 mac ++ beBytes 2 0x88F7 ++ beBytes 1 (0x10 + type) ++ beBytes 1 0x12 ++
  beBytes 2 (34 + body.length) ++ beBytes 2 0 ++ beBytes 2 flags ++ beBytes 12 0 ++ id ++ beBytes 2 seq ++ beBytes 1 control ++
  beBytes 1 interval ++ body

/-- A time in units of 2⁻¹⁶ ns as a 10-byte timestamp. -/
def ptpTime (t : Nat) : List Byte := beBytes 6 (t / 2 ^ 16 / 10 ^ 9) ++ beBytes 4 (t / 2 ^ 16 % 10 ^ 9)

/-- The 10-byte timestamp at an offset, in units of 2⁻¹⁶ ns. -/
def ptpStamp (m : List Byte) (o : Nat) : Int := ((beAt m o 6 * 10 ^ 9 + beAt m (o + 6) 4) * 2 ^ 16 : Nat)

/-- The correction field. -/
def ptpCorrection (m : List Byte) : Int := signed 64 (beAt m 8 8)

/-- The Follow_Up information TLV, with no rate or phase change. -/
def followUpTlv : List Byte := beBytes 2 3 ++ beBytes 2 28 ++ beBytes 3 0x0080C2 ++ beBytes 3 1 ++ beBytes 22 0

end Sys2Proof.Machine
end

