-- ==== Sys2Proof/Machine/SeamQueue.lean ====
section
/-! DEFINITION. Seam ports, egress classes, transmission, pre-emption, and the transmit and receive queues (R376, R377, R382, R385 to R388,
R394 to R402). Readings and choices: logs 31, 39, 84. -/

namespace Sys2Proof.Machine

/-! ### Events, tables, ports -/

/-- Event 496 + k (R419): 506, 509 and 511 are always raised. -/
def State.seamEvent (s : State) (k : Nat) : State :=
  s.raiseIf (k == 10 || k == 13 || k == 15 || (s.reg Reg.SEAM_EVTEN).getLsbD k) (496 + k)

/-- Word i of a table entry of the SEAM window at offset `o`. -/
def State.seamWord (s : State) (o i : Nat) : Nat := (s.reg (0x10C00000 + o + 4 * i)).toNat

/-- That word replaced by the engine; the code of its 8-byte word is checked first (R231), and an uncorrectable one is not written (R233). -/
def State.setSeamWord (s : State) (o i v : Nat) : State := s.windowWrite 198 (0x10C00000 + o + 4 * i) (BitVec.ofNat 32 v)

/-- A table entry of `n` bytes is read (R231): an uncorrectable word sends 0x21 to the Lining service context. -/
def State.seamRead (s : State) (o n : Nat) : State := (s.tableRead 198 (0x10C00000 + o) n).2

/-- A wrapping counter of a table entry counts. -/
def State.seamCount (s : State) (o i : Nat) : State := s.setSeamWord o i (s.seamWord o i + 1)

/-- A saturating count register counts (R421). -/
def State.countUp (s : State) (a : Nat) : State := if s.reg a = 0xFFFFFFFF then s else s.setReg a (s.reg a + 1)

/-- A port discards a frame (R379, R382, R397). -/
def State.pdrop (s : State) (p : Nat) : State := s.countUp (Reg.SEAM_PDROP p)

/-- A port. -/
def State.sport (s : State) (p : Fin 10) : SPort := s.seam.ports[p.val]

/-- A port changed. -/
def State.setSport (s : State) (p : Fin 10) (x : SPort) : State := { s with seam := { s.seam with ports := s.seam.ports.set p.val x } }

/-- The class of a PCP at a port (R379). -/
def State.pcpClass (s : State) (p pcp : Nat) : Nat := (s.reg (Reg.SEAM_PTCM p)).toNat / 2 ^ (3 * pcp) % 8

/-- A class of a port holds its 64 frames (R382). -/
def State.classFull (s : State) (p : Fin 10) (c : Nat) : Bool := 64 ≤ ((s.sport p).classes.getD c []).length

/-- A frame joins a class of a port, eligible 24 fc later (R382). -/
def State.place (s : State) (p : Fin 10) (c : Nat) (l : List Byte) (o : Origin) : State :=
  let x := s.sport p
  s.setSport p { x with classes := x.classes.set! c (x.classes.getD c [] ++ [⟨padFrame l, c, s.fc + 24, o⟩]) }

/-! ### Queue contexts -/

/-- The offset of a queue's context (R394). -/
def queueAt (rx : Bool) (q : Nat) : Nat := (if rx then 0x40000 else 0x20000) + 16 * q

/-- A queue's context word. -/
def State.qword (s : State) (rx : Bool) (q i : Nat) : Nat := s.seamWord (queueAt rx q) i

/-- A queue is enabled. -/
def State.qEnabled (s : State) (rx : Bool) (q : Nat) : Bool := s.qword rx q 0 / 2 ^ 31 == 1

/-- The ring size of a queue. -/
def State.qSize (s : State) (rx : Bool) (q : Nat) : Nat := 2 ^ (s.qword rx q 0 % 16)

/-- HEAD of a queue. -/
def State.qHead (s : State) (rx : Bool) (q : Nat) : Nat := s.qword rx q 3 % 4096

/-- TAIL of a queue. -/
def State.qTail (s : State) (rx : Bool) (q : Nat) : Nat := s.qword rx q 3 / 2 ^ 16 % 4096

/-- COH of a queue. -/
def State.qCoh (s : State) (rx : Bool) (q : Nat) : Bool := s.qword rx q 0 / 2 ^ 30 % 2 == 1

/-- The egress port and class of a transmit queue. -/
def State.qPort (s : State) (q : Nat) : Fin 10 := Fin.ofNat 10 (s.qword false q 0 / 2 ^ 25 % 16)

/-- The traffic class of a transmit queue. -/
def State.qClass (s : State) (q : Nat) : Nat := s.qword false q 0 / 2 ^ 22 % 8

/-- The address of a descriptor. -/
def State.qDesc (s : State) (rx : Bool) (q i : Nat) : Nat :=
  s.qword rx q 1 / 64 * 64 + s.qword rx q 2 % 256 * 2 ^ 32 + 32 * i

/-- The queue's event line is raised (R399). -/
def State.qEvent (s : State) (rx : Bool) (q : Nat) : State := s.raise (624 + s.qword rx q 0 / 2 ^ 15 % 128)

/-- HEAD moves on. -/
def State.qAdvance (s : State) (rx : Bool) (q : Nat) : State :=
  s.setSeamWord (queueAt rx q) 3 (s.qTail rx q * 2 ^ 16 + (s.qHead rx q + 1) % s.qSize rx q)

/-- A queue is being aborted (R401). -/
def State.qAborting (s : State) (rx : Bool) (q : Nat) : Bool := s.seam.aborts.any (fun a => a.rx == rx && a.q == q)

/-- A queue takes descriptors: enabled, not aborted, and HEAD ≠ TAIL (R395, R401). -/
def State.qWork (s : State) (rx : Bool) (q : Nat) : Bool :=
  s.qEnabled rx q && !s.qAborting rx q && s.qHead rx q != s.qTail rx q

/-- An ignored or refused queue write (R394). -/
def State.qIgnored (s : State) : State := s.setFld Reg.SEAM_STAT Fld.SEAM_STAT_QWI 1

/-- The number under which a queue's completions are noted: q of a transmit queue, 8,192 + q of a receive queue. -/
def queueKey (rx : Bool) (q : Nat) : Nat := if rx then 8192 + q else q

/-- A queue completes a descriptor in this fc, whose words D4 to D7 it has written at an address. -/
def State.qDone (s : State) (rx : Bool) (q : Nat) (a d4 : Nat) : State :=
  let k := queueKey rx q
  let old := if Sparse.get k s.seam.doneFc = some s.fc then s.seam.landed else s.seam.landed.filter (fun l => l.1 != k)
  { s with seam := { s.seam with doneFc := Sparse.put k s.fc s.seam.doneFc, landed := old ++ [(k, a, d4)] } }

/-- A DMA error (R400). -/
def State.dmaError (s : State) (addr : Nat) : State :=
  ((s.setFld Reg.SEAM_STAT Fld.SEAM_STAT_DMAERR 1).setAddr Reg.SEAM_EADRL Reg.SEAM_EADRH addr).seamEvent 14

/-! ### Completion, abort -/

/-- The transmit descriptors a queue has taken. -/
def State.txList (s : State) (q : Nat) : List TxD := (Sparse.get q s.seam.tx).getD []

/-- That list replaced. -/
def State.setTxList (s : State) (q : Nat) (l : List TxD) : State :=
  { s with seam := { s.seam with tx := if l = [] then Sparse.erase q s.seam.tx else Sparse.put q l s.seam.tx } }

/-- The word D4 of a completion with RESULT 0x1 (R398). -/
def abortedD4 (w : Nat) : Nat := w - w / 2 ^ 28 % 8 * 2 ^ 28 + 2 ^ 28

/-- The descriptors that a queue completed in the fc of an abort's sample are marked aborted (R402). -/
def State.markLanded (s : State) (rx : Bool) (q : Nat) : State :=
  let k := queueKey rx q
  if Sparse.get k s.seam.doneFc = some s.fc then
    (s.seam.landed.filter (fun l => l.1 == k)).foldl
      (fun s l => (s.engineWrite .seam (s.qCoh rx q) l.2.1 (leBytes 4 (abortedD4 l.2.2))).2) s
  else s

/-- The words of a completion of a queue, marked aborted where the queue is being aborted (R402). -/
def State.markedWords (s : State) (rx : Bool) (q : Nat) (w : List Word) : List Word :=
  if s.qAborting rx q then w.modify 0 (fun d => BitVec.ofNat 32 (abortedD4 d.toNat)) else w

/-- A queue begins to stop (R401, R402): frames not started are removed and complete as aborted; below 1 Gb/s a frame on the wire is cut
and one that pre-emption holds is withdrawn. Completions are written by the flush that follows. -/
def State.qStop (s : State) (rx : Bool) (q : Nat) (late : Bool) : State :=
  let s := { s with seam := { s.seam with aborts := s.seam.aborts ++ [(⟨rx, q, late⟩ : QAbort)] } }
  let s := s.markLanded rx q
  if rx then s
  else
    let mine (f : SFrame) : Bool := match f.origin with
      | .queue k _ => k == q
      | _ => false
    (List.finRange 10).foldl (fun s p =>
      let x := s.sport p
      let slow := s.fld (Reg.SEAM_PSTAT p) Fld.SEAM_PSTAT_SPEED < 2
      let gone := (x.classes.toList.flatMap (fun c => c.filter mine)) ++
        (if slow then (x.wire.toList ++ x.held.toList).filter mine else [])
      let x := { x with
        classes := x.classes.map (fun c => c.filter (fun f => !mine f))
        wire := if slow then x.wire.filter (fun f => !mine f) else x.wire
        held := if slow then x.held.filter (fun f => !mine f) else x.held }
      let hit (d : TxD) : Nat := (gone.filter (fun f => f.origin == .queue q d.idx)).length
      (s.setSport p x).setTxList q ((s.txList q).map (fun d =>
        if hit d = 0 then d else { d with left := d.left - hit d, result := some 1 }))) s

/-- The words D4 to D7 of a transmit completion (R396); without a timestamp D5 to D7 are open (log 84). -/
def TxD.words (d : TxD) : List Word :=
  let t := d.stamp
  [BitVec.ofNat 32 (2 ^ 31 + (d.result.getD 0) * 2 ^ 28), BitVec.ofNat 32 (t / 2 ^ 16), BitVec.ofNat 32 (t / 2 ^ 48), BitVec.ofNat 32 (t % 2 ^ 16)]

/-- Words as bytes. -/
def wordBytes (l : List Word) : List Byte := l.flatMap (fun w => leBytes 4 w.toNat)

/-- A transmit queue writes its completions in ring order as far as they are known (R395, R396, R399, R402); a write that fails stops the
queue (R400). -/
def State.txFlush : Nat → Nat → State → State
  | 0, _, s => s
  | fuel + 1, q, s =>
    match s.txList q with
    | [] => s
    | d :: t =>
      if d.left ≠ 0 ∨ d.result.isNone then s
      else
        let a := s.qDesc false q d.idx + 16
        let words := s.markedWords false q d.words
        let ends (s : State) : State := (s.setTxList q t).qDone false q a ((words.headD 0).toNat)
        let fails (s : State) (k : Nat) : State :=
          let s := (ends s).dmaError k
          State.txFlush fuel q (if s.qAborting false q then s else s.qStop false q false)
        match s.engineWrites .seam (s.qCoh false q) a (wordBytes words) with
        | (.done, s) => State.txFlush fuel q (if d.evt then (ends s).qEvent false q else ends s)
        | (.refused _ k, s) => fails s k
        | (.uncorrectable k, s) => fails s k
        | (.held, s) => s

/-- A copy of a descriptor's frame has left its port (R396), with the timestamp that a port 0–7 records where it is asked for (R389). -/
def State.txMark (s : State) (q idx : Nat) (stamp : Option Nat) : State :=
  let s := s.setTxList q ((s.txList q).map (fun d => if d.idx = idx then
    { d with left := d.left - 1, result := some (d.result.getD 0), stamp := if d.ts then stamp.getD d.stamp else d.stamp } else d))
  s.txFlush 4096 q

/-- The completions that memory held off are written as it lets them (R395). -/
def State.txResume (s : State) : State := s.seam.tx.foldl (fun s p => s.txFlush 4096 p.1) s

/-- The stop of a queue and the completions that follow from it. -/
def State.qAbort (s : State) (rx : Bool) (q : Nat) (late : Bool) : State :=
  let s := s.qStop rx q late
  if rx then s else s.txFlush 4096 q

/-- A frame of a receive queue waits for its memory. -/
def State.qWaits (s : State) (q : Nat) : Bool :=
  s.seam.waiting.any (fun d => match d with | .queue k _ _ _ _ => k == q | .stream _ _ => false)

/-- A write to SEAM_QCMD (R401, R402). -/
def State.qCommand (s : State) (data : Word) : State :=
  if Fld.SEAM_QCMD_ABORT.get data = 0 then s
  else if s.flag Reg.SEAM_QSTAT Fld.SEAM_QSTAT_BUSY then s.qIgnored
  else
    let rx := Fld.SEAM_QCMD_RX.get data = 1
    let q := Fld.SEAM_QCMD_QUEUE.get data
    let busy := if rx then s.seam.rxc.any (fun c => c.q == q) || s.qWaits q else s.txList q != []
    let late := s.qHead rx q == s.qTail rx q && !busy && Sparse.get (queueKey rx q) s.seam.doneFc != some s.fc
    (s.setFld Reg.SEAM_QSTAT Fld.SEAM_QSTAT_BUSY 1).qAbort rx q late

/-- QUEUE_ABORT (R401). -/
def execQueueAbort (_who : Who) (data : Word) (s : State) : Out := .next (s.qCommand data)

/-- A frame of the queue is on a wire or held. -/
def State.qOnWire (s : State) (q : Nat) : Bool :=
  s.seam.ports.toList.any (fun x => (x.wire.toList ++ x.held.toList).any (fun f => match f.origin with
    | .queue k _ => k == q
    | _ => false))

/-- QUEUE_ABORT_COMPLETE (R401): every frame and completion of the queue has ended. -/
def execQueueAbortComplete (rx : Bool) (q : Fin 8192) (s : State) : Out :=
  match s.seam.aborts.find? (fun a => a.rx == rx && a.q == q.val) with
  | none => .next s
  | some a =>
    if (if rx then s.seam.rxc.any (fun c => c.q == q.val) || s.qWaits q else s.qOnWire q || s.txList q != []) then .next s
    else
      let s := { s with seam := { s.seam with aborts := s.seam.aborts.erase a } }
      let s := s.setSeamWord (queueAt rx q) 0 (s.qword rx q 0 % 2 ^ 31)
      let s := s.setFld Reg.SEAM_QSTAT Fld.SEAM_QSTAT_ABORTED 1
      let s := if s.seam.aborts.isEmpty then s.setFld Reg.SEAM_QSTAT Fld.SEAM_QSTAT_BUSY 0 else s
      let s := if a.late then s.setFld Reg.SEAM_QSTAT Fld.SEAM_QSTAT_ABLATE 1 else s
      .next (s.seamEvent 13)

/-! ### Queue writes -/

/-- A write to word i of a queue's context (R394). -/
def State.queueWrite (s : State) (rx : Bool) (q i : Nat) (data : Word) : State :=
  let o := queueAt rx q
  if s.qEnabled rx q || i = 3 then s.qIgnored
  else if i = 0 then
    let w := data.toNat
    let szl := w % 16
    let port := w / 2 ^ 25 % 16
    let stored := w &&& 0xDFFF800F
    if w / 2 ^ 31 = 0 then s.setSeamWord o 0 stored
    else if szl < 2 ∨ 12 < szl ∨ (rx = false ∧ (port = 8 ∨ 9 < port)) then s.qIgnored
    else (s.setSeamWord o 0 stored).setSeamWord o 3 0
  else s.setSeamWord o i (if i = 1 then data.toNat / 64 * 64 else data.toNat % 256)

/-- QUEUE_ENABLE (R394). -/
def execQueueEnable (_who : Who) (rx : Bool) (q : Fin 8192) (data : Word) (s : State) : Out := .next (s.queueWrite rx q 0 data)

/-- A write to SEAM_TXDB or SEAM_RXDB (R395). -/
def State.qDoorbell (s : State) (rx : Bool) (data : Word) : State :=
  let q := Fld.SEAM_TXDB_QUEUE.get data
  if s.qEnabled rx q then
    s.setSeamWord (queueAt rx q) 3 (Fld.SEAM_TXDB_TAIL.get data % s.qSize rx q * 2 ^ 16 + s.qHead rx q)
  else s.qIgnored

/-- TX_DOORBELL (R395). -/
def execTxDoorbell (_who : Who) (data : Word) (s : State) : Out := .next (s.qDoorbell false data)

/-- RX_DOORBELL (R395). -/
def execRxDoorbell (_who : Who) (data : Word) (s : State) : Out := .next (s.qDoorbell true data)

/-! ### Placing frames of queues and telegrams -/

/-- A CB stream's record. -/
def State.cbRec (s : State) (c : Nat) : CbRec := (Sparse.get c s.seam.cb).getD ⟨0, true, 0, [], 0⟩

/-- That record replaced. -/
def State.setCbRec (s : State) (c : Nat) (x : CbRec) : State := { s with seam := { s.seam with cb := Sparse.put c x s.seam.cb } }

/-- CB stream c generates sequence numbers (R385). -/
def State.cbGenerates (s : State) (c : Nat) : Bool := s.seamWord (0xC0000 + 16 * c) 0 / 2 ^ 30 == 3

/-- The ports at which a frame of a queue or a telegram is placed: SPLIT of its CB stream, or its queue's port (R385, R408). -/
def State.egress (s : State) (port : Fin 10) (cbs : Option Nat) : List (Fin 10) :=
  match cbs with
  | some c => if s.cbGenerates c then
      (List.finRange 10).filter (fun p => p.val < 9 && (s.seamWord (0xC0000 + 16 * c) 0).testBit p.val) else [port]
  | none => [port]

/-- The frame takes the next sequence number of its CB stream in an R-TAG (R385). -/
def State.sequence (s : State) (cbs : Option Nat) (l : List Byte) : List Byte × State :=
  match cbs with
  | some c => if s.cbGenerates c then
      let r := s.cbRec c
      (addRtag l r.gen, s.setCbRec c { r with gen := (r.gen + 1) % 65536 })
    else (l, s)
  | none => (l, s)

/-- A port forwards: its link is up and its STATE is forwarding (R396); the internal port has no link. -/
def State.portUp (s : State) (p : Nat) : Bool :=
  p == 8 || s.flag (Reg.SEAM_PCTL p) Fld.SEAM_PCTL_EN && s.fld (Reg.SEAM_PCTL p) Fld.SEAM_PCTL_STATE == 2 &&
  s.flag (Reg.SEAM_PSTAT p) Fld.SEAM_PSTAT_LINK

/-- TX_DESCRIPTOR_FETCH (R395, R396, R400): the next descriptor of a queue and its frame are read, and the frame is placed; it waits for
room in its class. -/
def execTxDescriptorFetch (q : Fin 8192) (upsets : Upsets) (s : State) : Out :=
  if s.qWork false q = false then .next s
  else
    let cls := s.qClass q
    let idx := s.qHead false q
    let take (s : State) (d : TxD) : State := (s.qAdvance false q).setTxList q (s.txList q ++ [d])
    let ends (s : State) (d : TxD) (r : Nat) : State := (take s { d with result := some r }).txFlush 4096 q
    let fails (s : State) (d : TxD) (k : Nat) : State := (ends s d 2).dmaError k
    let s1 := (s.strike upsets).seamRead (queueAt false q) 16
    let s1 := { s1 with free := s1.free + 1 }
    let open_ : TxD := ⟨idx, false, false, 0, none, Config.freeNat s.free⟩
    match s1.engineReads .seam (s.qCoh false q) (s.qDesc false q idx) 32 with
    | (.bytes b, s1) =>
      let w (i : Nat) : Nat := leNat (slice b (4 * i) 4)
      let d : TxD := { open_ with ts := w 2 / 2 ^ 31 == 1, evt := w 2 / 2 ^ 30 % 2 == 1 }
      let len := w 2 % 2 ^ 11
      let cbs := if w 3 / 2 ^ 31 = 1 then some (w 3 % 2 ^ 11) else none
      let all := s.egress (s.qPort q) cbs
      let ports := all.filter (fun (p : Fin 10) => s.portUp p)
      if len < 14 ∨ 1518 < len then .next (ends s1 d 3)
      else if all ≠ [] ∧ ports = [] then .next (ends s1 d 4)
      else if ports.any (fun p => s.classFull p cls) then .next s
      else
        match s1.engineReads .seam (s.qCoh false q) (w 0 + w 1 % 256 * 2 ^ 32) len with
        | (.bytes l, s1) =>
          let l := if w 2 / 2 ^ 28 % 2 = 1 then fillFcs l (w 2 / 2 ^ 16 % 4096) else l
          let l := if w 2 / 2 ^ 29 % 2 = 1 then fillSums l else l
          let r := s1.sequence cbs l
          let s1 := take r.2 { d with left := ports.length, result := if ports = [] then some 0 else none }
          .next ((ports.foldl (fun s p => s.place p cls r.1 (.queue q idx)) s1).txFlush 4096 q)
        | (.refused _ k, s1) => .next (fails s1 d k)
        | (.uncorrectable k, s1) => .next (fails s1 d k)
        | (.held, s1) => .next s1
    | (.refused _ k, s1) => .next (fails s1 open_ k)
    | (.uncorrectable k, s1) => .next (fails s1 open_ k)
    | (.held, s1) => .next s1

/-! ### Gates, selection, transmission -/

/-- A class of a port is preemptable and its port's pre-emption is active (R388). -/
def State.preemptable (s : State) (p : Fin 10) (c : Nat) : Bool :=
  p.val < 8 && (s.fld (Reg.SEAM_PPRE p) Fld.SEAM_PPRE_PMASK).testBit c

/-- Pre-emption acts at a port (R388). -/
def State.preempts (s : State) (p : Fin 10) : Bool :=
  p.val < 8 && (!s.flag (Reg.SEAM_PPRE p) Fld.SEAM_PPRE_VERIFY || s.flag (Reg.SEAM_PSTAT p) Fld.SEAM_PSTAT_VERIFIED)

/-- The gate of a class is open (R386); only ports 0–7 have gates. -/
def State.gateOpen (s : State) (p : Fin 10) (c : Nat) : Bool := 8 ≤ p.val || (s.reg (Reg.SEAM_GATE p)).getLsbD c

/-- The frame that a port would select (R386): the head of the highest class whose gate is open and which holds an eligible frame. -/
def State.candidate (s : State) (p : Fin 10) : Option SFrame :=
  [7, 6, 5, 4, 3, 2, 1, 0].findSome? (fun c =>
    if s.gateOpen p c then ((s.sport p).classes.getD c []).head?.filter (fun f => f.elig ≤ s.fc) else none)

/-- The same among express classes (R388). -/
def State.expressCandidate (s : State) (p : Fin 10) : Option SFrame :=
  [7, 6, 5, 4, 3, 2, 1, 0].findSome? (fun c =>
    if s.gateOpen p c && !s.preemptable p c then ((s.sport p).classes.getD c []).head?.filter (fun f => f.elig ≤ s.fc) else none)

/-- A frame leaves its class for the wire. -/
def State.toWire (s : State) (p : Fin 10) (f : SFrame) (held : Option SFrame) : State :=
  let x := s.sport p
  s.setSport p { x with
    classes := x.classes.set! f.cls ((x.classes.getD f.cls []).tail), wire := some f, held := held
    cut := if held.isSome then x.cut else 0, since := s.fc }

/-- A port's speed in Mb/s (R376). -/
def speedMbps (speed : Nat) : Nat := ([10, 100, 1000, 2500, 5000, 10000] : List Nat).getD speed 10

/-- The bytes that what is on a port's wire has carried since it began, behind the eight that go before a frame or a fragment (PRESUMED of IEEE
802.3br, log 31). -/
def State.wireBytes (s : State) (p : Fin 10) : Nat :=
  (s.fc - (s.sport p).since) * speedMbps (s.fld (Reg.SEAM_PSTAT p) Fld.SEAM_PSTAT_SPEED) / 6000 - 8

/-- The frame on the wire may be cut here (R388): its present fragment has carried the minimum of ADDFRAG, and what remains of it with its FCS is not
below 64 bytes (PRESUMED of IEEE 802.3br, log 31). -/
def State.cuttable (s : State) (p : Fin 10) (f : SFrame) : Bool :=
  let n := s.wireBytes p
  64 * (1 + s.fld (Reg.SEAM_PPRE p) Fld.SEAM_PPRE_ADDFRAG) - 4 ≤ n && (s.sport p).cut + n + 64 ≤ f.bytes.length + 4

/-- The selection of an external port (R386, R388): an idle port takes its candidate; with a preemptable frame on the wire, pre-emption puts
an express one in its place at the first point that it may be cut; an idle port with a frame held takes an express one or resumes it. -/
def State.selectFrame (s : State) (p : Fin 10) : State :=
  let x := s.sport p
  match x.wire, x.held with
  | none, none => match s.candidate p with
    | some f => s.toWire p f none
    | none => s
  | none, some h => match s.expressCandidate p with
    | some f => s.toWire p f (some h)
    | none => s.setSport p { x with wire := some h, held := none, since := s.fc }
  | some w, none =>
    if s.preemptable p w.cls && s.preempts p && s.cuttable p w then
      match s.expressCandidate p with
      | some f => (s.setSport p { x with cut := x.cut + s.wireBytes p }).toWire p f (some w)
      | none => s
    else s
  | some _, some _ => s

/-- A write to SEAM_GSETp (R386, R387): a frame still on the wire whose gate closes counts as an overrun. -/
def State.gateWrite (s : State) (p : Nat) (data : Word) : State :=
  let mask := Fld.SEAM_GSET_MASK.get data
  let val := Fld.SEAM_GSET_VAL.get data
  let old := s.fld (Reg.SEAM_GATE p) Fld.SEAM_GATE_GATES
  let new := (old &&& (255 - mask)) ||| (val &&& mask)
  let s := s.setFld (Reg.SEAM_GATE p) Fld.SEAM_GATE_GATES new
  match (s.sport (Fin.ofNat 10 p)).wire with
  | some f => if old.testBit f.cls && !new.testBit f.cls then s.countUp (Reg.SEAM_POVR p) else s
  | none => s

/-- GATE_SET (R386). -/
def execGateSet (_who : Who) (p : Fin 8) (data : Word) (s : State) : Out := .next (s.gateWrite p data)

/-- RX_COMPLETION_LANDED (R398, R399, R402): the oldest completion is written and its queue's event line raised; a write that fails stops the
queue (R400). -/
def execRxCompletionLanded (upsets : Upsets) (s : State) : Out :=
  match s.seam.rxc with
  | [] => .next s
  | c :: t =>
    let words := s.markedWords true c.q c.words
    let ends (s : State) : State := { s with seam := { s.seam with rxc := t } }.qDone true c.q (c.addr + 16) ((words.headD 0).toNat)
    let fails (s : State) (k : Nat) : State :=
      let s := (ends s).dmaError k
      if s.qAborting true c.q then s else s.qAbort true c.q false
    match (s.strike upsets).engineWrites .seam (s.qCoh true c.q) (c.addr + 16) (wordBytes words) with
    | (.done, s) => .next ((ends s).qEvent true c.q)
    | (.refused _ k, s) => .next (fails s k)
    | (.uncorrectable k, s) => .next (fails s k)
    | (.held, s) => .next s

/-- The words D4 to D7 of a receive completion (R398). -/
def rxWords (sport index stamp : Nat) (l : List Byte) : List Word :=
  [BitVec.ofNat 32 (2 ^ 31 + sport * 2 ^ 24 + bit (tagged l) * 2 ^ 23 + index % 4096 * 2 ^ 11 + l.length % 2 ^ 11),
    BitVec.ofNat 32 (stamp / 2 ^ 16), BitVec.ofNat 32 (stamp / 2 ^ 48), BitVec.ofNat 32 (stamp % 2 ^ 16)]

/-- A frame waits while memory holds its queue's or its listener's accesses (log 84). -/
def State.keepDelivery (s : State) (d : Delivery) : State := { s with seam := { s.seam with waiting := s.seam.waiting ++ [d] } }

/-- A frame for a receive queue (R397, R398): it is discarded where the queue cannot take it; otherwise it is written and its completion
waits to land. A frame kept since before an abort is finished by it (R401). -/
def State.toRxQueue (s : State) (kept : Bool) (q : Nat) (sport index stamp : Nat) (l : List Byte) : State :=
  let s := s.seamRead (queueAt true q) 16
  if s.qEnabled true q = false ∨ (s.qAborting true q = true ∧ kept = false) ∨ s.qHead true q = s.qTail true q then s.pdrop 8
  else
    let d := s.qDesc true q (s.qHead true q)
    let coh := s.qCoh true q
    let fails (s : State) (k : Nat) : State :=
      let s := s.dmaError k
      if s.qAborting true q then s else s.qAbort true q false
    match s.engineReads .seam coh d 32 with
    | (.bytes b, s1) =>
      if leNat (slice b 8 4) % 65536 < l.length then s1.pdrop 8
      else
        match s1.engineWrites .seam coh (leNat (slice b 0 4) + leNat (slice b 4 4) % 256 * 2 ^ 32) l with
        | (.done, s) =>
          let s := s.qAdvance true q
          { s with seam := { s.seam with rxc := s.seam.rxc ++ [⟨q, d, rxWords sport index stamp l⟩] } }
        | (.refused _ k, s) => fails s k
        | (.uncorrectable k, s) => fails s k
        | (.held, s) => s.keepDelivery (.queue q sport index stamp l)
    | (.refused _ k, s) => fails s k
    | (.uncorrectable k, s) => fails s k
    | (.held, s) => s.keepDelivery (.queue q sport index stamp l)

/-- The same behind the frames of that queue that wait (R395); one that reaches an aborted queue is discarded (R401). -/
def State.toRxQueueAfter (s : State) (kept : Bool) (q : Nat) (sport index stamp : Nat) (l : List Byte) : State :=
  if s.qWaits q && (kept || !s.qAborting true q) then s.keepDelivery (.queue q sport index stamp l)
  else s.toRxQueue kept q sport index stamp l

end Sys2Proof.Machine
end

