-- ==== Sys2Proof/Machine/Telegram.lean ====
section
/-! DEFINITION. The telegram table, publishers, subscribers and message data (R403 to R416). Readings and choices: logs 31, 32, 39. -/

namespace Sys2Proof.Machine

/-- The address of word k of telegram entry i (R403). -/
def tgAddr (i k : Nat) : Nat := 0x20400000 + 64 * i + 4 * k

/-- Word k of entry i. -/
def State.tg (s : State) (i k : Nat) : Nat := leNat (s.bytes (tgAddr i k) 4)

/-- The engine writes a 32-bit word of seam memory or of the telegram table: an uncorrectable word is left as it is (R233). -/
def State.localWrite (s : State) (a v : Nat) : State :=
  let r := s.checkWord 198 (a / 8 * 8)
  if r.1 then r.2.liningService .ecc else { r.2 with mem := Memory.writes r.2.mem a (leBytes 4 v) }

/-- The engine writes bytes of seam memory. -/
def State.localBytes (s : State) (a : Nat) (l : List Byte) : State := (s.memPut 198 a l).2

/-- Word k of entry i replaced by the engine. -/
def State.setTg (s : State) (i k v : Nat) : State := s.localWrite (tgAddr i k) v

/-- The engine reads an entry: the code is checked (R231). -/
def State.tgRead (s : State) (i : Nat) : State := (s.tableRead 198 (tgAddr i 0) 64).2

/-- V of an entry. -/
def State.tgValid (s : State) (i : Nat) : Bool := s.tg i 0 / 2 ^ 31 == 1

/-- KIND of an entry. -/
def State.tgKind (s : State) (i : Nat) : Nat := s.tg i 0 / 2 ^ 28 % 8

/-- DLEN of an entry. -/
def State.tgLen (s : State) (i : Nat) : Nat := s.tg i 0 % 2 ^ 11

/-- GROUP of an entry. -/
def State.tgGroup (s : State) (i : Nat) : Nat := s.tg i 0 / 2 ^ 16 % 256

/-- A telegram of an entry is discarded: DISC saturates (R403). -/
def State.tgDiscard (s : State) (i : Nat) : State := if s.tg i 15 = 0xFFFFFFFF then s else s.setTg i 15 (s.tg i 15 + 1)

/-- A telegram of an entry is sent or accepted. -/
def State.tgCount (s : State) (i : Nat) : State := s.setTg i 14 (s.tg i 14 + 1)

/-- An image buffer of an entry (R403). -/
def State.tgImage (s : State) (i b : Nat) : Nat := 0x20000000 + s.tg i (7 + b) / 64 % 2 ^ 16 * 64

/-- The status block of a subscriber. -/
def State.tgStatus (s : State) (i : Nat) : Nat := 0x20000000 + s.tg i 9 / 16 % 2 ^ 18 * 16

/-- Device time as a deadline from now or from a timestamp: TIMEOUT is in µs (R414). -/
def State.setDead (s : State) (i t : Nat) : State :=
  let d := t + 1000 * s.tg i 10
  (s.setTg i 12 d).setTg i 13 (d / 2 ^ 32)

/-! ### The key and its slot (R405) -/

/-- The key's hash. -/
def tgHash (comId dip port : Nat) : Nat := crc32c (beBytes 4 comId ++ beBytes 4 dip ++ beBytes 2 port)

/-- The bucket of a hash. -/
def tgBucket (h : Nat) : Nat := h % 4096

/-- The slot of a hash: DISP[b] is a word of the window. -/
def State.tgSlot (s : State) (h : Nat) : Nat := (h / 4096 % 2 ^ 15 + s.seamWord (0xC8000 + 4 * tgBucket h) 0 % 2 ^ 15) % 32768

/-- The UDP port of a keyed kind. -/
def kindPort (k : Nat) : Option Nat := if k = 2 then some 17224 else if k = 3 then some 17225 else none

/-- The hash of a keyed entry. -/
def State.tgKey (s : State) (i : Nat) : Option Nat := (kindPort (s.tgKind i)).map (fun p => tgHash (s.tg i 1) (s.tg i 2) p)

/-- The number of valid keyed entries of a bucket (R407). -/
def State.keyedIn (s : State) (b : Nat) : Nat := (Sparse.get b s.seam.keyed).getD 0

/-- That number changed. -/
def State.setKeyed (s : State) (b n : Nat) : State :=
  { s with seam := { s.seam with keyed := if n = 0 then Sparse.erase b s.seam.keyed else Sparse.put b n s.seam.keyed } }

/-! ### Commands (R406) -/

/-- The content of an entry is valid (R406). -/
def State.tgContent (s : State) (i : Nat) : Bool :=
  let k := s.tgKind i
  let q := s.tg i 6 % 2 ^ 13
  let images := k == 3 || (s.tgLen i ≤ 1432 && s.tgImage i 0 + s.tgLen i ≤ 0x20400000 && s.tgImage i 1 + s.tgLen i ≤ 0x20400000)
  (k == 1 || k == 2 || k == 3) && images && (k != 2 || s.tgStatus i + 16 ≤ 0x20400000) &&
  (k != 1 || s.qEnabled false q) && (k != 3 || s.qEnabled true q)

/-- A list with an index joined in order. -/
def insertIndex (i : Nat) : List Nat → List Nat
  | [] => [i]
  | j :: t => if i < j then i :: j :: t else if i = j then j :: t else j :: insertIndex i t

/-- The publishers of a group (R406). -/
def State.members (s : State) (g : Nat) : List Nat := (Sparse.get g s.seam.groups).getD []

/-- Those publishers replaced. -/
def State.setMembers (s : State) (g : Nat) (l : List Nat) : State :=
  { s with seam := { s.seam with groups := if l = [] then Sparse.erase g s.seam.groups else Sparse.put g l s.seam.groups } }

/-- A command's outcome (R406). -/
def State.tgResult (s : State) (r : Nat) : State :=
  let s := s.setFld Reg.SEAM_TSTAT Fld.SEAM_TSTAT_RES r
  if r = 0 then s else (s.setFld Reg.SEAM_TSTAT Fld.SEAM_TSTAT_TREF 1).seamEvent 10

/-- INS i (R406). -/
def State.tgInsert (s : State) (i : Nat) : State :=
  let s := s.tgRead i
  let key := s.tgKey i
  if key.any (fun h => s.tgSlot h != i) then s.tgResult 1
  else if s.tgValid i then s.tgResult 2
  else if s.tgContent i = false then s.tgResult 3
  else
    let s := s.setTg i 0 (s.tg i 0 % 2 ^ 31 + 2 ^ 31)
    let s := [11, 12, 13, 14, 15].foldl (fun s k => s.setTg i k 0) s
    let s := if s.tgKind i = 2 then s.setDead i s.now else s
    let s := match key with
      | some h => s.setKeyed (tgBucket h) (s.keyedIn (tgBucket h) + 1)
      | none => s.setMembers (s.tgGroup i) (insertIndex i (s.members (s.tgGroup i)))
    s.tgResult 0

/-- DEL i (R406). -/
def State.tgDelete (s : State) (i : Nat) : State :=
  let s := s.tgRead i
  if s.tgValid i = false then s.tgResult 4
  else
    let s := match s.tgKey i with
      | some h => s.setKeyed (tgBucket h) (s.keyedIn (tgBucket h) - 1)
      | none => s.setMembers (s.tgGroup i) ((s.members (s.tgGroup i)).filter (fun j => j != i))
    (s.setTg i 0 (s.tg i 0 % 2 ^ 31)).tgResult 0

/-- A command of SEAM_TCMD (R406): while BUSY is 1 it is ignored and sets TREF; otherwise it acts in this fc, and BUSY falls at most 4 fc
later, after a number of fc left open (log 32). -/
def State.tgTake4 (s : State) (f : State → State) : State :=
  if s.flag Reg.SEAM_TSTAT Fld.SEAM_TSTAT_BUSY then s.setFld Reg.SEAM_TSTAT Fld.SEAM_TSTAT_TREF 1
  else
    let n := Config.freeNat s.free % 5
    let s := f { s with free := s.free + 1 }
    if n = 0 then s else { s.setFld Reg.SEAM_TSTAT Fld.SEAM_TSTAT_BUSY 1 with seam := { s.seam with tcmd := some (s.fc + n) } }

/-- BUSY of SEAM_TSTAT falls in its fc (R406). -/
def State.tgIdle (s : State) : State :=
  if s.seam.tcmd.any (fun n => n ≤ s.fc) then
    { s.setFld Reg.SEAM_TSTAT Fld.SEAM_TSTAT_BUSY 0 with seam := { s.seam with tcmd := none } }
  else s

/-- A write to SEAM_TCMD (R406). -/
def State.tgCommand (s : State) (data : Word) : State :=
  let i := Fld.SEAM_TCMD_INDEX.get data
  s.tgTake4 (fun s => match Fld.SEAM_TCMD_CMD.get data with
    | 1 => s.tgInsert i
    | 2 => s.tgDelete i
    | _ => s)

/-- TELEGRAM_INSERT (R406). -/
def execTelegramInsert (_who : Who) (i : Fin 32768) (s : State) : Out := .next (s.tgTake4 (fun s => s.tgInsert i))

/-- TELEGRAM_DELETE (R406). -/
def execTelegramDelete (_who : Who) (i : Fin 32768) (s : State) : Out := .next (s.tgTake4 (fun s => s.tgDelete i))

/-! ### Publishing (R408, R409) -/

/-- The valid publisher of a group at or above an index. -/
def State.nextPublisher (s : State) (g i : Nat) : Option Nat := (s.members g).find? (fun j => i ≤ j)

/-- The build of a group ends when no publisher is left. -/
def State.buildOn (s : State) (g i : Nat) : State :=
  match s.nextPublisher g i with
  | some _ => { s with seam := { s.seam with builds := Sparse.put g i s.seam.builds } }
  | none => { s.setFld (Reg.SEAM_PGSTAT g) Fld.SEAM_PGSTAT_BUSY 0 with seam := { s.seam with builds := Sparse.erase g s.seam.builds } }

/-- Bridge and offload run (R421). -/
def State.seamRuns (s : State) : Bool := s.flag Reg.SEAM_CTRL Fld.SEAM_CTRL_EN

/-- A write to SEAM_PUB (R408); with SEAM_CTRL.EN = 0 no offload runs and it does nothing (R421; DEDUCED, log 84). -/
def State.publish (s : State) (data : Word) : State :=
  let g := Fld.SEAM_PUB_GROUP.get data
  let a := Reg.SEAM_PGSTAT g
  if s.seamRuns = false then s
  else if s.flag a Fld.SEAM_PGSTAT_BUSY then (s.setFld Reg.SEAM_STAT Fld.SEAM_STAT_PREF 1).seamEvent 15
  else (s.setFlds a [(Fld.SEAM_PGSTAT_FRONT, 1 - s.fld a Fld.SEAM_PGSTAT_FRONT), (Fld.SEAM_PGSTAT_BUSY, 1)]).buildOn g 0

/-- PUBLISH (R408). -/
def execPublish (_who : Who) (data : Word) (s : State) : Out := .next (s.publish data)

/-- The MAC address of port 8. -/
def State.hmac (s : State) : Nat := (s.reg Reg.SEAM_HMACL).toNat + s.fld Reg.SEAM_HMACH Fld.SEAM_HMACH_MAC * 2 ^ 32

/-- The frame that publisher i builds from its front buffer (R408). -/
def State.pdBuild (s : State) (i : Nat) : List Byte :=
  let w (k : Nat) : Nat := s.tg i k
  let front := s.fld (Reg.SEAM_PGSTAT (s.tgGroup i)) Fld.SEAM_PGSTAT_FRONT
  let tag := if w 5 / 2 ^ 31 = 1 then some (w 5 / 2 ^ 28 % 8 * 2 ^ 13 + w 5 / 2 ^ 16 % 4096) else none
  let topo := w 0 / 2 ^ 27 % 2 == 1
  pdFrame (w 4 + w 5 % 2 ^ 16 * 2 ^ 32) s.hmac tag (w 6 / 2 ^ 26) (w 6 / 2 ^ 16 % 256) (s.reg Reg.SEAM_HIP).toNat (w 2)
    (Config.freeNat s.free % 65536) (w 11) (w 1) (if topo then (s.reg Reg.SEAM_TOPO0).toNat else 0)
    (if topo then (s.reg Reg.SEAM_TOPO1).toNat else 0) (s.bytes (s.tgImage i front) (s.tgLen i))

/-- TELEGRAM_BUILD (R408, R409, R421): the next publisher of a group that is building; it waits for room in its class. -/
def execTelegramBuild (g : Fin 256) (upsets : Upsets) (s : State) : Out :=
  match (Sparse.get g.val s.seam.builds).filter (fun _ => s.seamRuns) with
  | none => .next s
  | some k =>
    match s.nextPublisher g k with
    | none => .next (s.buildOn g k)
    | some i =>
      let q := s.tg i 6 % 2 ^ 13
      if s.qEnabled false q = false then .next (((s.strike upsets).tgRead i).tgDiscard i |>.buildOn g (i + 1))
      else
        let cbs := if s.tg i 0 / 2 ^ 24 % 2 = 1 then some (s.tg i 9 % 2 ^ 11) else none
        let ports := s.egress (s.qPort q) cbs
        let cls := s.qClass q
        if ports.any (fun p => s.classFull p cls) then .next s
        else
          let s := (s.strike upsets).tgRead i
          let front := s.fld (Reg.SEAM_PGSTAT g) Fld.SEAM_PGSTAT_FRONT
          let s := (s.tableRead 198 (s.tgImage i front) (s.tgLen i)).2
          let r := s.sequence cbs (s.pdBuild i)
          let s := { r.2 with free := r.2.free + 1 }
          let s := (s.setTg i 11 (s.tg i 11 + 1)).tgCount i
          .next ((ports.foldl (fun s p => s.place p cls r.1 .telegram) s).buildOn g (i + 1))

/-! ### Subscribing (R410, R411, R414) -/

/-- A dataset is written to a subscriber's back buffer and its status block (R411): the status bits and the time, and the sequence
counter where one is given. -/
def State.tgStore (s : State) (i : Nat) (data : List Byte) (seq : Option Nat) (tout valid : Bool) (t : Nat) : State :=
  let st := s.tgStatus i
  let gen := (leNat (s.bytes st 4)) / 2 ^ 16
  let g := (gen + 1) % 65536
  let s := s.localBytes (s.tgImage i (g % 2)) data
  let s := match seq with
    | some n => s.localWrite (st + 4) n
    | none => s
  let s := (s.localWrite (st + 8) t).localWrite (st + 12) (t / 2 ^ 32)
  s.localWrite st (g * 2 ^ 16 + bit tout * 2 ^ 14 + bit valid * 2 ^ 13)

/-- The checks of R410 for a telegram `t` of packet `ip` at subscriber i. -/
def State.pdAccepts (s : State) (i : Nat) (ip t : List Byte) : Bool :=
  let topoOk (o : Nat) (a : Nat) : Bool := beAt t o 4 == 0 || beAt t o 4 == (s.reg a).toNat
  ipUdpOk ip && beAt t 4 1 == 1 && beAt t 6 2 == 0x5064 && trdpFcsOk t && beAt t 20 4 == s.tgLen i && 40 + s.tgLen i ≤ t.length &&
  (s.tg i 0 / 2 ^ 27 % 2 == 0 || (topoOk 12 Reg.SEAM_TOPO0 && topoOk 16 Reg.SEAM_TOPO1)) &&
  (s.tg i 0 / 2 ^ 25 % 2 == 0 || beAt ip 12 4 == s.tg i 3)

/-- The checks of R416. -/
def mdAccepts (ip t : List Byte) : Bool :=
  let kind := beAt t 6 2
  ipUdpOk ip && beAt t 4 1 == 1 && trdpFcsOk t && 116 + beAt t 20 4 ≤ t.length &&
  (kind == 0x4D6E || kind == 0x4D72 || kind == 0x4D70 || kind == 0x4D71 || kind == 0x4D63 || kind == 0x4D65)

/-- A telegram that finds its entry (R397, R405): the entry and the frame's packet and telegram. -/
def State.tgFind (s : State) (l : List Byte) : Option (Nat × List Byte × List Byte) :=
  match ipv4 l, trdp l with
  | some ip, some (t, port) =>
    if (port = 17224 ∨ port = 17225) ∧ 40 ≤ t.length then
      let i := s.tgSlot (tgHash (beAt t 8 4) (beAt ip 16 4) port)
      if s.tgValid i && kindPort (s.tgKind i) == some port && s.tg i 1 == beAt t 8 4 && s.tg i 2 == beAt ip 16 4
      then some (i, ip, t) else none
    else none
  | _, _ => none

/-- A telegram is taken by its entry (R410, R411, R416): accepted or discarded. -/
def State.tgTake (s : State) (i : Nat) (ip t frame : List Byte) (sport stamp : Nat) : State :=
  let s := s.tgRead i
  if s.tgKind i = 2 then
    if s.pdAccepts i ip t then
      let ns := stamp / 2 ^ 16
      let s := s.tgStore i (slice t 40 (s.tgLen i)) (some (beAt t 0 4)) false true ns
      ((s.setTg i 11 (beAt t 0 4)).setDead i ns).tgCount i
    else s.tgDiscard i
  else if mdAccepts ip t then (s.tgCount i).toRxQueueAfter false (s.tg i 6 % 2 ^ 13) sport i stamp frame
  else s.tgDiscard i

/-- SUPERVISION_VISIT (R414): the scan takes its next entry, one in each fc. It tests the entry at the end of the fc, so that a telegram
of the same fc acts first (R415). -/
def execSupervisionVisit (upsets : Upsets) (s : State) : Out :=
  if s.flag Reg.SEAM_CTRL Fld.SEAM_CTRL_EN = false ∨ s.seam.visit.isSome then .next s
  else
    let s := s.strike upsets
    .next { s with seam := { s.seam with scan := (s.seam.scan + 1) % 32768, visit := some s.seam.scan } }

/-- The scan tests a subscriber (R414). -/
def State.supervise (s : State) (i : Nat) : State :=
  let s0 := leNat (s.bytes (s.tgStatus i) 4)
  let dead := s.tg i 12 + s.tg i 13 * 2 ^ 32
  if s.tg i 10 ≠ 0 ∧ s0 / 2 ^ 14 % 2 = 0 ∧ dead ≤ s.now then
    let s := if s.tg i 0 / 2 ^ 26 % 2 = 1 then s.tgStore i (List.replicate (s.tgLen i) 0) none true false s.now
      else s.localWrite (s.tgStatus i) (s0 / 2 ^ 16 * 2 ^ 16 + s0 / 2 ^ 15 % 2 * 2 ^ 15 + 2 ^ 14)
    s.raise (752 + s.tgGroup i)
  else s

/-- The visit of the scan (R414), at the end of its fc. -/
def State.scanVisit (s : State) : State :=
  match s.seam.visit with
  | none => s
  | some i =>
    let s := s.tgRead i
    let s : State := { s with seam := { s.seam with visit := none } }
    if s.tgValid i && s.tgKind i == 2 then s.supervise i else s

/-- A write of DISP[b] (R407). -/
def State.dispWrite (s : State) (a : Nat) (data : Word) : State :=
  let b := (a - 0x10CC8000) / 4
  if s.keyedIn b ≠ 0 then s.setFld Reg.SEAM_TSTAT Fld.SEAM_TSTAT_TWI 1
  else s.windowWrite 198 a (data.and 0x7FFF)

end Sys2Proof.Machine
end

