-- ==== Sys2Proof/Machine/SeamTime.lean ====
section
/-! DEFINITION. The seam's time engine (R389 to R393). Times are in units of 2⁻¹⁶ ns. Readings and choices: log 39. -/

namespace Sys2Proof.Machine

/-- The time engine runs. -/
def State.ptpOn (s : State) : Bool := s.flag Reg.SEAM_PTPCTL Fld.SEAM_PTPCTL_EN

/-- The role of a port (R390). -/
def State.role (s : State) (p : Nat) : Nat := s.fld (Reg.SEAM_PCTL p) Fld.SEAM_PCTL_ROLE

/-- The slave port (R390): the lowest-numbered with that role. -/
def State.slavePort (s : State) : Option Nat := (List.range 8).find? (fun p => s.role p == 2)

/-- An interval of 2^log s, `log` a signed 4-bit field, in fc. -/
def intervalFc (log : Nat) : Nat := if log < 8 then 750000000 * 2 ^ log else 750000000 / 2 ^ (16 - log)

/-- The Sync interval. -/
def State.syncInterval (s : State) : Nat := intervalFc (s.fld Reg.SEAM_PTPCTL Fld.SEAM_PTPCTL_LOGSYNC)

/-- The Pdelay interval. -/
def State.pdInterval (s : State) : Nat := intervalFc (s.fld Reg.SEAM_PTPCTL Fld.SEAM_PTPCTL_LOGPD)

/-- The class of the time engine's frames (log 31). -/
def ptpCls : Nat := Config.ptpClass % 8

/-- A log interval as the 8-bit signed field of a message. -/
def logByte (n : Nat) : Nat := if n < 8 then n else 240 + n

/-- A periodic message of a port is due. -/
def State.due (s : State) (last : Option Nat) (interval : Nat) : Bool :=
  match last with
  | some t => t + interval ≤ s.fc
  | none => true

/-- A message that the time engine sends in answer (R390): a full class discards it and counts it (R382; log 31). -/
def State.placeOrDrop (s : State) (p : Fin 10) (l : List Byte) (o : Origin) : State :=
  if s.classFull p ptpCls then s.pdrop p else s.place p ptpCls l o

/-- One cycle of a port's network clock in units of 2⁻¹⁶ ns (R376). -/
def ncTime (p : Fin 10) : Nat := if p.val < 2 then 419430 else 524288

/-- The timestamp of a frame whose first bit crossed the port's balls `ago` fc before (R389), in units of 2⁻¹⁶ ns: the device time then, with an
error below 1 nc that is left open (log 85). -/
def State.portStamp (s : State) (p : Fin 10) (ago : Nat) : Nat :=
  let t : Int := s.psq.timeBefore s.fc ago
  let e : Int := (Config.freeNat s.free % (2 * ncTime p - 1) : Nat) - ((ncTime p - 1 : Nat) : Int)
  ((t / 2 ^ 16 + e) % 2 ^ 80).toNat

/-- PDELAY_REQ_SEND (R390): every port whose role is not disabled. -/
def execPdelayReqSend (p : Fin 8) (s : State) : Out :=
  let q : Fin 10 := p.castLE (by decide)
  let x := s.sport q
  if s.ptpOn = true ∧ s.role p ≠ 0 ∧ s.due x.pdSent s.pdInterval = true ∧ s.classFull q ptpCls = false then
    let l := ptpFrame s.hmac 2 8 (portId s.hmac p) x.pdSeq 5 (logByte (s.fld Reg.SEAM_PTPCTL Fld.SEAM_PTPCTL_LOGPD)) (beBytes 20 0)
    .next ((s.setSport q { x with pdSent := some s.fc, pdSeq := (x.pdSeq + 1) % 65536 }).place q ptpCls l (.pdelayReq x.pdSeq))
  else .next s

/-- SYNC_SEND (R390): a master port; its Follow_Up follows when the Sync has left. -/
def execSyncSend (p : Fin 8) (s : State) : Out :=
  let q : Fin 10 := p.castLE (by decide)
  let x := s.sport q
  if s.ptpOn = true ∧ s.role p = 1 ∧ s.due x.syncSent s.syncInterval = true ∧ s.classFull q ptpCls = false then
    let l := ptpFrame s.hmac 0 0x208 (portId s.hmac p) x.syncSeq 0 (logByte (s.fld Reg.SEAM_PTPCTL Fld.SEAM_PTPCTL_LOGSYNC)) (beBytes 10 0)
    .next ((s.setSport q { x with syncSent := some s.fc, syncSeq := (x.syncSeq + 1) % 65536 }).place q ptpCls l (.sync x.syncSeq))
  else .next s

/-- What the transmission of a frame gives to the time engine (R389, R390). -/
def State.ptpSent (s : State) (p : Fin 10) (f : SFrame) (stamp : Nat) : State :=
  match f.origin with
  | .sync n =>
    let l := ptpFrame s.hmac 8 8 (portId s.hmac p) n 2 (logByte (s.fld Reg.SEAM_PTPCTL Fld.SEAM_PTPCTL_LOGSYNC)) (ptpTime stamp ++ followUpTlv)
    s.placeOrDrop p l .followUp
  | .pdelayReq n => s.setSport p { s.sport p with t1 := some (n, stamp) }
  | .pdelayResp n id =>
    let l := ptpFrame s.hmac 10 8 (portId s.hmac p) n 5 0x7F (ptpTime stamp ++ id)
    s.placeOrDrop p l .followUp
  | _ => s

/-- FRAME_TRANSMIT_END (R389, R396, R401): the frame on the wire has left its port; its first bit crossed the balls `ago` fc before. -/
def execFrameTransmitEnd (p : Fin 10) (ago : Nat) (s : State) : Out :=
  let x := s.sport p
  match x.wire with
  | none => .next s
  | some f =>
    let stamp := s.portStamp p ago
    let s := { s.setSport p { x with wire := none } with free := s.free + 1 }
    match f.origin with
    | .queue q idx => .next (s.txMark q idx (if p.val < 8 then some stamp else none))
    | _ => .next (s.ptpSent p f stamp)

/-! ### Reception -/

/-- An exchange of peer delay ends (R390): the neighbor rate ratio from this and the last exchange, and meanLinkDelay. -/
def State.pdelayEnds (s : State) (p : Fin 10) (t1 t2 t3 t4 : Int) : State :=
  let x := s.sport p
  let ratio := match x.prevPd with
    | some (a, b) => if 0 < t4 - b ∧ 0 < t3 - a then (t3 - a, t4 - b) else x.ratio
    | none => x.ratio
  let d := Int.fdiv ((t4 - t1) * ratio.1 - (t3 - t2) * ratio.2) (2 * ratio.2)
  (s.setSport p { x with prevPd := some (t3, t4), ratio := ratio, mld := d, resp := none }).setReg (Reg.SEAM_PMDL p)
    (BitVec.ofInt 32 (Int.fdiv d (2 ^ 16)))

/-- A message of gPTP's domain 0 (R378): majorSdoId 1, minorSdoId 0, domainNumber 0; CMLDS and further domains differ in these. -/
def ptpDomain0 (m : List Byte) : Bool := beAt m 0 1 / 16 == 1 && beAt m 4 2 == 0

/-- The gPTP messages of R390 that the time engine uses; `m` is the message behind the EtherType. True where it is used. -/
def State.ptpReceive (s : State) (p : Fin 10) (m : List Byte) (stamp : Nat) : Bool × State :=
  let x := s.sport p
  let seq := beAt m 30 2
  let mine := slice m 44 10 == portId s.hmac p
  if s.ptpOn = false ∨ s.role p = 0 ∨ 8 ≤ p.val ∨ ptpDomain0 m = false then (false, s)
  else match beAt m 0 1 % 16 with
    | 0 => if s.slavePort = some p.val then (true, { s with seam := { s.seam with sync := some (seq, (stamp : Int), s.fc) } }) else (false, s)
    | 8 => if s.slavePort = some p.val then
        (true, { s with seam := { s.seam with fup := some (seq, ptpStamp m 34 + ptpCorrection m, s.fc) } }) else (false, s)
    | 2 =>
      let id := slice m 20 10
      let l := ptpFrame s.hmac 3 0x208 (portId s.hmac p) seq 5 0x7F (ptpTime stamp ++ id)
      (true, s.placeOrDrop p l (.pdelayResp seq id))
    | 3 => (true, if mine then s.setSport p { x with resp := some (seq, ptpStamp m 34 + ptpCorrection m, (stamp : Int)) } else s)
    | 10 => (true, match x.t1, x.resp with
        | some (a, t1), some (b, t2, t4) => if mine && a == seq && b == seq then s.pdelayEnds p t1 t2 (ptpStamp m 34 + ptpCorrection m) t4 else s
        | _, _ => s)
    | _ => (false, s)

/-! ### The servo -/

/-- Both parts of PSQ_DTINC at once (R34, R391). -/
def State.setInc (s : State) (n : Nat) : State :=
  let s := (s.setReg Reg.PSQ_DTINCL (BitVec.ofNat 32 n)).setFld Reg.PSQ_DTINCH Fld.PSQ_DTINCH_INCHI (n / 2 ^ 32)
  s.loadInc

/-- Device time in units of 2⁻¹⁶ ns moved by a step (R33, R393): refused while DISC is 1 or a lane is not stopped. -/
def State.ptpStep (s : State) (o : Int) : State :=
  if s.disciplined || allLanes.any (fun l => s.laneState l != 0) then s.setFld Reg.PSQ_DTCTRL Fld.PSQ_DTCTRL_SREF 1
  else { s with psq := { s.psq with time := (((s.psq.time : Int) - o * 2 ^ 16) % 2 ^ 96).toNat, adjRem := 0 } }

/-- The increment after a rate correction (R391): r is Δm / Δt. -/
def servoInc (inc : Nat) (dm dt : Int) (rsh : Nat) : Nat :=
  (((inc : Int) + Int.tdiv ((inc : Int) * (dm - dt)) (dt * 2 ^ rsh)) % 2 ^ 36).toNat

/-- The rate step of a Sync (R391): Δm and Δt since the Sync before. With Δt = 0 there is no r, and the increment and the rate read are open
(log 85). -/
def State.rateStep (s : State) (dm dt : Int) : State :=
  if dt = 0 then
    ({ s with free := s.free + 2 }.setReg Reg.SEAM_PTPRATE (BitVec.ofNat 32 (Config.freeNat s.free))).setInc (Config.freeNat (s.free + 1) % 2 ^ 36)
  else (s.setReg Reg.SEAM_PTPRATE (BitVec.ofInt 32 (Int.tdiv ((dm - dt) * 2 ^ 32) dt))).setInc
    (servoInc s.psq.inc dm dt (s.fld Reg.SEAM_PTPCTL Fld.SEAM_PTPCTL_RSH))

/-- An accepted Sync (R391 to R393): network time m, device time t. -/
def State.syncAccepted (s : State) (m t : Int) : State :=
  let o := t - m
  let ns := Int.tdiv o (2 ^ 16)
  let hold := s.flag Reg.PSQ_DTCTRL Fld.PSQ_DTCTRL_HOLD
  let prev := if hold then none else s.seam.prevSync
  let s := (s.setReg Reg.SEAM_PTPOFFL (BitVec.ofInt 32 ns)).setReg Reg.SEAM_PTPOFFH (BitVec.ofInt 32 (Int.fdiv ns (2 ^ 32)))
  let s := s.setFld Reg.SEAM_PTPSTAT Fld.SEAM_PTPSTAT_OVALID 1
  let s := if hold then (s.setFld Reg.PSQ_DTCTRL Fld.PSQ_DTCTRL_HOLD 0).seamEvent 12 else s
  let s := match prev with
    | some (m0, t0) => if s.disciplined then s.rateStep (m - m0) (t - t0) else s
    | none => s
  let s := if s.disciplined then
      { s with psq := { s.psq with adjRem := clampInt (-(2 ^ 63)) ((2 ^ 31 - 1) * 2 ^ 32) (-(o * 2 ^ 16)) } } else s
  let stepping := s.flag Reg.SEAM_PTPCTL Fld.SEAM_PTPCTL_ISTEP
  let s := if stepping then (s.ptpStep o).setFld Reg.SEAM_PTPCTL Fld.SEAM_PTPCTL_ISTEP 0 else s
  { s with seam := { s.seam with sync := none, fup := none, prevSync := some (m, t), syncFc := s.fc } }

/-- SYNC_ACCEPT (R390, R391, R482; in standby there is no discipline): a Sync and its Follow_Up that came within one Sync interval of each other. -/
def execSyncAccept (s : State) : Out :=
  match s.seam.sync, s.seam.fup, s.slavePort with
  | some (a, t, f), some (b, m, g), some p =>
    if s.sys.standby = 0 ∧ s.ptpOn = true ∧ a = b ∧ f ≤ g + s.syncInterval ∧ g ≤ f + s.syncInterval then
      .next (s.syncAccepted (m + (s.sport (Fin.ofNat 10 p)).mld) t)
    else .next s
  | _, _, _ => .next s

/-- HOLDOVER_ENTER (R392, R482). -/
def execHoldoverEnter (s : State) : Out :=
  let limit := s.fld Reg.SEAM_PTPCTL Fld.SEAM_PTPCTL_SRTO * s.syncInterval
  if s.sys.standby = 0 ∧ s.ptpOn = true ∧ s.slavePort.isSome ∧ s.flag Reg.PSQ_DTCTRL Fld.PSQ_DTCTRL_HOLD = false ∧ s.seam.syncFc + limit ≤ s.fc then
    .next ((s.setFld Reg.PSQ_DTCTRL Fld.PSQ_DTCTRL_HOLD 1).seamEvent 11)
  else .next s

end Sys2Proof.Machine
end

