-- ==== Sys2Proof/Machine/Pins.lean ====
section
/-! DEFINITION. Pins and pin multiplexing (R462 to R471, R512). Readings and choices: log 52. -/

namespace Sys2Proof.Machine

/-- The pin that an output function names (R463). -/
def State.outPin (s : State) (f : Nat) : Nat := s.fld (Reg.PIN_OSEL f) Fld.PIN_OSEL_PIN

/-- A timer channel's register word. -/
def State.cctl (s : State) (u c : Nat) : Word := s.reg (Reg.TMR_CCTL u c)

/-- The value and enable of an output function (R465). A TDM signal of a port that runs moves within the frame, which the state does not
follow: its level is free (log 33). -/
def State.outFunction (s : State) (f : Nat) : Bool × Bool :=
  if f < 128 then
    let w := s.cctl (f / 4) (f % 4)
    ((s.tmr.getD (f / 4) Tmr.reset).out.getD (f % 4) false, Fld.TMR_CCTL_MODE.get w == 1 && Fld.TMR_CCTL_OUTMODE.get w != 0)
  else
    let c := s.spl.tdm.getD (f % 8) 0
    let runs := if f < 144 then c.getLsbD 31 || c.getLsbD 30 else c.getLsbD 31
    (runs && Config.ballReads s.free (160 + f), true)

/-- The bits of a core's private port that map pin p (R467): output and enable. -/
def State.portDrives (s : State) (k : Fin 16) (p : Nat) : Bool × Bool :=
  let w := s.reg (Reg.PIN_PPCTL k)
  let x := s.core k
  let on := !(s.lockstep && k == 15) && Fld.PIN_PPCTL_EN.get w == 1 && Fld.PIN_PPCTL_PORT.get w == p / 32 && (s.reg (Reg.PIN_PPMSK k)).getLsbD (p % 32)
  let oe := on && x.pinOe.getLsbD (p % 32)
  (oe && x.pinOut.getLsbD (p % 32), oe)

/-- The output value and enable of a pin before open drain (R463). -/
def State.pinSource (s : State) (p : Nat) : Bool × Bool :=
  match s.fld (Reg.PIN_CFG p) Fld.PIN_CFG_MODE with
  | 0 => ((s.reg (Reg.PIN_DOUT (p / 32))).getLsbD (p % 32), (s.reg (Reg.PIN_OE (p / 32))).getLsbD (p % 32))
  | 1 =>
    let l := ((List.range 152).filter (fun f => s.outPin f == p)).map (fun f => s.outFunction f)
    (l.any (fun v => v.1 && v.2), l.any (fun v => v.2))
  | _ =>
    let l := (List.finRange 16).map (fun k => s.portDrives k p)
    (l.any (fun v => v.1), l.any (fun v => v.2))

/-- The pins are in a reset, up to the first pc edge after its release (R470, R490, R514). -/
def State.pinsReset (s : State) : Bool := s.pins.inReset

/-- What the device drives a pin to, or nothing (R463, R470). -/
def State.pinDrive (s : State) (p : Nat) : Option Bool :=
  let v := s.pinSource p
  if s.pinsReset then none
  else if s.flag (Reg.PIN_CFG p) Fld.PIN_CFG_OD then (if v.2 && !v.1 then some false else none)
  else if v.2 then some v.1 else none

/-- The level of a pin's ball (R512): what the device or the equipment drives, or its pull; contention, and a ball that nothing drives or
pulls, reads either way: a free choice (log 11). -/
def State.ballLevel (s : State) (p : Nat) : Bool :=
  match s.pinDrive p, s.pins.outside.getD p none with
  | some a, some b => if a = b then a else Config.ballReads s.free p
  | some a, none => a
  | none, some b => b
  | none, none =>
    if s.pinsReset then false
    else match s.fld (Reg.PIN_CFG p) Fld.PIN_CFG_PULL with
      | 1 => false
      | 2 => true
      | _ => Config.ballReads s.free p

/-- The synchronised inputs of a port (R462). -/
def State.portLevels (s : State) (x : Nat) : Word :=
  BitVec.ofNat 32 ((List.range 32).foldl (fun w i => if s.ballLevel (32 * x + i) then w + 2 ^ i else w) 0)

/-- PIN_DSET (R462). -/
def State.pinSet (s : State) (x : Nat) (data : Word) : State := s.setReg (Reg.PIN_DOUT x) (s.reg (Reg.PIN_DOUT x) ||| data)

/-- A write to PIN_DCLRx (R462). -/
def State.pinClr (s : State) (x : Nat) (data : Word) : State := s.setReg (Reg.PIN_DOUT x) (s.reg (Reg.PIN_DOUT x) &&& ~~~data)

/-- A write to PIN_DTGLx (R462). -/
def State.pinTgl (s : State) (x : Nat) (data : Word) : State := s.setReg (Reg.PIN_DOUT x) (s.reg (Reg.PIN_DOUT x) ^^^ data)

/-- PIN_DSET (R462). -/
def execPinDset (_who : Who) (port : Fin 5) (data : Word) (s : State) : Out := .next (s.pinSet port data)

/-- PIN_DCLR (R462). -/
def execPinDclr (_who : Who) (port : Fin 5) (data : Word) (s : State) : Out := .next (s.pinClr port data)

/-- PIN_DTGL (R462). -/
def execPinDtgl (_who : Who) (port : Fin 5) (data : Word) (s : State) : Out := .next (s.pinTgl port data)

/-! ### Inputs -/

/-- The pin that input function g reads (R464). -/
def State.inPin (s : State) (g : Nat) : Option Nat :=
  let p := s.fld (Reg.PIN_ISEL g) Fld.PIN_ISEL_PIN
  if p < 160 then some p else none

/-- The level of input function g. -/
def State.inLevel (s : State) (g : Nat) : Bool := (s.inPin g).any (fun p => s.ballLevel p)

/-- Edge detection of input function g takes a level. -/
def State.setInput (s : State) (g : Nat) (v : Bool) : State :=
  { s with pins := { s.pins with inputs := if v then s.pins.inputs ||| BitVec.ofNat 168 (2 ^ g)
                                           else s.pins.inputs &&& ~~~(BitVec.ofNat 168 (2 ^ g)) } }

/-- A write to PIN_ISELg (R464): the new pin's level is taken as the level before the change. -/
def State.iselWrite (s : State) (g : Nat) (data hw : Word) : State :=
  let old := s.reg (Reg.PIN_ISEL g)
  let s := s.plainWrite (Reg.PIN_ISEL g) data hw
  if s.reg (Reg.PIN_ISEL g) = old then s else s.setInput g (s.inLevel g)

/-- ISEL_WRITE (R464). -/
def execIselWrite (_who : Who) (g : Fin 168) (data : Word) (s : State) : Out := .next (s.iselWrite g data 0)

/-! ### Interrupt lines (R468) -/

/-- The pin that a line watches. -/
def State.irqPin (s : State) (n : Nat) : Nat := 32 * s.fld (Reg.PIN_IRQCFG n) Fld.PIN_IRQCFG_PORT + n

/-- A line's filtered level, with the filter count at 0. -/
def State.setFiltered (s : State) (n : Nat) (v : Bool) : State :=
  { s with pins := { s.pins with
      filtered := if v then s.pins.filtered ||| BitVec.ofNat 16 (2 ^ n) else s.pins.filtered &&& ~~~(BitVec.ofNat 16 (2 ^ n))
      held := s.pins.held.set! n 0 } }

/-- A filtered level after another meets a TRIG. -/
def irqMeets (trig : Nat) (old new : Bool) : Bool :=
  match trig with
  | 0 => !old && new
  | 1 => old && !new
  | 2 => old != new
  | 3 => new
  | _ => !new

/-- The condition of a line's TRIG, on a filtered level after another. -/
def State.irqLineMeets (s : State) (n : Nat) (old new : Bool) : Bool := irqMeets (s.fld (Reg.PIN_IRQCFG n) Fld.PIN_IRQCFG_TRIG) old new

/-- A level condition of a line holds. -/
def State.lineLevel (s : State) (n : Nat) : Bool := let f := s.pins.filtered.getLsbD n; s.irqLineMeets n f f

/-- The filtered level that a line comes to (R468): a new level counts once it has been held for FILT pc edges. -/
def State.lineNow (s : State) (n : Nat) (edges : Nat) : Bool :=
  let old := s.pins.filtered.getLsbD n
  let level := s.ballLevel (s.irqPin n)
  if level ≠ old ∧ s.fld (Reg.PIN_IRQCFG n) Fld.PIN_IRQCFG_FILT ≤ edges then level else old

/-- PIN_IRQ_OCCURRENCE (R468): the filtered level of a line is `level` at a pc edge and meets the line's condition. The ball and the filter decide: where
the filtered level is another, no occurrence has come. -/
def execPinIrqOccurrence (n : Fin 16) (level : Bool) (s : State) : Out :=
  let a := Reg.PIN_IRQCFG n
  let old := s.pins.filtered.getLsbD n
  let new := s.lineNow n (s.pins.held.getD n 0)
  if s.flag a Fld.PIN_IRQCFG_EN && new == level && s.irqLineMeets n old new then
    let s := if new = old then s else s.setFiltered n new
    let s := if s.fld a Fld.PIN_IRQCFG_TRIG ≤ 2 then s.noteWake n else s
    .next ((s.setReg Reg.PIN_IRQSTAT (s.reg Reg.PIN_IRQSTAT ||| BitVec.ofNat 32 (2 ^ n.val))).raise (1200 + n))
  else .next s

/-- A line's filter at a pc edge (R468): it counts how long another level has been held, and a level that it passes and that is no occurrence becomes
the filtered one; an occurrence waits for PIN_IRQ_OCCURRENCE. -/
def State.filterLine (s : State) (n : Nat) : State :=
  let old := s.pins.filtered.getLsbD n
  if s.ballLevel (s.irqPin n) = old then { s with pins := { s.pins with held := s.pins.held.set! n 0 } }
  else
    let k := s.pins.held.getD n 0 + 1
    let new := s.lineNow n k
    if new ≠ old ∧ (s.flag (Reg.PIN_IRQCFG n) Fld.PIN_IRQCFG_EN && s.irqLineMeets n old new) = false then s.setFiltered n new
    else { s with pins := { s.pins with held := s.pins.held.set! n k } }

/-- A write to PIN_IRQCFGn (R468): setting EN, or changing PORT, TRIG or FILT, restarts the line. -/
def State.irqcfgWrite (s : State) (n : Nat) (data hw : Word) : State :=
  let a := Reg.PIN_IRQCFG n
  let old := s.reg a
  let s := s.plainWrite a data hw
  if s.reg a = old ∨ (s.reg a = old.and 0x7FFFFFFF) then s else s.setFiltered n (s.ballLevel (s.irqPin n))

/-- IRQCFG_WRITE (R468). -/
def execIrqcfgWrite (_who : Who) (n : Fin 16) (data : Word) (s : State) : Out := .next (s.irqcfgWrite n data 0)

/-! ### Drive and the window -/

/-- The registers whose change moves a pin's drive (R466). -/
def driveReg (a : Nat) : Bool :=
  (0x10E01000 ≤ a && a < 0x10E01000 + 640) || (0x10E02000 ≤ a && a < 0x10E02000 + 608) || (0x10E03000 ≤ a && a < 0x10E03080)

/-- A write to such a register (R466, R467): while lockstep is active, core 15's private port ignores writes. -/
def State.driveWrite (s : State) (a : Nat) (data hw : Word) : State :=
  if s.lockstep && (a == Reg.PIN_PPCTL 15 || a == Reg.PIN_PPMSK 15) then s else s.plainWrite a data hw

/-- PIN_DRIVE_CHANGE (R466). -/
def execPinDriveChange (_who : Who) (addr : Nat) (data : Word) (s : State) : Out :=
  if driveReg addr then .next (s.driveWrite addr data 0) else .next s

/-- A pc edge: the clock of the peripheral domain, 3 fc (R486). -/
def State.pcEdge (s : State) : Bool := s.pllRuns 1 && s.fc % 3 == 0

/-- The pins at a pc edge: what the equipment drives is drawn anew (log 52), a reset that has been released lets the pins go (R514), and the filters
of the interrupt lines count (R468). -/
def State.pinEdge (s : State) : State :=
  let s := { s with pins := { s.pins with outside := Vector.ofFn (fun (p : Fin 160) => Config.equipment s.free p)
                                          inReset := s.pins.inReset && s.sys.boot == .held } }
  (List.range 16).foldl (fun s n => s.filterLine n) s

/-- A write lands in the PIN block. -/
def State.landPin (s : State) (_who : Who) (a : Nat) (data hw : Word) : State :=
  let o := a - 0x10E00000
  if 0x100 ≤ o ∧ o < 0x1A0 then
    let x := (o - 0x100) / 32
    match o % 32 with
    | 4 => s.pinSet x data
    | 8 => s.pinClr x data
    | 0xC => s.pinTgl x data
    | _ => s.plainWrite a data hw
  else if 0x2400 ≤ o ∧ o < 0x26A0 then s.iselWrite ((o - 0x2400) / 4) data hw
  else if 0x3400 ≤ o ∧ o < 0x3440 then s.irqcfgWrite ((o - 0x3400) / 4) data hw
  else if driveReg a then s.driveWrite a data hw
  else s.plainWrite a data hw

/-- A read of the PIN block. -/
def State.readPin (s : State) (who : Who) (a : Nat) (hw : Word) : State :=
  let o := a - 0x10E00000
  if 0x100 ≤ o ∧ o < 0x1A0 ∧ o % 32 = 0x14 then
    { s.respondWord who (s.portLevels ((o - 0x100) / 32)) with free := s.free + 160 }
  else if s.lockstep && (a == Reg.PIN_PPCTL 15 || a == Reg.PIN_PPMSK 15) then s.respondWord who 0
  else let r := s.plainRead a hw
       r.2.respondWord who r.1

end Sys2Proof.Machine
end

