-- ==== Sys2Proof/Machine/Spool.lean ====
section
/-! DEFINITION. The spool audio engine (R350 to R375). Readings and choices: logs 9, 38. -/

namespace Sys2Proof.Machine

/-- The event k of the spool (R374): 1 to 3 are always raised. -/
def State.splEvent (s : State) (k : Nat) : State :=
  s.raiseIf (k == 1 || k == 2 || k == 3 || (s.reg Reg.SPL_EVTEN).getLsbD k) (464 + k)

/-- A bit of a pair of W1C registers that report by number is set. -/
def State.splMark (s : State) (lo hi n : Nat) : State :=
  let a := if n < 32 then lo else hi
  s.setReg a (s.reg a ||| BitVec.ofNat 32 (2 ^ (n % 32)))

/-- A 24-bit signed sample. -/
def sample24 (n : Nat) : Int := signed 24 n

/-- The nearest 24-bit signed value. -/
def clamp24 (x : Int) : Int := clampInt (-8388608) 8388607 x

/-! ### Voices -/

/-- What a voice's parameters are at a tick (R356, R357, R375). -/
structure Voice where
  start : Nat
  len : Nat
  loop : Bool
  loopst : Nat
  inc : Nat
  ar : Nat
  dr : Nat
  sl : Nat
  rr : Nat
  deriving DecidableEq, Repr

/-- A voice's parameters; a loop start not below LEN is used as 0. -/
def State.voice (s : State) (v : Nat) : Voice :=
  let len := s.fld (Reg.SPL_VLEN v) Fld.SPL_VLEN_LEN
  let l := s.fld (Reg.SPL_VLOOP v) Fld.SPL_VLOOP_LOOPST
  { start := s.fld (Reg.SPL_VSTART v) Fld.SPL_VSTART_START, len := len, loop := s.flag (Reg.SPL_VCTL v) Fld.SPL_VCTL_LOOP,
    loopst := if l < len then l else 0, inc := s.fld (Reg.SPL_VINC v) Fld.SPL_VINC_INC,
    ar := s.fld (Reg.SPL_VENV v) Fld.SPL_VENV_AR, dr := s.fld (Reg.SPL_VENV v) Fld.SPL_VENV_DR,
    sl := s.fld (Reg.SPL_VREL v) Fld.SPL_VREL_SL, rr := s.fld (Reg.SPL_VREL v) Fld.SPL_VREL_RR }

/-- One update of the envelope (R357): state and level. -/
def Voice.envelope (p : Voice) (state level : Nat) : Nat × Nat :=
  match state with
  | 1 =>
    let l := if p.ar = 0 then 65536 else min (level + p.ar) 65536
    (if l = 65536 then 2 else 1, l)
  | 2 =>
    let l := if p.dr = 0 then p.sl else max (level - p.dr) p.sl
    (if l = p.sl then 3 else 2, l)
  | 3 => (3, p.sl)
  | 4 =>
    let l := if p.rr = 0 then 0 else level - p.rr
    (if l = 0 then 0 else 4, l)
  | _ => (0, 0)

/-- The sample of a wave RAM word (R355). -/
def State.wave (s : State) (i : Nat) : Int := sample24 (s.reg (0x10B40000 + 4 * (i % 65536))).toNat

/-- The position after a sample (R357), or none where a voice that does not loop has ended. -/
def Voice.advance (p : Voice) (pos : Nat) : Option Nat :=
  let q := pos + p.inc
  if p.len * 65536 ≤ q then
    if p.loop then some (p.loopst * 65536 + (q - p.loopst * 65536) % ((p.len - p.loopst) * 65536)) else none
  else some q

/-- A voice enters Idle (R357). -/
def State.voiceEnds (s : State) (v : Nat) : State :=
  if s.flag (Reg.SPL_VCTL v) Fld.SPL_VCTL_EVT then (s.splMark Reg.SPL_VENDL Reg.SPL_VENDH v).splEvent 9 else s

/-- A voice at a tick (R357): its sample, and whether it is active. -/
def State.voiceTick (s : State) (v : Fin 64) : (Int × Bool) × State :=
  let a := Reg.SPL_VCTL v
  let p := s.voice v
  let was := s.fld a Fld.SPL_VCTL_STATE
  let e := p.envelope was (s.fld a Fld.SPL_VCTL_LEVEL)
  let store (s : State) (e : Nat × Nat) : State := s.setFlds a [(Fld.SPL_VCTL_STATE, e.1), (Fld.SPL_VCTL_LEVEL, e.2)]
  if e.1 = 0 then
    let s := store s e
    ((0, false), if was = 0 then s else s.voiceEnds v)
  else
    let pos := s.spl.vpos[v.val]
    let i := pos / 65536
    let f : Int := (pos % 65536 : Nat)
    let nxt := if i + 1 = p.len then (if p.loop then p.loopst else p.len - 1) else i + 1
    let w (k : Nat) : Nat := 0x10B40000 + 4 * ((p.start + k) % 65536)
    let s := (s.tableRead 197 (w i / 8 * 8) 8).2
    let s := if w nxt / 8 = w i / 8 then s else (s.tableRead 197 (w nxt / 8 * 8) 8).2
    let x := s.wave (p.start + i)
    let y := s.wave (p.start + nxt)
    let out := Int.tdiv ((x + Int.fdiv ((y - x) * f) 65536) * (e.2 : Int)) 65536
    match p.advance pos with
    | some q => ((out, true), { store s e with spl := { s.spl with vpos := s.spl.vpos.set v.val q } })
    | none => ((out, false), (store s (0, 0)).voiceEnds v)

/-- A key write applies (R356). -/
def State.applyKey (s : State) (v : Nat) (on : Bool) : State :=
  let a := Reg.SPL_VCTL v
  let k := s.fld a Fld.SPL_VCTL_STATE
  if on then
    { s.setFld a Fld.SPL_VCTL_STATE 1 with spl := { s.spl with vpos := s.spl.vpos.set! v 0 } }
  else if k = 1 ∨ k = 2 ∨ k = 3 then s.setFld a Fld.SPL_VCTL_STATE 4 else s

/-- A write to SPL_VKEYv waits for a tick (R351, R356): ON acts before OFF. -/
def State.keyWrite (s : State) (v : Nat) (data : Word) : State :=
  if data.getLsbD 0 || data.getLsbD 1 then
    { s with spl := { s.spl with keys := s.spl.keys ++ [(s.fc, v, data.getLsbD 0)] } }
  else s

/-- VOICE_KEY_ON (R356). -/
def execVoiceKeyOn (_who : Who) (v : Fin 64) (off : Bool) (s : State) : Out := .next (s.keyWrite v (if off then 3 else 1))

/-- VOICE_KEY_OFF (R356). -/
def execVoiceKeyOff (_who : Who) (v : Fin 64) (s : State) : Out := .next (s.keyWrite v 2)

/-! ### Stream readers and writers -/

/-- A stream ring (R360). -/
structure Ring where
  base : Nat
  size : Nat
  chans : Nat
  esz : Nat
  first : Nat
  coh : Bool
  own : Nat
  other : Nat
  deriving DecidableEq, Repr

/-- The ring whose registers start at `a` under the control word `c`: `own` is the index that the spool advances. -/
def State.ringAt (s : State) (a : Nat) (c : Word) : Ring :=
  { base := (s.reg (a + 4)).toNat + s.fld (a + 8) Fld.SPL_RBASEH_BASE * 2 ^ 32, size := s.fld (a + 12) Fld.SPL_RSIZE_SIZE,
    chans := Fld.SPL_RCTL_KM1.get c + 1, esz := Fld.SPL_RCTL_ESZ.get c + 3, first := Fld.SPL_RCTL_FIRST.get c,
    coh := Fld.SPL_RCTL_COH.get c = 1, own := s.fld (a + 16) Fld.SPL_RRIDX_IDX, other := s.fld (a + 20) Fld.SPL_RWIDX_IDX }

/-- A reader's ring. -/
def State.readerRing (s : State) (r : Nat) : Ring := s.ringAt (Reg.SPL_RCTL r) (s.reg (Reg.SPL_RCTL r))

/-- A writer's ring. -/
def State.writerRing (s : State) (w : Nat) : Ring := s.ringAt (Reg.SPL_WCTL w) (s.reg (Reg.SPL_WCTL w))

/-- The index after one step round a ring. -/
def Ring.after (g : Ring) (i : Nat) : Nat := if i + 1 < g.size then i + 1 else 0

/-- The address of frame f. -/
def Ring.frame (g : Ring) (f : Nat) : Nat := g.base + f * (g.chans * g.esz)

/-- A reader's or a writer's enable is refused (R363). -/
def State.streamRefused (s : State) (writer : Bool) (n : Nat) (g : Ring) : Bool :=
  g.size < 2 || 2 ^ 40 < g.base + g.size * (g.chans * g.esz) ||
  (if writer then 127 < g.first + g.chans - 1
   else g.first < 192 || 255 < g.first + g.chans - 1 ||
    (List.range 64).any (fun r => r != n && s.flag (Reg.SPL_RCTL r) Fld.SPL_RCTL_EN &&
      (let o := s.readerRing r
       o.first < g.first + g.chans && g.first < o.first + o.chans)))

/-- A write to SPL_RCTLr or SPL_WCTLw (R363): while EN is 1 only EN can be written. -/
def State.streamControl (s : State) (writer : Bool) (n : Nat) (data : Word) : State :=
  let a := if writer then Reg.SPL_WCTL n else Reg.SPL_RCTL n
  let en := data.getLsbD 31
  let clear := Fld.SPL_RCTL_EN.put 0 data
  let want := match RegMap.find a with
    | some d => d.written false clear 0 (s.reg a)
    | none => s.reg a
  if s.flag a Fld.SPL_RCTL_EN then
    let s := if Fld.SPL_RCTL_EN.put 0 (s.reg a) = want.and 0x7FFFFFFF then s else s.setFld Reg.SPL_STAT Fld.SPL_STAT_CREF 1
    s.setFld a Fld.SPL_RCTL_EN (bit en)
  else
    let s := s.setReg a want
    if !en then s
    else if s.streamRefused writer n (s.ringAt a want) then
      (s.setFlds Reg.SPL_STAT [(Fld.SPL_STAT_CREF, 1), (Fld.SPL_STAT_CAUSE, 7)]).splEvent 3
    else s.setFld a Fld.SPL_RCTL_EN 1

/-- STREAM_ENABLE (R363). -/
def execStreamEnable (_who : Who) (writer : Bool) (n : Fin 64) (data : Word) (s : State) : Out :=
  .next (s.streamControl writer n data)

/-- A stream access failed: the address is recorded and event 472 raised (R361). -/
def State.streamError (s : State) (addr : Nat) : State := (s.setAddr Reg.SPL_EADRL Reg.SPL_EADRH addr).splEvent 8

/-- Whole lines read for the spool (R361): the bytes, or the first line that failed. -/
inductive SplRead where
  | bytes (b : List Byte)
  | refused (addr : Nat)
  | uncorrectable (addr : Nat)
  | held
  deriving DecidableEq, Repr

/-- The whole lines that hold `n` bytes at `a`, read for the spool. -/
def State.splLines (s : State) (coh : Bool) (a n : Nat) : SplRead × State :=
  let l := (List.range ((a % 64 + n + 63) / 64)).map (fun i => a / 64 * 64 + 64 * i)
  if s.anyHeld (l.map (fun k => (k, 64))) then (.held, s.acceptAll (l.map (fun k => ⟨.spool, s.classOf .spool, .read, k, 64, coh⟩)))
  else l.foldl (fun p k => match p.1 with
    | .bytes b => match p.2.engineRead .spool coh k 64 with
      | (.bytes c, s) => (.bytes (b ++ c), s)
      | (.refused _ _, s) => (.refused k, s)
      | (.uncorrectable _, s) => (.uncorrectable k, s)
      | (.held, s) => (.held, s)
    | _ => p) (.bytes [], s)

/-- The samples of a frame held as bytes (R129, R360). -/
def frameSamples (g : Ring) (b : List Byte) : List Int :=
  (List.range g.chans).map (fun c => sample24 (leNat ((b.drop (c * g.esz)).take 3)))

/-- An enabled reader at a tick (R361): the samples of the frame taken, or none at an underrun; a frame whose lines are held has not arrived and
underruns, too (DEDUCED, log 38). -/
def State.readerTick (s : State) (r : Fin 64) : Option (List Int) × State :=
  let g := s.readerRing r
  let under (s : State) : State := (s.splMark Reg.SPL_RUNDL Reg.SPL_RUNDH r).splEvent 6
  if g.own = s.spl.widx[r.val] then (none, under s)
  else
    let a := g.frame g.own
    match s.splLines g.coh a (g.chans * g.esz) with
    | (.bytes b, s) => (some (frameSamples g (b.drop (a % 64))), s.setReg (Reg.SPL_RRIDX r) (BitVec.ofNat 32 (g.after g.own)))
    | (.refused k, s) => (none, (under s).streamError k)
    | (.uncorrectable k, s) => (none, (under s).streamError k)
    | (.held, _) => (none, under s)

/-- The bytes of an element of a frame in memory (R129): 3 bytes, or 4 with the sign extended. -/
def elementBytes (esz : Nat) (x : Int) : List Byte := leBytes esz (BitVec.ofInt 32 x).toNat

/-- The place in its ring of a writer's next frame, behind those that have not landed. -/
def State.writerPlace (s : State) (w : Fin 64) : Nat :=
  let g := s.writerRing w
  (s.spl.frames.filter (fun f => f.writer = w)).foldl (fun i _ => g.after i) g.own

/-- A writer's frame is lost (R361, R362): its bit and event 471. -/
def State.writerOverflow (s : State) (w : Fin 64) : State := (s.splMark Reg.SPL_WOVFL Reg.SPL_WOVFH w).splEvent 7

/-- Every enabled writer copies a frame of the outputs (R362); a full ring discards it. -/
def State.issueFrames (s : State) (out : Nat → Int) : State :=
  (List.finRange 64).foldl (fun s (w : Fin 64) =>
    if s.flag (Reg.SPL_WCTL w) Fld.SPL_WCTL_EN then
      let g := s.writerRing w
      let k := s.writerPlace w
      if g.after k = g.other then s.writerOverflow w
      else
        let b := (List.range g.chans).flatMap (fun c => elementBytes g.esz (out (g.first + c)))
        { s with spl := { s.spl with frames := s.spl.frames ++ [⟨w, g.coh, g.frame k, b⟩] } }
    else s) s

/-- A writer's frame is written where it was copied to, and WIDX advances (R362); a refused write is reported as a read error is (R361). A word
that is not written over an error is reported under R233 alone. -/
def State.frameLands (s : State) (f : SplFrame) : State :=
  let g := s.writerRing f.writer
  match s.engineWrites .spool f.coh f.addr f.bytes with
  | (.refused _ a, s) => (s.writerOverflow f.writer).streamError a
  | (_, s) => s.setReg (Reg.SPL_WWIDX f.writer) (BitVec.ofNat 32 (g.after g.own))

/-- WRITER_FRAME_LANDED (R362): a writer's oldest frame; none lands while its writes are held. -/
def execWriterFrameLanded (w : Fin 64) (upsets : Upsets) (s : State) : Out :=
  match s.spl.frames.find? (fun f => f.writer == w) with
  | some f =>
    let l := lineSplit (f.bytes.length / 64 + 2) f.addr f.bytes.length
    if s.anyHeld l then .next (s.acceptAll (l.map (fun p => ⟨.spool, s.classOf .spool, .write [], p.1, p.2, f.coh⟩)))
    else .next ((({ s with spl := { s.spl with frames := s.spl.frames.eraseP (fun f => f.writer == w) } }).strike upsets).frameLands f)
  | none => .next s

/-! ### TDM ports -/

/-- The control word in force at a boundary is kept until one more than 1 ac + 3 fc later, its tick (R351, R359): a write takes
effect at the next boundary. -/
def State.tdmWrite (s : State) (p : Nat) (data hw : Word) : State :=
  let s := s.plainWrite (Reg.SPL_TDMCTL p) data hw
  { s with spl := { s.spl with tdmLate := s.spl.tdmLate ++ [(s.fc, p, s.reg (Reg.SPL_TDMCTL p))] } }

/-- The boundary before this tick has passed: control writes that landed 34 fc or more before the tick are in force. -/
def State.tdmBoundary (s : State) : State :=
  let early := s.spl.tdmLate.filter (fun w => w.1 + 34 ≤ s.fc)
  { s with spl := { s.spl with
      tdm := early.foldl (fun t w => t.set! w.2.1 w.2.2) s.spl.tdm
      tdmLate := s.spl.tdmLate.filter (fun w => s.fc < w.1 + 34)
      txNow := s.spl.txNext, txNext := none } }

/-- TDM_RECEIVE_FRAME (R359): the slots of a port that receives; an input that names no pin reads 0 (R464). -/
def execTdmReceiveFrame (p : Fin 8) (slots : List Word) (s : State) : Out :=
  if Fld.SPL_TDMCTL_RXEN.get s.spl.tdm[p.val] = 1 then
    let slots := if (s.inPin (160 + p.val)).isSome then slots else []
    .next { s with spl := { s.spl with rx := Sparse.put p.val slots s.spl.rx } }
  else .next s

/-- The slot word that a port drives in the frame it transmits (R358, R359); `none` where nothing was queued for the frame. -/
def State.tdmSlot (s : State) (p slot : Nat) : Option Word :=
  if Fld.SPL_TDMCTL_TXEN.get (s.spl.tdm.getD p 0) = 0 then some 0
  else s.spl.txNow.map (fun l => BitVec.ofInt 24 (l.getD (16 * p + slot) 0) ++ (0 : BitVec 8))

/-- An input that a TDM port feeds (R353): the slot's sample while the port receives, active where RXSLOT names the slot. -/
def State.tdmInput (s : State) (i : Nat) : Int × Bool :=
  let p := (i - 64) / 16
  let c := s.spl.tdm.getD p 0
  if Fld.SPL_TDMCTL_RXEN.get c = 1 then
    (match Sparse.get p s.spl.rx with
      | some l => sample24 ((l.getD (i % 16) 0).toNat / 256)
      | none => 0, c.getLsbD (i % 16))
  else (0, false)

/-! ### The mix program -/

/-- The address of instruction i of a bank (R375). -/
def mixAddr (bank i : Nat) : Nat := 0x10B08000 + bank * 0x4000 + 4 * i

/-- The active bank. -/
def State.mixBank (s : State) : Nat := s.fld Reg.SPL_STAT Fld.SPL_STAT_BANK

/-- The length of the active program. -/
def State.mixLength (s : State) : Nat := if s.mixBank = 0 then s.spl.length.1 else s.spl.length.2

/-- An instruction of the active program. -/
def State.mixWord (s : State) (i : Nat) : Nat := (s.reg (mixAddr s.mixBank i)).toNat

/-- OP, SRC and BUS of an instruction (R365). -/
def mixOp (w : Nat) : Nat := w / 2 ^ 28

/-- The SRC field. -/
def mixSrc (w : Nat) : Nat := w / 2 ^ 19 % 512

/-- The BUS field. -/
def mixBus (w : Nat) : Nat := w / 2 ^ 13 % 64

/-- The fields that must be zero are zero (R365). -/
def mixZeros (w : Nat) : Bool :=
  match mixOp w with
  | 1 => w / 2 ^ 19 % 512 == 0 && w % 4096 == 0
  | 2 => w / 2 ^ 10 % 8 == 0
  | 3 => w % 2 ^ 13 == 0
  | 4 => w / 2 ^ 7 % 4096 == 0
  | _ => w % 2 ^ 28 == 0

/-- The instruction names a source. -/
def mixHasSrc (w : Nat) : Bool := mixOp w == 2 || mixOp w == 3 || mixOp w == 4

/-- A bus. -/
def State.bus (s : State) (b : Nat) : Bus := s.spl.buses.getD b ⟨0, false, false, [], 0⟩

/-- A bus changed. -/
def State.setBus (s : State) (b : Nat) (x : Bus) : State := { s with spl := { s.spl with buses := s.spl.buses.set! b x } }

/-- The program error of an instruction (R366). -/
def State.mixError (s : State) (w : Nat) : Option Nat :=
  if 5 < mixOp w ∨ mixZeros w = false then some 1
  else if mixHasSrc w ∧ 320 ≤ mixSrc w then some 2
  else if (mixOp w = 2 ∧ (s.bus (mixBus w)).auto = true) ∨ (mixOp w = 3 ∧ (s.bus (mixBus w)).auto = false) then some 3
  else none

/-- A program error is reported (R366). -/
def State.mixFail (s : State) (pc cause : Nat) : State :=
  let first := !s.flag Reg.SPL_STAT Fld.SPL_STAT_PERR
  let s := s.setFlds Reg.SPL_STAT [(Fld.SPL_STAT_PERR, 1), (Fld.SPL_STAT_CAUSE, cause), (Fld.SPL_STAT_EPC, pc)]
  if first then s.splEvent 3 else s

/-- `clamp24` in the run, which reports a change of value (R365). -/
def State.clamped (s : State) (x : Int) : Int × State :=
  if clamp24 x = x then (x, s)
  else
    let first := !s.flag Reg.SPL_STAT Fld.SPL_STAT_CLIP
    let s := s.setFld Reg.SPL_STAT Fld.SPL_STAT_CLIP 1
    (clamp24 x, if first then s.splEvent 4 else s)

/-- The sample and the activity of a source (R365). -/
def State.mixSource (s : State) (src : Nat) : (Int × Bool) × State :=
  if src < 256 then (s.spl.inputs.getD src (0, false), s)
  else
    let b := s.bus (src - 256)
    let r := s.clamped b.acc
    ((r.1, b.active), r.2)

/-- A MIXA instruction's record. -/
def State.mixaAt (s : State) (k : Nat) : MixA := (Sparse.get k s.spl.mixa).getD ⟨0, false, 0, 0⟩

/-- The gain g (R371). -/
def State.gain (s : State) (g : Nat) : Int := signed 16 (s.reg (Reg.SPL_GAIN g)).toNat

/-- A sum as an accumulator of 40 bits holds it (R365). -/
def acc40 (x : Int) : Int := signed 40 (x % 2 ^ 40).toNat

/-- What an instruction without an error does, its place in the program being `pc` (R365, R367). -/
def State.mixAct (s : State) (pc w : Nat) : State :=
  let b := mixBus w
  match mixOp w with
  | 1 => s.setBus b { s.bus b with acc := 0, active := false, auto := w / 4096 % 2 == 1 }
  | 2 =>
    let r := s.mixSource (mixSrc w)
    let s := r.2
    s.setBus b { s.bus b with acc := acc40 ((s.bus b).acc + Int.tdiv (r.1.1 * s.gain (w % 1024)) 4096), active := (s.bus b).active || r.1.2 }
  | 3 =>
    let r := s.mixSource (mixSrc w)
    let s := r.2
    let m := s.mixaAt pc
    let wk := ((m.s : Int) + Int.fdiv (((m.t : Int) - m.s) * ((s.bus b).step : Int)) 256).toNat
    let s := { s with spl := { s.spl with mixa := Sparse.put pc ⟨wk, r.1.2, m.s, m.t⟩ s.spl.mixa } }
    s.setBus b { s.bus b with acc := acc40 ((s.bus b).acc + Int.tdiv (r.1.1 * (wk : Int)) 65536), active := (s.bus b).active || r.1.2 }
  | 4 =>
    let r := s.mixSource (mixSrc w)
    let c := r.2.clamped r.1.1
    { c.2 with spl := { c.2.spl with outputs := c.2.spl.outputs.set! (w % 128) c.1 } }
  | _ => s

/-- Gain writes held during a run apply (R371). -/
def State.gainsApply (s : State) : State :=
  let s := s.spl.gainHeld.foldl (fun s g => s.setReg (Reg.SPL_GAIN g.1) g.2) s
  { s with spl := { s.spl with gainHeld := [] } }

/-- The output array goes to the TDM output queues and to the writers (R351 step 5). -/
def State.mixDeliver (s : State) : State :=
  let out := s.spl.outputs
  ({ s with spl := { s.spl with txNext := some out.toList } }).issueFrames (fun o => out.getD o 0)

/-- The run ends (R351, R371). -/
def State.mixEnd (s : State) : State := ({ s with spl := { s.spl with run := none } }).gainsApply.mixDeliver

/-- The run executes its next instruction where its OP is one of `op` (R365, R366). -/
def State.mixStep (s : State) (op : Nat → Bool) : State :=
  match s.spl.run with
  | none => s
  | some pc =>
    let w := s.mixWord pc
    if op (mixOp w) = false then s
    else
      let s := (s.tableRead 197 (mixAddr s.mixBank pc / 8 * 8) 8).2
      let next (s : State) : State :=
        if pc + 1 < s.mixLength then { s with spl := { s.spl with run := some (pc + 1) } } else s.mixEnd
      match s.mixError w with
      | some c => next (s.mixFail pc c)
      | none => if mixOp w = 0 then s.mixEnd else next (s.mixAct pc w)

/-- MIX_END (R365). -/
def execMixEnd (s : State) : Out := .next (s.mixStep (· == 0))

/-- MIX_CLR (R365). -/
def execMixClr (s : State) : Out := .next (s.mixStep (· == 1))

/-- MIX_MIX (R365). -/
def execMixMix (s : State) : Out := .next (s.mixStep (· == 2))

/-- MIX_MIXA (R367). -/
def execMixMixa (s : State) : Out := .next (s.mixStep (· == 3))

/-- MIX_OUT (R365). -/
def execMixOut (s : State) : Out := .next (s.mixStep (· == 4))

/-- MIX_NOP (R365), which is also what an OP outside the table acts as (R366). -/
def execMixNop (s : State) : Out := .next (s.mixStep (fun n => 5 ≤ n))

/-- Every automatic bus starts anew (R369, R372). -/
def State.mixFresh (s : State) : State :=
  { s with spl := { s.spl with mixa := [], buses := s.spl.buses.map (fun b => { b with members := [], step := 0 }), fresh := false } }

/-- The MIXA instructions into a bus whose sources were active at the last tick (R367). -/
def State.mixMembers (s : State) (b : Nat) : List Nat :=
  (s.spl.mixa.filter (fun m => m.2.a && mixBus (s.mixWord m.1) == b)).map (fun m => m.1)

/-- An automatic bus before a run (R367). -/
def State.busTick (s : State) (b : Nat) : State :=
  let x := s.bus b
  if x.auto then
    let set := s.mixMembers b
    let (s, step) :=
      if set = x.members then (s, x.step)
      else ({ s with spl := { s.spl with mixa := s.spl.mixa.map (fun m =>
          if mixBus (s.mixWord m.1) = b then (m.1, { m.2 with s := m.2.w, t := if m.2.a then 65536 / set.length else 0 }) else m) } }, 0)
    s.setBus b { x with members := set, step := if step < 256 then step + 1 else step }
  else s

/-! ### The tick -/

/-- The range of lines of free follower error: device time at the boundary, 1 ac + 3 fc before this fc, as the audio-domain follower
shows it, within one ac of the master (R28, R351; log 11). -/
def State.boundaryTime (s : State) : Nat :=
  let t : Int := ((s.psq.time : Int) - (s.psq.inc * 17161 / 512 : Nat)) / 2 ^ 32
  (t + (Config.freeNat s.free % 81 : Nat) - 40).toNat % 2 ^ 64

/-- A load whose image has arrived switches the banks (R370). -/
def State.mixSwitch (s : State) : State :=
  match s.spl.load with
  | some (.ready _) =>
    let s := s.setFlds Reg.SPL_STAT [(Fld.SPL_STAT_BANK, 1 - s.mixBank), (Fld.SPL_STAT_LPEND, 0)]
    let s := ({ s with spl := { s.spl with load := none, switched := true } }).mixFresh
    (s.splEvent 0).psqSignal .mix
  | _ => { s with spl := { s.spl with switched := false } }

/-- The input array of a tick (R353): voices, TDM slots and stream inputs, muted where SPL_IMUTE says. -/
def State.formInputs (s : State) : State :=
  let v := (List.finRange 64).foldl (fun (p : List (Int × Bool) × State) (i : Fin 64) => let r := p.2.voiceTick i
                                                                             (p.1 ++ [r.1], r.2)) ([], s)
  let s := v.2
  let t := (List.range 128).map (fun i => s.tdmInput (64 + i))
  let r := (List.finRange 64).foldl (fun (p : List (Int × Bool) × State) (i : Fin 64) =>
    if p.2.flag (Reg.SPL_RCTL i) Fld.SPL_RCTL_EN then
      let g := p.2.readerRing i
      let q := p.2.readerTick i
      match q.1 with
      | some l => (p.1.zipIdx.map (fun e => if g.first ≤ e.2 + 192 ∧ e.2 + 192 < g.first + g.chans
                                            then (l.getD (e.2 + 192 - g.first) 0, true) else e.1), q.2)
      | none => (p.1, q.2)
    else p) (List.replicate 64 (0, false), s)
  let s := r.2
  let all := (v.1 ++ t ++ r.1).zipIdx.map (fun e => if (s.reg (Reg.SPL_IMUTE (e.2 / 32))).getLsbD (e.2 % 32) then (0, false) else e.1)
  { s with spl := { s.spl with inputs := all, rx := [], widx := Vector.ofFn (fun i => s.fld (Reg.SPL_RWIDX i) Fld.SPL_RWIDX_IDX) } }

/-- An abort shows at the first tick after its sample (R372). -/
def State.abortShows (s : State) : State :=
  match s.spl.abort with
  | some late =>
    let s := s.setFld Reg.SPL_STAT Fld.SPL_STAT_ABORTED 1
    let s := if late then s.setFld Reg.SPL_STAT Fld.SPL_STAT_ABLATE 1 else s
    ({ s with spl := { s.spl with abort := none } }).splEvent 2
  | none => s

/-- Keys and gains that landed before this fc apply; a gain that landed in it is held until the run ends (R351 step 2, R371). -/
def State.applyWrites (s : State) : State :=
  let s := (s.spl.keys.filter (fun k => k.1 < s.fc)).foldl (fun s k => s.applyKey k.2.1 k.2.2) s
  let now := s.spl.gainOld.filter (fun g => g.1 = s.fc)
  let held := now.map (fun g => (g.2.1, s.reg (Reg.SPL_GAIN g.2.1)))
  let s := now.reverse.foldl (fun s g => s.setReg (Reg.SPL_GAIN g.2.1) g.2.2) s
  { s with spl := { s.spl with keys := s.spl.keys.filter (fun k => s.fc ≤ k.1), gainOld := [], gainHeld := held } }

/-- The run of a tick starts (R351 step 4), or, with RUN = 0, zeros are delivered. -/
def State.mixBegin (s : State) : State :=
  let s := { s with spl := { s.spl with outputs := Vector.replicate 128 0 } }
  if s.flag Reg.SPL_CTRL Fld.SPL_CTRL_RUN then
    let s := if s.spl.fresh then s.mixFresh else s
    let s := (List.range 64).foldl (fun s b => s.busTick b) s
    { s with spl := { s.spl with run := some 0 } }
  else s.gainsApply.mixDeliver

/-- A tick (R351). -/
def State.sampleTick (s : State) : State :=
  let t := s.boundaryTime
  let s := { s with free := s.free + 1 }
  let s := (s.setReg Reg.SPL_TSL (BitVec.ofNat 32 t)).setReg Reg.SPL_TSH (BitVec.ofNat 32 (t / 2 ^ 32))
  let s := s.setReg Reg.SPL_SCNT (s.reg Reg.SPL_SCNT + 1)
  let s := s.tdmBoundary.applyWrites.mixSwitch.abortShows.formInputs.mixBegin
  s.splEvent 5

/-- The audio clock runs: its PLL is locked (R350, R486). -/
def State.audioClock (s : State) : Bool := s.sys.clocks.getLsbD 11

/-- Device time is that of a tick (R351, R488): while the audio PLL is locked to device time, boundary 3k lies within 25 ns of APH + 62,500k ns, and its
tick 44.69 ns after it, in steps of an fc (DEDUCED, log 90). -/
def State.tickTime (s : State) : Bool :=
  let a := Reg.SYS_APLL
  if s.flag a Fld.SYS_APLL_DTLOCK && s.flag a Fld.SYS_APLL_LOCKED then
    let d := (3 * ((s.now : Int) - (s.reg64 Reg.SYS_APHL Reg.SYS_APHH : Nat))) % 62500
    57 ≤ d && d ≤ 216
  else true

/-- SAMPLE_TICK (R351): the run of the last tick has ended, since it takes at most 4,096 of the 15,625 fc. -/
def execSampleTick (upsets : Upsets) (s : State) : Out :=
  if s.spl.run.isNone ∧ s.audioClock ∧ s.tickTime ∧ s.poweredOff 0x10B00000 = false ∧ s.fab.clearing.contains .spl = false then
    .next (s.strike upsets).sampleTick
  else .next s

/-! ### Loading, gains, abort -/

/-- A write to SPL_PLOAD (R370). -/
def State.programLoad (s : State) (data : Word) : State :=
  if s.flag Reg.SPL_STAT Fld.SPL_STAT_LPEND then (s.setFld Reg.SPL_STAT Fld.SPL_STAT_LREF 1).splEvent 1
  else { s.setFld Reg.SPL_STAT Fld.SPL_STAT_LPEND 1 with spl := { s.spl with load := some (.reading (data.toNat * 256)) } }

/-- PROGRAM_LOAD (R370). -/
def execProgramLoad (_who : Who) (data : Word) (s : State) : Out := .next (s.programLoad data)

/-- A load ends with an error (R370): abandoned, with its load-end signal. -/
def State.loadFails (s : State) (cause : Nat) (addr : Option Nat) : State :=
  let s := s.setFlds Reg.SPL_STAT [(Fld.SPL_STAT_LERR, 1), (Fld.SPL_STAT_CAUSE, cause), (Fld.SPL_STAT_LPEND, 0)]
  let s := match addr with
    | some a => s.setAddr Reg.SPL_EADRL Reg.SPL_EADRH a
    | none => s
  (({ s with spl := { s.spl with load := none } }).splEvent 1).psqSignal .mix

/-- PROGRAM_LOAD_END (R370): the image arrives, or the load fails. -/
def execProgramLoadEnd (upsets : Upsets) (s : State) : Out :=
  match s.spl.load with
  | some (.reading a) =>
    let s := s.strike upsets
    let coh := s.flag Reg.SPL_CTRL Fld.SPL_CTRL_COH
    match s.splLines coh a 64 with
    | (.held, s) => .next s
    | (.refused k, s) => .next (s.loadFails 4 (some k))
    | (.uncorrectable k, s) => .next (s.loadFails 5 (some k))
    | (.bytes b, s') =>
      let n := leNat (b.take 4)
      if n = 0 ∨ 4096 < n then .next (s'.loadFails 6 none)
      else match s'.splLines coh (a + 64) (4 * n + 4 - 64) with
        | (.held, s) => .next s
        | (.refused k, s) => .next (s.loadFails 4 (some k))
        | (.uncorrectable k, s) => .next (s.loadFails 5 (some k))
        | (.bytes c, s) =>
          let words := (b ++ c).drop 4
          let bank := 1 - s.mixBank
          let s := (List.range n).foldl (fun s i =>
            { s.setReg (mixAddr bank i) (BitVec.ofNat 32 (leNat ((words.drop (4 * i)).take 4))) with
              ecc := Sparse.erase (mixAddr bank i / 8 * 8) s.ecc }) s
          let len := if bank = 0 then (n, s.spl.length.2) else (s.spl.length.1, n)
          .next { s with spl := { s.spl with load := some (.ready n), length := len } }
  | _ => .next s

/-- A write to SPL_GAINg (R351, R371). -/
def State.gainWrite (s : State) (g : Nat) (data : Word) : State :=
  let w := data.and 0xFFFF
  if s.spl.run.isSome then { s with spl := { s.spl with gainHeld := s.spl.gainHeld ++ [(g, w)] } }
  else
    let old := s.reg (Reg.SPL_GAIN g)
    { s.setReg (Reg.SPL_GAIN g) w with spl := { s.spl with
        gainOld := s.spl.gainOld.filter (fun o => o.1 = s.fc) ++ [(s.fc, g, old)] } }

/-- SPL_GAIN_WRITE (R371). -/
def execSplGainWrite (_who : Who) (g : Fin 1024) (data : Word) (s : State) : Out := .next (s.gainWrite g data)

/-- A write to SPL_CMD (R372). -/
def State.splCommand (s : State) (data : Word) : State :=
  if data.getLsbD 0 then
    let pending := s.flag Reg.SPL_STAT Fld.SPL_STAT_LPEND
    let s := (s.setFld Reg.SPL_STAT Fld.SPL_STAT_LPEND 0).setFld Reg.SPL_CTRL Fld.SPL_CTRL_RUN 0
    let s := { s with spl := { s.spl with run := none, load := none, abort := some s.spl.switched, fresh := true } }
    let s := s.gainsApply
    if pending then s.psqSignal .mix else s
  else s

/-- SPL_ABORT (R372). -/
def execSplAbort (_who : Who) (data : Word) (s : State) : Out := .next (s.splCommand data)

/-- A read of SPL_TSL (R352). -/
def State.splTslRead (s : State) (who : Who) : State :=
  let s := { s with spl := { s.spl with latches := Sparse.put who.id (s.reg Reg.SPL_TSH, s.reg Reg.SPL_SCNT) s.spl.latches } }
  s.respondWord who (s.reg Reg.SPL_TSL)

/-- SPL_TSL_READ (R352). -/
def execSplTslRead (who : Who) (s : State) : Out := .next (s.splTslRead who)

/-! ### The window -/

/-- A ring register that only EN = 0 lets software write (R363): BASE, SIZE and the spool's own index. -/
def State.ringWrite (s : State) (a : Nat) (data hw : Word) : State :=
  let o := a % 32
  let ctl := a / 32 * 32
  if o = 0x14 then s.plainWrite a data hw
  else if (RegMap.find a).isNone then s
  else if s.flag ctl Fld.SPL_RCTL_EN then s.setFld Reg.SPL_STAT Fld.SPL_STAT_CREF 1
  else s.plainWrite a data hw

/-- A write to SPL_CTRL: one that sets RUN restarts the program at the next tick with every automatic bus reset (R372). -/
def State.splControl (s : State) (data hw : Word) : State :=
  let was := s.flag Reg.SPL_CTRL Fld.SPL_CTRL_RUN
  let s := s.plainWrite Reg.SPL_CTRL data hw
  if !was && s.flag Reg.SPL_CTRL Fld.SPL_CTRL_RUN then { s with spl := { s.spl with fresh := true } } else s

/-- A write lands in the SPL block. -/
def State.landSpl (s : State) (who : Who) (a : Nat) (data hw : Word) : State :=
  let o := a - 0x10B00000
  if 0x40000 ≤ o ∧ o < 0x80000 then s.windowWrite who.id a data
  else if 0x8000 ≤ o then s
  else if 0x4000 ≤ o ∧ o < 0x5000 then s.gainWrite ((o - 0x4000) / 4) data
  else if 0x2000 ≤ o ∧ o < 0x4000 then
    if o < 0x2800 ∧ o % 32 = 0 then s.streamControl false ((o - 0x2000) / 32) data
    else if 0x3000 ≤ o ∧ o < 0x3800 ∧ o % 32 = 0 then s.streamControl true ((o - 0x3000) / 32) data
    else s.ringWrite a data hw
  else if 0x1000 ≤ o ∧ o < 0x1800 ∧ o % 32 = 0x1C then s.keyWrite ((o - 0x1000) / 32) data
  else if 0x100 ≤ o ∧ o < 0x120 then s.tdmWrite ((o - 0x100) / 4) data hw
  else if a = Reg.SPL_CTRL then s.splControl data hw
  else if a = Reg.SPL_CMD then s.splCommand data
  else if a = Reg.SPL_PLOAD then s.programLoad data
  else s.plainWrite a data hw

/-- A read of the SPL block; only the voices read the wave RAM, so an access to it returns 0 (R355; DEDUCED, log 83). -/
def State.readSpl (s : State) (who : Who) (a : Nat) (hw : Word) : State :=
  let o := a - 0x10B00000
  let l := (Sparse.get who.id s.spl.latches).getD (0, 0)
  if 0x8000 ≤ o ∧ o < 0x10000 then s.windowRead who a
  else if 0x40000 ≤ o ∧ o < 0x80000 then s.respondWord who 0
  else if a = Reg.SPL_TSL then s.splTslRead who
  else if a = Reg.SPL_TSH then s.respondWord who l.1
  else if a = Reg.SPL_SCNT then s.respondWord who l.2
  else let r := s.plainRead a hw
       r.2.respondWord who r.1

end Sys2Proof.Machine
end

