-- ==== Sys2Proof/Machine/Seam.lean ====
section
/-! DEFINITION. The seam's bridge: reception, filtering database, stream filters, redundancy, audio streams, the deliveries of port 8, and
the SEAM window (R379 to R385, R397, R417, R419 to R421). Readings and choices: logs 31, 39, 84, 85. -/

namespace Sys2Proof.Machine

/-! ### Filtering database (R380) -/

/-- The offset of way w of bucket b. -/
def fdbAt (b w : Nat) : Nat := 0x80000 + 64 * b + 16 * w

/-- The bucket of a MAC address and a VID. -/
def fdbBucket (mac vid : Nat) : Nat := crc32c (beBytes 6 mac ++ beBytes 2 vid) % 4096

/-- An entry holds a MAC address and a VID. -/
def State.fdbHolds (s : State) (o mac vid : Nat) : Bool :=
  s.seamWord o 1 / 2 ^ 31 == 1 && s.seamWord o 0 == mac % 2 ^ 32 && s.seamWord o 1 % 2 ^ 16 == mac / 2 ^ 32 &&
  s.seamWord o 1 / 2 ^ 16 % 4096 == vid

/-- The offset of the valid entry of a MAC address and a VID. -/
def State.fdbFind (s : State) (mac vid : Nat) : Option Nat :=
  ((List.range 4).map (fun w => fdbAt (fdbBucket mac vid) w)).find? (fun o => s.fdbHolds o mac vid)

/-- Learning (R380): a source that matches an entry clears its AGE; another takes the first free way of ways 0–2. -/
def State.learn (s : State) (mac vid port : Nat) : State :=
  match s.fdbFind mac vid with
  | some o =>
    let f1 := s.seamWord o 1
    s.setSeamWord o 1 (f1 - f1 / 2 ^ 29 % 2 * 2 ^ 29)
  | none =>
    if s.flag Reg.SEAM_CTRL Fld.SEAM_CTRL_LEARN then
      match ((List.range 3).map (fun w => fdbAt (fdbBucket mac vid) w)).find? (fun o => s.seamWord o 1 / 2 ^ 31 == 0) with
      | some o =>
        let s := (s.setSeamWord o 0 (mac % 2 ^ 32)).setSeamWord o 2 (2 ^ port)
        s.setSeamWord o 1 (2 ^ 31 + vid * 2 ^ 16 + mac / 2 ^ 32)
      | none => s.setFld Reg.SEAM_STAT Fld.SEAM_STAT_LFULL 1
    else s

/-- The offsets of the valid dynamic entries of the database. -/
def State.fdbDynamic (s : State) : List Nat :=
  s.dev.filterMap (fun p => if 0x10C80000 ≤ p.1 ∧ p.1 < 0x10CC0000 ∧ p.1 % 16 = 4 ∧ p.2.toNat / 2 ^ 30 = 2 then some (p.1 - 0x10C00004) else none)

/-- AGEING_SCAN (R380): every AGE seconds, an entry already marked is removed and another is marked. -/
def execAgeingScan (upsets : Upsets) (s : State) : Out :=
  if s.flag Reg.SEAM_CTRL Fld.SEAM_CTRL_EN = true ∧ s.seam.aged + s.fld Reg.SEAM_CTRL Fld.SEAM_CTRL_AGE * 750000000 ≤ s.fc then
    let s := (s.strike upsets).checkRange 198 0x10C80000 0x10CC0000
    let s := s.fdbDynamic.foldl (fun s o =>
      let f1 := s.seamWord o 1
      s.setSeamWord o 1 (if f1 / 2 ^ 29 % 2 = 1 then f1 % 2 ^ 31 else f1 + 2 ^ 29)) s
    .next { s with seam := { s.seam with aged := s.fc } }
  else .next s

/-! ### Stream filters, meters, recovery (R383 to R385) -/

/-- A flow meter's buckets brought up to this fc (R384). -/
def State.meterNow (s : State) (m : Nat) : Meter :=
  let o := 0xD8000 + 16 * m
  let x := (Sparse.get m s.seam.meters).getD ⟨s.fc, 0, 0⟩
  let fill (rate size have_ : Nat) : Nat := min (size * 93750) (have_ + rate * (s.fc - x.fc))
  ⟨s.fc, fill (s.seamWord o 0 % 2 ^ 24) (s.seamWord o 1 % 2 ^ 24) x.committed,
    fill (s.seamWord o 2 % 2 ^ 24) (s.seamWord o 3 % 2 ^ 24) x.excess⟩

/-- A meter's buckets stored. -/
def State.setMeter (s : State) (m : Nat) (x : Meter) : State :=
  { s with seam := { s.seam with meters := Sparse.put m x s.seam.meters } }

/-- A frame of `n` bytes at a meter (R384): true where it passes. -/
def State.meterFrame (s : State) (m n : Nat) : Bool × State :=
  let o := 0xD8000 + 16 * m
  let s := s.seamRead o 16
  if s.seamWord o 0 / 2 ^ 31 = 0 then (true, s)
  else
    let x := s.meterNow m
    let b := n * 93750
    if b ≤ x.committed then (true, s.setMeter m { x with committed := x.committed - b })
    else if b ≤ x.excess then (s.seamWord o 0 / 2 ^ 30 % 2 == 0, s.setMeter m { x with excess := x.excess - b })
    else (false, s.setMeter m x)

/-- The sequence history after a step of `d`: `d` places older, the newest accepted. -/
def historyShift (h : List Bool) (len d : Nat) : List Bool := (true :: (List.replicate (d - 1) false ++ h)).take len

/-- Vector recovery of IEEE 802.1CB (R385): true where the frame passes. -/
def CbRec.recover (r : CbRec) (len seq fc : Nat) : Bool × CbRec :=
  if r.takeAny then (true, { r with takeAny := false, top := seq, hist := true :: List.replicate (len - 1) false, passed := fc })
  else
    let d := signed 16 (seq + 65536 - r.top)
    if (len : Int) ≤ d ∨ d ≤ -(len : Int) then (false, r)
    else if 0 < d then (true, { r with top := seq, hist := historyShift r.hist len d.toNat, passed := fc })
    else if r.hist.getD (-d).toNat false then (false, r)
    else (true, { r with hist := r.hist.set (-d).toNat true, passed := fc })

/-- A received frame at its CB stream (R385). -/
def State.cbReceive (s : State) (c : Nat) (l : List Byte) : Option (List Byte) × State :=
  let o := 0xC0000 + 16 * c
  let s := s.seamRead o 16
  if hasRtag l && s.seamWord o 0 / 2 ^ 31 == 1 && s.seamWord o 0 / 2 ^ 29 % 2 == 1 then
    let r := (s.cbRec c).recover (s.seamWord o 0 / 2 ^ 16 % 32 + 1) (rtagSeq l) s.fc
    let s := s.setCbRec c r.2
    if r.1 then (some (dropRtag l), s.seamCount o 2) else (none, s.seamCount o 3)
  else (some l, s)

/-- CB_RECOVERY_RESET (R385): no frame has passed for RESET µs. -/
def execCbRecoveryReset (c : Fin 2048) (s : State) : Out :=
  let o := 0xC0000 + 16 * c.val
  let r := s.cbRec c
  if s.seamWord o 0 / 2 ^ 31 = 1 ∧ s.seamWord o 0 / 2 ^ 29 % 2 = 1 ∧ r.takeAny = false ∧
      r.passed + s.seamWord o 1 % 2 ^ 24 * 750 ≤ s.fc then
    .next ((s.setCbRec c { r with takeAny := true, hist := [] }).raise 512)
  else .next s

/-- A stream gate is open (R384). -/
def State.streamGate (s : State) (w : Nat) : Bool := (s.reg (Reg.SEAM_SGATE (w / 32))).getLsbD (w % 32)

/-- A frame at stream filter f (R383): what passes, R-TAG removed where recovery passed it. -/
def State.filterFrame (s : State) (f : Nat) (l : List Byte) : Option (List Byte) × State :=
  let o := 0x60000 + 32 * f
  let s := s.seamCount o 3
  let w := s.seamWord o 0
  let size := w / 2 ^ 16 % 2 ^ 11
  if w / 2 ^ 29 % 2 = 1 then (none, s)
  else if size ≠ 0 ∧ size < l.length then
    let s := if w / 2 ^ 30 % 2 = 1 then s.setSeamWord o 0 (w + 2 ^ 29) else s
    (none, s.seamCount o 6)
  else if w / 2 ^ 27 % 2 = 1 ∧ s.streamGate (w / 2 ^ 8 % 256) = false then (none, s.seamCount o 5)
  else
    let r := if w / 2 ^ 28 % 2 = 1 then s.meterFrame (s.seamWord o 1 % 1024) (l.length + 4) else (true, s)
    if r.1 = false then (none, r.2.seamCount o 7)
    else
      let s := r.2.seamCount o 4
      if s.seamWord o 2 / 2 ^ 31 = 1 then s.cbReceive (s.seamWord o 2 % 2 ^ 11) l else (some l, s)

/-! ### Audio streams (R417) -/

/-- Samples of a PDU's data as 24-bit values: `size` bytes each, most significant first, the upper 24 bits. -/
def aafSamples (size : Nat) (d : List Byte) : List Int :=
  (List.range (d.length / size)).map (fun i => sample24 (beAt d (i * size) 3))

/-- The AVTP PDU of an AAF stream, or none: its stream identifier and its header and data. -/
def aafPdu (l : List Byte) : Option (Nat × List Byte) :=
  let m := (untag l).drop 14
  if etherType l = 0x22F0 ∧ beAt m 0 1 = 2 then some (beAt m 4 8, m) else none

/-- The listener of a stream identifier. -/
def State.aafFind (s : State) (sid : Nat) : Option Nat :=
  (List.range 64).find? (fun a => let o := 0xD4000 + 32 * a
    s.seamWord o 0 / 2 ^ 31 == 1 && s.seamWord o 1 == sid % 2 ^ 32 && s.seamWord o 2 == sid / 2 ^ 32)

/-- The bytes of a sample of a PDU's format: INT_24BIT three, INT_32BIT four. -/
def aafSize (m : List Byte) : Nat := if beAt m 16 1 = 2 then 4 else 3

/-- The channels of a PDU. -/
def aafChannels (m : List Byte) : Nat := beAt m 17 2 % 1024

/-- The format, nsr and channel count of a PDU are as R378 permits. -/
def aafPermitted (m : List Byte) : Bool :=
  (beAt m 16 1 == 2 || beAt m 16 1 == 3) && beAt m 17 1 / 16 == 5 && 1 ≤ aafChannels m && aafChannels m ≤ 16

/-- A sample frame of a PDU in the ring's channels: a channel that the PDU does not have is open (log 84). -/
def aafFrame (n chans esz : Nat) (x : List Int) (free : Nat) : List Byte :=
  ((x.take n ++ (List.range (chans - n)).map (fun k => sample24 (Config.freeNat (free + k)))).take chans).flatMap (elementBytes esz)

/-- The ring of listener a, as its reader and the listener's words describe it (R417). -/
def State.aafRing (s : State) (a : Nat) : Ring :=
  let o := 0xD4000 + 32 * a
  let w := s.seamWord o 0
  { base := s.seamWord o 3 + s.seamWord o 4 % 256 * 2 ^ 32, size := s.seamWord o 5 % 2 ^ 16, chans := w / 2 ^ 8 % 16 + 1,
    esz := w / 2 ^ 6 % 2 + 3, first := 0, coh := false, own := s.fld (Reg.SPL_RWIDX (w % 64)) Fld.SPL_RWIDX_IDX,
    other := s.fld (Reg.SPL_RRIDX (w % 64)) Fld.SPL_RRIDX_IDX }

/-- The places of the ring that `n` further frames of a producer take, as far as the ring has room. -/
def Ring.places (g : Ring) : Nat → Nat → List Nat
  | 0, _ => []
  | n + 1, k => if g.after k = g.other then [] else k :: g.places n (g.after k)

/-- A PDU is taken by listener a (R417): its frames go into the ring, and SPL_RWIDX follows. While an access of it is held, the PDU waits. -/
def State.aafTake (s : State) (a : Nat) (m : List Byte) : State :=
  let o := 0xD4000 + 32 * a
  let s := s.seamRead o 32
  let g := s.aafRing a
  let reader := s.seamWord o 0 % 64
  let n := aafChannels m
  let read : Request := ⟨.seam, .rt1, .read, Reg.SPL_RRIDX reader, 4, true⟩
  match s.verdict read with
  | .refused c r => ((s.dropAccepted read).recordRefusal read c r).dmaError (Reg.SPL_RRIDX reader)
  | .allowed =>
    let x := aafSamples (aafSize m) ((m.drop 24).take (beAt m 20 2))
    let lines := (g.places (x.length / n) g.own).flatMap (fun k => lineSplit (g.chans * g.esz / 64 + 2) (g.frame k) (g.chans * g.esz))
    if s.portHeld read.addr || s.fab.clearing.contains .spl then (s.keepAccepted read).keepDelivery (.stream a m)
    else if s.anyHeld lines then
      ((s.keepAccepted read).acceptAll (lines.map (fun p => ⟨.seam, s.classOf .seam, .write [], p.1, p.2, false⟩))).keepDelivery (.stream a m)
    else
      let s := s.dropAccepted read
      let put (p : Nat × Option Nat × State) (i : Nat) : Nat × Option Nat × State :=
        if p.2.1.isSome then p
        else if g.after p.1 = g.other then
          (p.1, none, if p.2.2.seamWord o 6 = 0xFFFFFFFF then p.2.2 else p.2.2.seamCount o 6)
        else
          let b := aafFrame n g.chans g.esz (x.drop (i * n)) p.2.2.free
          match { p.2.2 with free := p.2.2.free + (g.chans - n) }.engineWrites .seam false (g.frame p.1) b with
          | (.done, s) => (g.after p.1, none, s)
          | (.refused _ k, s) => (p.1, some k, s)
          | (.uncorrectable k, s) => (p.1, some k, s)
          | (.held, s) => (p.1, none, s)
      let r := (List.range (x.length / n)).foldl put (g.own, none, s)
      let s := match r.2.1 with
        | some k => r.2.2.dmaError k
        | none => r.2.2
      let write : Request := ⟨.seam, .rt1, .write (leBytes 4 r.1), Reg.SPL_RWIDX reader, 4, true⟩
      match s.firewall write with
      | .refused c g => (s.recordRefusal write c g).dmaError (Reg.SPL_RWIDX reader)
      | .allowed => s.landSpl .seam (Reg.SPL_RWIDX reader) (BitVec.ofNat 32 r.1) 0

/-- The same behind the PDUs of that listener that wait. -/
def State.aafTakeAfter (s : State) (a : Nat) (m : List Byte) : State :=
  if s.seam.waiting.any (fun d => match d with | .stream b _ => b == a | .queue _ _ _ _ _ => false) then s.keepDelivery (.stream a m)
  else s.aafTake a m

/-! ### Deliveries of port 8 (R397) -/

/-- A frame delivered to port 8: its ingress port, the stream filter it passed, and its timestamp. -/
def State.deliver (s : State) (p : Fin 10) (l : List Byte) (filter : Option Nat) (stamp : Nat) : State :=
  let index := filter.getD 0xFFF
  let fallback (s : State) : State :=
    let rx := filter.filter (fun f => s.seamWord (0x60000 + 32 * f) 1 / 2 ^ 31 == 1)
    match rx with
    | some f => s.toRxQueueAfter false (s.seamWord (0x60000 + 32 * f) 1 / 2 ^ 16 % 2 ^ 13) p index stamp l
    | none =>
      if s.flag Reg.SEAM_RXDEF Fld.SEAM_RXDEF_EN then s.toRxQueueAfter false (s.fld Reg.SEAM_RXDEF Fld.SEAM_RXDEF_QUEUE) p index stamp l
      else s.pdrop 8
  if isGptp l then
    let r := s.ptpReceive p ((untag l).drop 14) stamp
    if r.1 then r.2 else r.2.toRxQueueAfter false (s.fld Reg.SEAM_PTPCTL Fld.SEAM_PTPCTL_MQ) p index stamp l
  else match aafPdu l with
    | some (sid, m) => match (s.aafFind sid).filter (fun _ => aafPermitted m) with
      | some a => s.aafTakeAfter a m
      | none => fallback s
    | none => match s.tgFind l with
      | some (i, ip, t) => s.tgTake i ip t l p stamp
      | none => fallback s

/-- A frame that waited for memory comes again. -/
def State.redeliver (s : State) : Delivery → State
  | .queue q sport index stamp l => s.toRxQueueAfter true q sport index stamp l
  | .stream a m => s.aafTakeAfter a m

/-- The frames that wait for memory come again, in order. -/
def State.rxResume (s : State) : State :=
  s.seam.waiting.foldl State.redeliver { s with seam := { s.seam with waiting := [] } }

/-- The internal port takes the frame that it would select from its classes (R385, R386): a copy that SPLIT places there is delivered
under R397. It crosses no balls, so its timestamp is open (log 84). -/
def State.selectInternal (s : State) : State :=
  match s.candidate 8 with
  | none => s
  | some f =>
    let x := s.sport 8
    let stamp := Config.freeNat s.free
    let s := { s.setSport 8 { x with classes := x.classes.set! f.cls ((x.classes.getD f.cls []).tail) } with free := s.free + 1 }
    let s := s.deliver 8 f.bytes none stamp
    match f.origin with
    | .queue q idx => s.txMark q idx none
    | _ => s

/-- FRAME_SELECT (R386, R388, R421): a port that is on selects, a port of the bridge only while the bridge runs. -/
def execFrameSelect (p : Fin 10) (s : State) : Out :=
  if s.flag (Reg.SEAM_PCTL p) Fld.SEAM_PCTL_EN = false ∨ (p ≠ 9 ∧ s.seamRuns = false) then .next s
  else if p = 8 then .next s.selectInternal
  else .next (s.selectFrame p)

/-! ### Reception (R379, R381) -/

/-- The VID and PCP of a frame at a port (R379). -/
def State.frameVlan (s : State) (p : Fin 10) (l : List Byte) : Nat × Nat :=
  let t := tci l
  let vid := if t % 4096 = 0 then s.fld (Reg.SEAM_PCTL p) Fld.SEAM_PCTL_PVID else t % 4096
  (vid, if tagged l then t / 2 ^ 13 else s.fld (Reg.SEAM_PCTL p) Fld.SEAM_PCTL_DPCP)

/-- A VLAN table entry. -/
def State.vlan (s : State) (vid : Nat) : Nat := s.seamWord (0xD0000 + 4 * vid) 0

/-- A frame leaves the bridge by egress port e (R381, R382): tag removed or kept, class full or not. -/
def State.forward (s : State) (e : Fin 10) (vid pcp : Nat) (l : List Byte) : State :=
  let dei := tci l / 2 ^ 12 % 2
  let l := if (s.vlan vid / 2 ^ 16).testBit e.val then untag l else withTag l (pcp * 2 ^ 13 + dei * 2 ^ 12 + vid)
  let c := s.pcpClass e pcp
  if s.classFull e c then s.pdrop e else s.place e c l .bridge

/-- A frame that passed its filters goes to the ports of `out` (R381, R397). -/
def State.sendOut (s : State) (p : Fin 10) (out vid pcp : Nat) (filter : Option Nat) (stamp : Nat) (l : List Byte) : State :=
  let s := (List.finRange 10).foldl (fun s e => if e.val < 8 && out.testBit e.val then s.forward e vid pcp l else s) s
  if out.testBit 8 then
    s.deliver p (if (s.vlan vid / 2 ^ 16).testBit 8 then untag l else withTag l (pcp * 2 ^ 13 + tci l / 2 ^ 12 % 2 * 2 ^ 12 + vid)) filter stamp
  else s

/-- A frame at a bridge port (R379 to R383). -/
def State.bridge (s : State) (p : Fin 10) (l : List Byte) (stamp : Nat) : State :=
  let v := s.frameVlan p l
  let s := s.seamRead (0xD0000 + 4 * v.1) 4
  let state := s.fld (Reg.SEAM_PCTL p) Fld.SEAM_PCTL_STATE
  let entry := s.vlan v.1
  let bad := entry / 2 ^ 31 == 0 || !entry.testBit p.val || state != 2
  let s := if !bad || state == 1 then (s.seamRead (fdbAt (fdbBucket (srcMac l) v.1) 0) 64).learn (srcMac l) v.1 p else s
  if bad then s.pdrop p
  else
    let member := entry % 2 ^ 9
    let s := s.seamRead (fdbAt (fdbBucket (dstMac l) v.1) 0) 64
    let hit := s.fdbFind (dstMac l) v.1
    let ports := if isGptp l || linkLocal l then 256
      else if dstMac l = 0xFFFFFFFFFFFF then member
      else match hit with
        | some o => s.seamWord o 2 % 2 ^ 9 &&& member
        | none => member
    let out := ports &&& (511 - 2 ^ p.val)
    let stream := hit.bind (fun o =>
      let f2 := s.seamWord o 2
      let f := f2 / 2 ^ 16 % 4096
      let w := s.seamWord (0x60000 + 32 * f) 0
      if f2 / 2 ^ 31 = 1 ∧ w / 2 ^ 31 = 1 ∧ w.testBit v.2 = true then some f else none)
    match stream with
    | some f =>
      match (s.seamRead (0x60000 + 32 * f) 32).filterFrame f l with
      | (some l, s) => s.sendOut p out v.1 v.2 (some f) stamp l
      | (none, s) => s
    | none => s.sendOut p out v.1 v.2 none stamp l

/-- FRAME_RECEIVE (R376, R379): a whole frame without its FCS, at a port that is on; its first bit crossed the balls `ago` fc before (R389).
A frame of port 9 reaches the receive queues only (R376) and has no timestamp: its words are open (log 84). -/
def execFrameReceive (p : Fin 10) (frame : List Byte) (ago : Nat) (upsets : Upsets) (s : State) : Out :=
  if s.flag (Reg.SEAM_PCTL p) Fld.SEAM_PCTL_EN = false ∨ p = 8 ∨ frame.length < 14 then .next s
  else
    let stamp := if p = 9 then Config.freeNat s.free else s.portStamp p ago
    let s := { s.strike upsets with free := s.free + 1 }
    if p = 9 then
      .next (if s.flag Reg.SEAM_RXDEF Fld.SEAM_RXDEF_EN then s.toRxQueueAfter false (s.fld Reg.SEAM_RXDEF Fld.SEAM_RXDEF_QUEUE) 9 0xFFF stamp frame
        else s.pdrop 9)
    else if s.flag Reg.SEAM_CTRL Fld.SEAM_CTRL_EN then .next (s.bridge p frame stamp)
    else .next s

/-- A port can run at a speed in its mode (R376). -/
def speedAllowed (p : Fin 10) (mode : Bool) (speed : Nat) : Bool :=
  if p.val < 2 then (if mode then speed != 0 else speed == 5)
  else if p.val < 8 then (if mode then speed < 3 else speed == 2)
  else p == 9 && speed < 3

/-- PORT_STATUS_CHANGE (R376, R388, R419): link, speed or VERIFIED of a port changes. -/
def execPortStatusChange (p : Fin 10) (link : Bool) (speed : Fin 6) (verified : Bool) (s : State) : Out :=
  let a := Reg.SEAM_PSTAT p
  let w : Word := BitVec.ofNat 32 (bit link * 2 ^ 31 + speed.val * 2 ^ 28 + bit (verified && p.val < 8) * 2 ^ 27)
  if s.reg a = w ∨ (link = true ∧ speedAllowed p (s.flag (Reg.SEAM_PCTL p) Fld.SEAM_PCTL_MODE) speed = false) then .next s
  else .next ((s.setReg a w).seamEvent p)

/-! ### The window -/

/-- A write to the filtering database (R380): ways 0–2 only while LEARN is 0. -/
def State.fdbWrite (s : State) (init a : Nat) (data : Word) : State :=
  if a / 16 % 4 ≠ 3 ∧ s.flag Reg.SEAM_CTRL Fld.SEAM_CTRL_LEARN = true then s else s.windowWrite init a data

/-- The bits of a table word that software can write (R7, R379 to R385, R417). -/
def seamMask (o : Nat) : Nat :=
  if 0x60000 ≤ o ∧ o < 0x80000 then
    (match o % 32 / 4 with | 0 => 0xDFFFFFFF | 1 => 0x9FFF03FF | 2 => 0x800007FF | _ => 0xFFFFFFFF)
  else if 0x80000 ≤ o ∧ o < 0xC0000 then
    (match o % 16 / 4 with | 1 => 0xEFFFFFFF | 2 => 0x8FFF01FF | _ => 0xFFFFFFFF)
  else if 0xC0000 ≤ o ∧ o < 0xC8000 then
    (match o % 16 / 4 with | 0 => 0xE01F01FF | 1 => 0x00FFFFFF | _ => 0xFFFFFFFF)
  else if 0xD0000 ≤ o ∧ o < 0xD4000 then 0x81FF01FF
  else if 0xD4000 ≤ o ∧ o < 0xD4800 then
    (match o % 32 / 4 with | 0 => 0x80000F7F | 4 => 0xFF | 5 => 0xFFFF | 7 => 0 | _ => 0xFFFFFFFF)
  else (match o % 16 / 4 with | 0 => 0xC0FFFFFF | _ => 0x00FFFFFF)

/-- A write to another table of the window. -/
def State.seamTable (s : State) (init a : Nat) (data : Word) : State :=
  let o := a - 0x10C00000
  let v := data.toNat &&& seamMask o
  if 0xC0000 ≤ o ∧ o < 0xC8000 ∧ o % 16 = 0 ∧ v / 2 ^ 16 % 32 = 0 then s.windowWrite init a (BitVec.ofNat 32 (v + 2 ^ 16))
  else if 0xD8000 ≤ o then (s.setMeter ((o - 0xD8000) / 16) (s.meterNow ((o - 0xD8000) / 16))).windowWrite init a (BitVec.ofNat 32 v)
  else s.windowWrite init a (BitVec.ofNat 32 v)

/-- A table of the window holds something at offset `o` (R421). -/
def seamTableAt (o : Nat) : Bool := (0x20000 ≤ o && o < 0xCC000) || (0xD0000 ≤ o && o < 0xD4800) || (0xD8000 ≤ o && o < 0xDC000)

/-- A write to SEAM_PTPCTL: holdover is measured from the moment EN becomes 1 (R392). -/
def State.ptpControl (s : State) (data hw : Word) : State :=
  let on := s.ptpOn
  let s := s.plainWrite Reg.SEAM_PTPCTL data hw
  if !on && s.ptpOn then { s with seam := { s.seam with syncFc := s.fc } } else s

/-- A write lands in the SEAM block. -/
def State.landSeam (s : State) (who : Who) (a : Nat) (data hw : Word) : State :=
  let o := a - 0x10C00000
  if 0x20000 ≤ o then
    if o < 0x40000 then s.queueWrite false ((o - 0x20000) / 16) (o % 16 / 4) data
    else if o < 0x60000 then s.queueWrite true ((o - 0x40000) / 16) (o % 16 / 4) data
    else if 0xC8000 ≤ o ∧ o < 0xCC000 then s.dispWrite a data
    else if seamTableAt o = false then s
    else if 0x80000 ≤ o ∧ o < 0xC0000 then s.fdbWrite who.id a (BitVec.ofNat 32 (data.toNat &&& seamMask o))
    else s.seamTable who.id a data
  else if a = Reg.SEAM_TCMD then s.tgCommand data
  else if a = Reg.SEAM_TXDB then s.qDoorbell false data
  else if a = Reg.SEAM_RXDB then s.qDoorbell true data
  else if a = Reg.SEAM_QCMD then s.qCommand data
  else if a = Reg.SEAM_PUB then s.publish data
  else if a = Reg.SEAM_PTPCTL then s.ptpControl data hw
  else if 0x1000 ≤ o ∧ o < 0x1200 ∧ o % 64 = 8 then s.gateWrite ((o - 0x1000) / 64) data
  else s.plainWrite a data hw

/-- A read of the SEAM block. -/
def State.readSeam (s : State) (who : Who) (a : Nat) (hw : Word) : State :=
  let o := a - 0x10C00000
  if seamTableAt o then s.windowRead who a
  else let r := s.plainRead a hw
       r.2.respondWord who r.1

end Sys2Proof.Machine
end

