-- ==== Sys2Proof/Machine/ShuOps.lean ====
section
/-! DEFINITION. Shuttle channels (R332 to R349): states, commands and the checks of a configuration. Readings and choices: log 69. -/

namespace Sys2Proof.Machine

/-- A channel. -/
def State.shu (s : State) (n : Fin 64) : Shu := s.shus[n.val]

/-- The state with one channel changed. -/
def State.setShu (s : State) (n : Fin 64) (x : Shu) : State := { s with shus := s.shus.set n.val x }

/-- A channel's state (R332). -/
def State.shuState (s : State) (n : Fin 64) : Nat := s.fld (Reg.SHU_STAT n) Fld.SHU_STAT_STATE

/-- A channel's state changed. -/
def State.setShuState (s : State) (n : Fin 64) (k : Nat) : State := s.setFld (Reg.SHU_STAT n) Fld.SHU_STAT_STATE k

/-- A transfer as the registers describe it (R339 to R341). -/
structure Xfer where
  src : Nat
  dst : Nat
  cnt : Nat
  mode : Nat
  chans : Nat
  esz : Nat
  planes : Nat
  stride : Nat
  pos : Nat
  coh : Bool
  deriving DecidableEq, Repr

/-- A channel's transfer. -/
def State.xfer (s : State) (n : Fin 64) : Xfer :=
  let c := s.reg (Reg.SHU_CTRL n)
  let g := s.reg (Reg.SHU_GEOM n)
  { src := s.reg64 (Reg.SHU_SRC n) (Reg.SHU_SRCH n), dst := s.reg64 (Reg.SHU_DST n) (Reg.SHU_DSTH n),
    cnt := (s.reg (Reg.SHU_CNT n)).toNat, mode := Fld.SHU_CTRL_MODE.get c, chans := Fld.SHU_GEOM_KM1.get g + 1,
    esz := Fld.SHU_GEOM_ESZ.get g + 1, planes := Fld.SHU_GEOM_PB.get g, stride := (s.reg (Reg.SHU_STR n)).toNat,
    pos := (s.reg (Reg.SHU_POS n)).toNat, coh := Fld.SHU_CTRL_COH.get c = 1 }

/-- The unit of the stream in bytes (R339). -/
def Xfer.unit (x : Xfer) : Nat :=
  match x.mode with
  | 0 => 1
  | 1 => x.esz
  | 2 => x.esz
  | _ => x.planes

/-- The length in bytes of the side that is not the stream, from its base to its last byte (R340, R341). -/
def Xfer.otherSpan (x : Xfer) : Nat :=
  if x.cnt = 0 then 0
  else match x.mode with
    | 0 => x.cnt
    | 1 => (x.chans - 1) * x.stride + x.cnt / x.chans
    | 2 => (x.chans - 1) * x.stride + x.cnt / x.chans
    | _ => (x.planes - 1) * x.stride + x.cnt / x.planes

/-- The stream is the source (R339). -/
def Xfer.streamIsSource (x : Xfer) : Bool := x.mode == 0 || x.mode == 2 || x.mode == 3

/-- Source and destination spans. -/
def Xfer.srcSpan (x : Xfer) : Nat := if x.streamIsSource then x.cnt else x.otherSpan

/-- The destination span. -/
def Xfer.dstSpan (x : Xfer) : Nat := if x.streamIsSource then x.otherSpan else x.cnt

/-- A range meets device register space (R15). -/
def inRegs (a n : Nat) : Bool := 0 < n && a < 0x11200000 && 0x10000000 < a + n

/-- A range lies wholly within device register space. -/
def whollyRegs (a n : Nat) : Bool := 0x10000000 ≤ a && a + n ≤ 0x11200000

/-- One side keeps the register-space rule (R337); a RESUME must find POS at a whole register, too (DEDUCED, log 69). -/
def Xfer.regSideOk (x : Xfer) (go : Bool) (a n : Nat) : Bool :=
  !inRegs a n || (whollyRegs a n && a % 4 == 0 && x.cnt % 4 == 0 && (go || x.pos % 4 == 0) && x.mode == 0)

/-- The checks of R342 for GO or RESUME, with the cause of the first that fails. -/
def Xfer.check (x : Xfer) (go : Bool) : Option Nat :=
  let shape := match x.mode with
    | 0 => true
    | 1 => x.cnt % (x.chans * x.esz) == 0 && x.cnt / x.chans ≤ x.stride
    | 2 => x.cnt % (x.chans * x.esz) == 0 && x.cnt / x.chans ≤ x.stride
    | _ => (x.planes == 2 || x.planes == 4 || x.planes == 8) && x.cnt % x.planes == 0 && x.cnt / x.planes ≤ x.stride
  let meet := x.src < x.dst + x.dstSpan && x.dst < x.src + x.srcSpan && 0 < x.cnt
  if !shape || x.pos % x.unit ≠ 0 || x.cnt < x.pos then some 4
  else if meet && (x.mode ≠ 0 || x.src < x.dst) then some 5
  else if !x.regSideOk go x.src x.srcSpan || !x.regSideOk go x.dst x.dstSpan then some 6
  else none

/-- A command or a write is ignored (R333, R334). -/
def State.shuIgnored (s : State) (n : Fin 64) : State := s.setFld (Reg.SHU_STAT n) Fld.SHU_STAT_WIGN 1

/-- A channel's error is shown and raised (R342, R347); a waiting SHUT completes (R48). -/
def State.shuFault (s : State) (n : Fin 64) (cause : Nat) : State :=
  ((s.setFlds (Reg.SHU_STAT n) [(Fld.SHU_STAT_ERR, 1), (Fld.SHU_STAT_CAUSE, cause)]).psqSignal (.shut n)).raise (257 + 2 * n.val)

/-- Writes of a channel have been issued and have not landed (R220, R344, R345). -/
def State.shuWaiting (s : State) (n : Fin 64) : Bool := s.writesOnWay (.shuttle n)

/-- A channel with no read in flight and nothing held. -/
def State.shuClear (s : State) (n : Fin 64) : State :=
  (s.letGo (.shuttle n)).setShu n { s.shu n with asked := [], held := [], out := [] }

/-- A start of a channel (R333, R342): GO from POS 0, RESUME from POS. -/
def State.shuBegin (s : State) (n : Fin 64) (go : Bool) : State :=
  match (s.xfer n).check go with
  | some c => s.shuFault n c
  | none =>
    let s := if go then s.setReg (Reg.SHU_POS n) 0 else s
    (s.setShu n { Shu.reset with after := s.shuWaiting n }).setShuState n 1

/-- GO (R333). -/
def State.shuGo (s : State) (n : Fin 64) : State := if s.shuState n = 0 then s.shuBegin n true else s.shuIgnored n

/-- RESUME (R333, R343). -/
def State.shuResume (s : State) (n : Fin 64) : State :=
  if s.shuState n = 0 ∨ s.shuState n = 3 then s.shuBegin n false else s.shuIgnored n

/-- PAUSE (R343): ignored once POS has reached CNT. -/
def State.shuPause (s : State) (n : Fin 64) : State :=
  if s.shuState n = 1 ∧ (s.xfer n).pos < (s.xfer n).cnt then s.setShuState n 2 else s.shuIgnored n

/-- ABORT (R345, R346): a done signalled in the same fc gives way to the abort, whose event is the one that done has raised; a DONE
left by an earlier transfer stays. -/
def State.shuAbort (s : State) (n : Fin 64) : State :=
  match s.shuState n with
  | 0 =>
    match (s.shu n).doneFc.filter (fun d => d.1 = s.fc) with
    | some d =>
      let done := s.flag (Reg.SHU_STAT n) Fld.SHU_STAT_DONE && d.2
      (s.setShu n { s.shu n with doneFc := none }).setFlds (Reg.SHU_STAT n) [(Fld.SHU_STAT_DONE, bit done), (Fld.SHU_STAT_ABORTED, 1)]
    | none => if s.flag (Reg.SHU_STAT n) Fld.SHU_STAT_DONE then s.setFld (Reg.SHU_STAT n) Fld.SHU_STAT_ABLATE 1 else s
  | 4 => s
  | _ => (s.shuClear n).setShuState n 4

/-- A write to SHU_CMDn: only the first of ABORT, PAUSE, GO and RESUME acts (R333). -/
def State.shuCommand (s : State) (n : Fin 64) (data : Word) : State :=
  if data.getLsbD 3 then s.shuAbort n
  else if data.getLsbD 1 then s.shuPause n
  else if data.getLsbD 0 then s.shuGo n
  else if data.getLsbD 2 then s.shuResume n
  else s

/-- SHU_GO (R333). -/
def execShuGo (_who : Who) (n : Fin 64) (s : State) : Out := .next (s.shuGo n)

/-- SHU_PAUSE (R343). -/
def execShuPause (_who : Who) (n : Fin 64) (s : State) : Out := .next (s.shuPause n)

/-- SHU_RESUME (R333). -/
def execShuResume (_who : Who) (n : Fin 64) (s : State) : Out := .next (s.shuResume n)

/-- SHU_ABORT (R345). -/
def execShuAbort (_who : Who) (n : Fin 64) (s : State) : Out := .next (s.shuAbort n)

/-- A write lands in the SHU block (R334). -/
def State.landShu (s : State) (_who : Who) (a : Nat) (data hw : Word) : State :=
  let o := a - 0x10500000
  if 0x1000 ≤ o then s
  else
    let n : Fin 64 := Fin.ofNat 64 (o / 64)
    if o % 64 = 0x24 then s.shuCommand n data
    else if o % 64 ≤ 0x20 then
      if s.shuState n = 0 ∨ s.shuState n = 3 then s.plainWrite a data hw else s.shuIgnored n
    else s.plainWrite a data hw

end Sys2Proof.Machine
end

