-- ==== Sys2Proof/Machine/Crypto.lean ====
section
/-! DEFINITION. SHA-256 and ECDSA over P-256 with the nonce of RFC 6979, which the island (R434, R446, R448) and the boot (R498)
use. -/

namespace Sys2Proof.Machine

/-! ### SHA-256 -/

/-- The greatest number of at most `n` further bits whose `k`-th power does not exceed `x`, given its higher bits `r`. -/
def rootBits (k x : Nat) : Nat → Nat → Nat
  | 0, r => r
  | n + 1, r => rootBits k x n (if (r + 2 ^ n) ^ k ≤ x then r + 2 ^ n else r)

/-- The first 32 bits of the fraction of the `k`-th root of `p`, from which SHA-256 takes its constants. -/
def rootFraction (k p : Nat) : Word := BitVec.ofNat 32 (rootBits k (p * 2 ^ (32 * k)) 35 0)

/-- The first 64 primes. -/
def shaPrimes : List Nat :=
  [2, 3, 5, 7, 11, 13, 17, 19, 23, 29, 31, 37, 41, 43, 47, 53, 59, 61, 67, 71, 73, 79,
   83, 89, 97, 101, 103, 107, 109, 113, 127, 131, 137, 139, 149, 151, 157, 163, 167, 173, 179, 181, 191, 193,
   197, 199, 211, 223, 227, 229, 233, 239, 241, 251, 257, 263, 269, 271, 277, 281, 283, 293, 307, 311]

/-- The round constants: of the cube roots. -/
def shaConstants : List Word := shaPrimes.map (rootFraction 3)

/-- The initial hash value: of the square roots of the first eight. -/
def shaStart : List Word := (shaPrimes.take 8).map (rootFraction 2)

/-- The exclusive or of a word's right rotations. -/
def rotations (w : Word) (l : List Nat) : Word := (l.map w.rotateRight).foldl (· ^^^ ·) 0

/-- One round with its constant: the eight working variables, and the sixteen schedule words from this round's on. -/
def shaRound (p : List Word × List Word) (k : Word) : List Word × List Word :=
  let v (n : Nat) : Word := p.1.getD n 0
  let m (n : Nat) : Word := p.2.getD n 0
  let choice := v 6 ^^^ (v 4 &&& (v 5 ^^^ v 6))
  let majority := (v 0 &&& (v 1 ||| v 2)) ||| (v 1 &&& v 2)
  let low := k + m 0 + v 7 + choice + rotations (v 4) [6, 11, 25]
  let later := m 0 + m 9 + (rotations (m 1) [7, 18] ^^^ m 1 >>> 3) + (rotations (m 14) [17, 19] ^^^ m 14 >>> 10)
  (((low + majority + rotations (v 0) [2, 13, 22]) :: p.1.take 3) ++ ((v 3 + low) :: (p.1.drop 4).take 3), p.2.drop 1 ++ [later])

/-- The hash value after one 64-byte block. -/
def shaBlock (h : List Word) (block : List Byte) : List Word :=
  let words := (List.range 16).map (fun n => BitVec.ofNat 32 (beNat ((block.drop (4 * n)).take 4)))
  ((shaConstants.foldl shaRound (h, words)).1.zip h).map (fun p => p.1 + p.2)

/-- The hash value after `n` whole blocks of a message. -/
def shaMessage (l : List Byte) : Nat → List Word
  | 0 => shaStart
  | n + 1 => shaBlock (shaMessage l n) (l.drop (64 * n))

/-- SHA-256. -/
def sha256 (l : List Byte) : List Byte :=
  let zeros := (119 - l.length % 64) % 64
  let p := l ++ [0x80] ++ List.replicate zeros 0 ++ beBytes 8 (8 * l.length)
  (shaMessage p (p.length / 64)).flatMap (fun w => beBytes 4 w.toNat)

/-- HMAC with SHA-256, for a key of at most 64 bytes. -/
def hmac (key msg : List Byte) : List Byte :=
  let k := key ++ List.replicate (64 - key.length) 0
  sha256 (k.map (· ^^^ 0x5C) ++ sha256 (k.map (· ^^^ 0x36) ++ msg))

/-! ### P-256 -/

/-- The field prime. -/
def p256P : Nat := 0xffffffff00000001000000000000000000000000ffffffffffffffffffffffff

/-- The group order. -/
def p256N : Nat := 0xffffffff00000000ffffffffffffffffbce6faada7179e84f3b9cac2fc632551

/-- The constant b of the curve. -/
def p256B : Nat := 0x5ac635d8aa3a93e7b3ebbd55769886bc651d06b0cc53b0f63bce3c3e27d2604b

/-- The base point. -/
def p256G : Nat × Nat :=
  (0x6b17d1f2e12c4247f8bce6e563a440f277037d812deb33a0f4a13945d898c296,
   0x4fe342e2fe1a7f9b8ee7eb4a7c0f9e162bce33576b315ececbb6406837bf51f5)

/-- b ^ e mod m, over the low `fuel` bits of e. -/
def powMod (m : Nat) : Nat → Nat → Nat → Nat
  | 0, _, _ => 1 % m
  | fuel + 1, b, e => let r := powMod m fuel (b * b % m) (e / 2)
                      if e % 2 = 1 then r * b % m else r

/-- The inverse modulo a prime of 256 bits. -/
def invMod (m a : Nat) : Nat := powMod m 256 (a % m) (m - 2)

/-- The difference modulo m of two residues. -/
def subMod (m a b : Nat) : Nat := (a + m - b % m) % m

/-- The sum of two points of the curve; `none` is the point at infinity. -/
def p256Add : Option (Nat × Nat) → Option (Nat × Nat) → Option (Nat × Nat)
  | none, q => q
  | p, none => p
  | some (x1, y1), some (x2, y2) =>
    if x1 = x2 ∧ (y1 + y2) % p256P = 0 then none
    else
      let l := if x1 = x2 then (3 * (x1 * x1 % p256P) + p256P - 3) * invMod p256P (2 * y1) % p256P
               else subMod p256P y2 y1 * invMod p256P (subMod p256P x2 x1) % p256P
      let x := subMod p256P (subMod p256P (l * l % p256P) x1) x2
      some (x, subMod p256P (l * subMod p256P x1 x % p256P) y1)

/-- The multiple k · P, over the low `fuel` bits of k. -/
def p256Mul : Nat → Nat → Option (Nat × Nat) → Option (Nat × Nat)
  | 0, _, _ => none
  | fuel + 1, k, p =>
    let r := p256Mul fuel (k / 2) (p256Add p p)
    if k % 2 = 1 then p256Add r p else r

/-- The public key of a private key, as x then y. -/
def publicKey (d : Nat) : List Byte :=
  match p256Mul 256 d (some p256G) with
  | some (x, y) => beBytes 32 x ++ beBytes 32 y
  | none => List.replicate 64 0

/-- The signature with a nonce, or nothing where r or s is 0. -/
def signWith (d z k : Nat) : Option (Nat × Nat) :=
  match p256Mul 256 k (some p256G) with
  | some (x, _) =>
    let r := x % p256N
    let s := invMod p256N k * ((z + r * d) % p256N) % p256N
    if r = 0 ∨ s = 0 then none else some (r, s)
  | none => none

/-- The nonces that RFC 6979 tries in turn, from the state K and V; the first that gives a signature is used. -/
def rfcTry (d z : Nat) : Nat → List Byte → List Byte → Nat × Nat
  | 0, _, _ => (0, 0)
  | fuel + 1, kk, v =>
    let v := hmac kk v
    let k := beNat v
    match if 0 < k ∧ k < p256N then signWith d z k else none with
    | some r => r
    | none => let kk := hmac kk (v ++ [0])
              rfcTry d z fuel kk (hmac kk v)

/-- The ECDSA signature of the hash `h` with private key `d`, r then s (R434). A nonce is turned away with a probability of about
2⁻³², so 64 tries never run out. -/
def ecdsaSign (d : Nat) (h : List Byte) : List Byte :=
  let z := beNat h % p256N
  let x := beBytes 32 d ++ beBytes 32 z
  let v0 := List.replicate 32 (1 : Byte)
  let k1 := hmac (List.replicate 32 0) (v0 ++ [0] ++ x)
  let v1 := hmac k1 v0
  let k2 := hmac k1 (v1 ++ [1] ++ x)
  let r := rfcTry d z 64 k2 (hmac k2 v1)
  beBytes 32 r.1 ++ beBytes 32 r.2

/-- The signature `sig` of the hash `h` verifies under the public key `q`. -/
def ecdsaVerify (q : List Byte) (h sig : List Byte) : Bool :=
  let x := beNat (q.take 32)
  let y := beNat ((q.drop 32).take 32)
  let r := beNat (sig.take 32)
  let t := beNat ((sig.drop 32).take 32)
  let onCurve := x < p256P && y < p256P && y * y % p256P == (x * x % p256P * x + (p256P - 3) * x + p256B) % p256P
  let w := invMod p256N t
  let z := beNat h % p256N
  onCurve && 0 < r && r < p256N && 0 < t && t < p256N &&
  (match p256Add (p256Mul 256 (z * w % p256N) (some p256G)) (p256Mul 256 (r * w % p256N) (some (x, y))) with
   | some (a, _) => a % p256N == r
   | none => false)

end Sys2Proof.Machine
end

