-- ==== Sys2Proof/Machine/Compose.lean ====
section
/-! DEFINITION. Planes, sprites and composition (R268 to R280, R286, R296 to R298): which requests a line needs, and its pixels. -/

namespace Sys2Proof.Machine

/-- A pixel of a plane: R, G, B and A of 8 bits. -/
structure Px where
  r : Nat
  g : Nat
  b : Nat
  a : Nat
  deriving DecidableEq, Repr

/-- The ARGB8888 layout (R268). -/
def argb (w : Nat) : Px := ⟨w / 2 ^ 16 % 256, w / 2 ^ 8 % 256, w % 256, w / 2 ^ 24 % 256⟩

/-- Five bits widened to eight. -/
def widen5 (c : Nat) : Nat := c * 8 + c / 4

/-- Bits per pixel of a BPP code (R268). -/
def bppBits (bpp : Nat) : Nat := 4 * 2 ^ bpp

/-- The format of a plane or sprite: BPP, F16, TRANS0, palette and palette bank. -/
structure PxFormat where
  bpp : Nat
  f16 : Nat
  trans0 : Nat
  pal : Nat
  pbank : Nat
  deriving DecidableEq, Repr

/-- An entry of the active palette bank (R269). -/
def State.palette (s : State) (p : Fin 4) (q i : Nat) : Nat :=
  (s.reg (pipeBase p + 0x20000 + s.fld (Reg.DP_STAT p) Fld.DP_STAT_PALB * 0x4000 + q * 0x400 + 4 * i)).toNat

/-- The colour that a stored pixel delivers (R268). -/
def State.colour (s : State) (p : Fin 4) (f : PxFormat) (v : Nat) : Px :=
  let indexed (i : Nat) : Px :=
    let c := argb (s.palette p f.pal i)
    if f.trans0 = 1 ∧ v = 0 then { c with a := 0 } else c
  match f.bpp with
  | 0 => indexed (16 * f.pbank + v)
  | 1 => indexed v
  | 2 =>
    if f.f16 = 0 then
      let g := v / 32 % 64
      ⟨widen5 (v / 2048), g * 4 + g / 16, widen5 (v % 32), 255⟩
    else ⟨widen5 (v / 1024 % 32), widen5 (v / 32 % 32), widen5 (v % 32), if v / 2 ^ 15 = 1 then 255 else 0⟩
  | _ => argb v

/-- A byte of the lines fetched. -/
def bufByte (buf : List (Nat × List Byte)) (a : Nat) : Byte :=
  match buf.find? (fun l => l.1 == a / 64) with
  | some l => l.2.getD (a % 64) 0
  | none => 0

/-- The stored pixel with index `i` of a row at `a` (R268). -/
def rowPixel (buf : List (Nat × List Byte)) (a bpp i : Nat) : Nat :=
  match bpp with
  | 0 => (bufByte buf (a + i / 2)).toNat / 16 ^ (i % 2) % 16
  | _ =>
    let n := bppBits bpp / 8
    leNat ((List.range n).map (fun k => bufByte buf (a + n * i + k)))

/-- An address of 40 bits. -/
def addr40 (a : Nat) : Nat := a % 2 ^ 40

/-- Tile plane geometry on a line: map entry address and position within the tile, for a screen pixel (R270). -/
structure TileSpot where
  entry : Nat
  tx : Nat
  ty : Nat
  deriving DecidableEq, Repr

/-- The spot of tile plane t that a screen pixel shows, inside the plane's window (R270). -/
def tileSpot (cfg : List (Nat × Word)) (p t x y : Nat) : Option TileSpot :=
  let c := cfgReg cfg p (Reg.DP_TCTL p t)
  let w0 := cfgReg cfg p (Reg.DP_TWIN0 p t)
  let w1 := cfgReg cfg p (Reg.DP_TWIN1 p t)
  let sc := cfgReg cfg p (Reg.DP_TSCR p t)
  let side := if Fld.DP_TCTL_T16.get c = 1 then 16 else 8
  let mapw := 2 ^ Fld.DP_TCTL_MAPWL.get c
  let maph := 2 ^ Fld.DP_TCTL_MAPHL.get c
  if Fld.DP_TCTL_EN.get c = 1 ∧ Fld.DP_TWIN0_WX0.get w0 ≤ x ∧ x ≤ Fld.DP_TWIN1_WX1.get w1 ∧
     Fld.DP_TWIN0_WY0.get w0 ≤ y ∧ y ≤ Fld.DP_TWIN1_WY1.get w1 then
    let mx := (x + Fld.DP_TSCR_SCX.get sc) % (mapw * side)
    let my := (y + Fld.DP_TSCR_SCY.get sc) % (maph * side)
    some ⟨addr40 (cfgAddr cfg p (Reg.DP_TMAPL p t) (Reg.DP_TMAPH p t) + 4 * (my / side * mapw + mx / side)), mx % side, my % side⟩
  else none

/-- The address of the row of a tile that a spot shows, its column, and its palette bank, unless the entry hides it (R270, R271). -/
def tileRow (cfg : List (Nat × Word)) (p t : Nat) (buf : List (Nat × List Byte)) (sp : TileSpot) : Option (Nat × Nat × Nat) :=
  let c := cfgReg cfg p (Reg.DP_TCTL p t)
  let side := if Fld.DP_TCTL_T16.get c = 1 then 16 else 8
  let bits := bppBits (Fld.DP_TCTL_BPP.get c)
  let ent := leNat ((List.range 4).map (fun k => bufByte buf (sp.entry + k)))
  if ent / 2 ^ 22 % 2 = 1 then none
  else
    let tx := if ent / 2 ^ 20 % 2 = 1 then side - 1 - sp.tx else sp.tx
    let ty := if ent / 2 ^ 21 % 2 = 1 then side - 1 - sp.ty else sp.ty
    some (addr40 (cfgAddr cfg p (Reg.DP_TTILL p t) (Reg.DP_TTILH p t) + ent % 65536 * (side * side * bits / 8) + ty * (side * bits / 8)),
      tx, ent / 2 ^ 16 % 16)

/-- Tile plane t at a screen pixel. -/
def State.tilePixel (s : State) (p : Fin 4) (w : LineWork) (t x : Nat) : Option Px :=
  let c := cfgReg w.cfg p (Reg.DP_TCTL p t)
  match tileSpot w.cfg p t x w.line with
  | none => none
  | some sp => match tileRow w.cfg p t w.buf sp with
    | none => none
    | some (a, tx, pb) =>
      let f : PxFormat := ⟨Fld.DP_TCTL_BPP.get c, Fld.DP_TCTL_F16.get c, Fld.DP_TCTL_TRANS0.get c, Fld.DP_TCTL_PAL.get c, pb⟩
      some (s.colour p f (rowPixel w.buf a f.bpp tx))

/-- The bitmap's row on a line: its address, where the bitmap covers the line (R272). -/
def bitmapRow (cfg : List (Nat × Word)) (p y : Nat) : Option Nat :=
  let c := cfgReg cfg p (Reg.DP_BCTL p)
  let pos := cfgReg cfg p (Reg.DP_BPOS p)
  let size := cfgReg cfg p (Reg.DP_BSIZE p)
  let y0 := Fld.DP_BPOS_Y.get pos
  if Fld.DP_BCTL_EN.get c = 1 ∧ y0 ≤ y ∧ y ≤ y0 + Fld.DP_BSIZE_HM1.get size then
    some (addr40 (cfgAddr cfg p (Reg.DP_BBASEL p) (Reg.DP_BBASEH p) + (y - y0) * (Fld.DP_BPITCH_PITCH.get (cfgReg cfg p (Reg.DP_BPITCH p)) * 64)))
  else none

/-- The bitmap plane at a screen pixel (R272). -/
def State.bitmapPixel (s : State) (p : Fin 4) (w : LineWork) (x : Nat) : Option Px :=
  let c := cfgReg w.cfg p (Reg.DP_BCTL p)
  let x0 := Fld.DP_BPOS_X.get (cfgReg w.cfg p (Reg.DP_BPOS p))
  match bitmapRow w.cfg p w.line with
  | none => none
  | some a =>
    if x0 ≤ x ∧ x ≤ x0 + Fld.DP_BSIZE_WM1.get (cfgReg w.cfg p (Reg.DP_BSIZE p)) then
      let f : PxFormat := ⟨Fld.DP_BCTL_BPP.get c, Fld.DP_BCTL_F16.get c, Fld.DP_BCTL_TRANS0.get c, Fld.DP_BCTL_PAL.get c, 0⟩
      some (s.colour p f (rowPixel w.buf a f.bpp (x - x0)))
    else none

/-! ### Sprites -/

/-- Word i of a sprite descriptor. -/
def spriteWord (d : List Word) (i : Nat) : Nat := (d.getD i 0).toNat

/-- The top row and left column of a sprite (R273). -/
def spritePos (d : List Word) : Int × Int := (signed 16 (spriteWord d 2 % 65536), signed 16 (spriteWord d 2 / 65536))

/-- A sprite covers a line (R274). -/
def spriteCovers (d : List Word) (y : Nat) : Bool :=
  let y0 := (spritePos d).2
  spriteWord d 0 / 2 ^ 31 == 1 && y0 ≤ y && (y : Int) ≤ y0 + (spriteWord d 3 / 2 ^ 16 % 1024 : Nat)

/-- The address of a sprite's row on a line (R273). -/
def spriteRow (d : List Word) (y : Nat) : Nat :=
  let bits := bppBits (spriteWord d 0 / 2 ^ 26 % 4)
  let hm1 := spriteWord d 3 / 2 ^ 16 % 1024
  let w := spriteWord d 3 % 1024 + 1
  let row := ((y : Int) - (spritePos d).2).toNat
  let row := if spriteWord d 0 / 2 ^ 29 % 2 = 1 then hm1 - row else row
  addr40 (spriteWord d 0 % 256 * 2 ^ 32 + spriteWord d 1 / 8 * 8 + row * ((w * bits + 63) / 64 * 8))

/-- The stored column that a sprite shows at screen column x, where it covers it. -/
def spriteCol (d : List Word) (x : Nat) : Option Nat :=
  let c := (x : Int) - (spritePos d).1
  let wm1 := spriteWord d 3 % 1024
  if 0 ≤ c ∧ c ≤ (wm1 : Int) then some (if spriteWord d 0 / 2 ^ 30 % 2 = 1 then wm1 - c.toNat else c.toNat) else none

/-- A sprite at a screen pixel: its colour. -/
def State.spritePixel (s : State) (p : Fin 4) (w : LineWork) (d : List Word) (x : Nat) : Option Px :=
  match spriteCol d x with
  | none => none
  | some i =>
    let w0 := spriteWord d 0
    let f : PxFormat := ⟨w0 / 2 ^ 26 % 4, w0 / 2 ^ 25 % 2, w0 / 2 ^ 28 % 2, w0 / 2 ^ 22 % 8, w0 / 2 ^ 18 % 16⟩
    some (s.colour p f (rowPixel w.buf (spriteRow d w.line) f.bpp i))

/-- The descriptors of the active sprite bank that cover a line, in ascending index order (R274). -/
def State.covering (s : State) (p : Fin 4) (y : Nat) : List (List Word) :=
  let base := pipeBase p + 0x30000 + s.fld (Reg.DP_STAT p) Fld.DP_STAT_SPRB * 0x8000
  ((List.range 2048).map (fun i => (List.range 4).map (fun k => s.reg (base + 16 * i + 4 * k)))).filter (fun d => spriteCovers d y)

/-! ### The requests of a line -/

/-- A list with each run of equal neighbours reduced to one. -/
def runs : List Nat → List Nat
  | [] => []
  | [a] => [a]
  | a :: b :: t => if a = b then runs (b :: t) else a :: runs (b :: t)

/-- The 64-byte lines that `n` bytes at `a` occupy. -/
def linesOf (a n : Nat) : List Nat := if n = 0 then [] else (List.range ((a % 64 + n + 63) / 64)).map (fun i => a / 64 + i)

/-- The tile-map requests of a line (R261, R301), as line numbers. -/
def mapRequests (cfg : List (Nat × Word)) (p y hact : Nat) : List Nat :=
  (List.range 4).flatMap (fun t => runs ((List.range hact).filterMap (fun x => (tileSpot cfg p t x y).map (fun sp => sp.entry / 64))))

/-- The tile-data requests of a line: one for each tile occurrence that is not hidden. -/
def tileRequests (cfg : List (Nat × Word)) (p y hact : Nat) (buf : List (Nat × List Byte)) : List Nat :=
  (List.range 4).flatMap (fun t =>
    let c := cfgReg cfg p (Reg.DP_TCTL p t)
    let side := if Fld.DP_TCTL_T16.get c = 1 then 16 else 8
    let n := side * bppBits (Fld.DP_TCTL_BPP.get c) / 8
    let first (x : Nat) (sp : TileSpot) : Bool := sp.tx == 0 || (x == 0 || (tileSpot cfg p t (x - 1) y).isNone)
    (List.range hact).flatMap (fun x => match tileSpot cfg p t x y with
      | some sp => if first x sp then (match tileRow cfg p t buf sp with
          | some (a, _, _) => linesOf a n
          | none => []) else []
      | none => []))

/-- The bitmap requests of a line. -/
def bitmapRequests (cfg : List (Nat × Word)) (p y hact : Nat) : List Nat :=
  let bits := bppBits (Fld.DP_BCTL_BPP.get (cfgReg cfg p (Reg.DP_BCTL p)))
  let x0 := Fld.DP_BPOS_X.get (cfgReg cfg p (Reg.DP_BPOS p))
  let n := min (Fld.DP_BSIZE_WM1.get (cfgReg cfg p (Reg.DP_BSIZE p)) + 1) (hact - x0)
  match bitmapRow cfg p y with
  | some a => linesOf a (n * bits / 8)
  | none => []

/-- The image requests of a sprite on a line: the columns of the active area only (R274). -/
def spriteRequests (y hact : Nat) (d : List Word) : List Nat :=
  let bits := bppBits (spriteWord d 0 / 2 ^ 26 % 4)
  let cols := (List.range hact).filterMap (spriteCol d)
  match cols.foldl (fun m i => match m with
      | none => some (i, i)
      | some (a, b) => some (min a i, max b i)) none with
  | none => []
  | some (a, b) => linesOf (spriteRow d y + a * bits / 8) ((b * bits + bits - 1) / 8 - a * bits / 8 + 1)

/-- The requests of a line that follow its tile maps, in the order of R261. -/
def dataRequests (w : LineWork) (p hact : Nat) : List Nat :=
  tileRequests w.cfg p w.line hact w.buf ++ bitmapRequests w.cfg p w.line hact ++ w.sprites.flatMap (spriteRequests w.line hact)

/-! ### Blending and the output stage -/

/-- scale (R277). -/
def scale (a b : Nat) : Nat := (a * b + 127) / 255

/-- blend of one component (R277). -/
def blend (add : Bool) (acc w a : Nat) : Nat :=
  if add then min (acc + (w * a + 127) / 255) 4095 else (w * a + acc * (255 - a) + 127) / 255

/-- Entry i of a table of the active gamma bank (R278): tables 0–2 pre-blend, 4–6 post-blend. -/
def State.gamma (s : State) (p : Fin 4) (tab i : Nat) : Nat :=
  (s.reg (pipeBase p + 0x10000 + s.fld (Reg.DP_STAT p) Fld.DP_STAT_GAMB * 0x8000 + tab * 0x1000 + 4 * i)).toNat

/-- The working value of a 10-bit component i (R275). -/
def State.working (s : State) (p : Fin 4) (i c10 : Nat) : Nat :=
  if largePipe p && s.actFld p (Reg.DP_CSC p) Fld.DP_CSC_PREGAM == 1 then s.gamma p i c10 % 4096 else c10 * 4 + c10 / 256

/-- The working value of an 8-bit component. -/
def State.working8 (s : State) (p : Fin 4) (i c8 : Nat) : Nat := s.working p i (c8 * 4 + c8 / 64)

/-- A pixel blended over working values (R276, R277). -/
def State.blendPx (s : State) (p : Fin 4) (add : Bool) (a : Nat) (c : Px) (acc : Nat × Nat × Nat) : Nat × Nat × Nat :=
  (blend add acc.1 (s.working8 p 0 c.r) a, blend add acc.2.1 (s.working8 p 1 c.g) a, blend add acc.2.2 (s.working8 p 2 c.b) a)

/-- The plane q of the six (R276) blended at column x: tile planes 0–3, the bitmap, the sprites. -/
def State.planeOver (s : State) (p : Fin 4) (w : LineWork) (x q : Nat) (acc : Nat × Nat × Nat) : Nat × Nat × Nat :=
  if q = 5 then
    let sc := cfgReg w.cfg p (Reg.DP_SCTL p)
    w.sprites.foldl (fun acc d => match s.spritePixel p w d x with
      | some c =>
        let a := scale (scale c.a (spriteWord d 0 / 256 % 256)) (Fld.DP_SCTL_ALPHA.get sc)
        s.blendPx p (Fld.DP_SCTL_ADD.get sc == 1) a c acc
      | none => acc) acc
  else
    let ctl := if q = 4 then cfgReg w.cfg p (Reg.DP_BCTL p) else cfgReg w.cfg p (Reg.DP_TCTL p q)
    match (if q = 4 then s.bitmapPixel p w x else s.tilePixel p w q x) with
    | some c => s.blendPx p (Fld.DP_TCTL_ADD.get ctl == 1) (scale c.a (Fld.DP_TCTL_ALPHA.get ctl)) c acc
    | none => acc

/-! ### The appliqué plane -/

/-- Word i of the accepted descriptor. -/
def Pipe.aplWord (x : Pipe) (i : Nat) : Nat := (x.apl.getD i 0).toNat

/-- The appliqué row that a line shows: its offset in the store and its length in bytes (R296, R298). -/
def Pipe.aplRow (x : Pipe) (y : Nat) : Option (Nat × Nat) :=
  let y0 := x.aplWord 1 / 2 ^ 16 % 8192
  let hm1 := x.aplWord 2 / 2 ^ 16 % 8192
  let bits := 2 * 2 ^ (x.aplWord 0 / 2 % 4)
  if x.aplWord 0 % 2 = 1 ∧ y0 ≤ y ∧ y ≤ y0 + hm1 then
    some ((x.aplWord 3 / 64 % 2 ^ 15 * 64 + (y - y0) * (x.aplWord 4 % 65536 * 64)) % 2 ^ 21, ((x.aplWord 2 % 8192 + 1) * bits + 7) / 8)
  else none

/-- The appliqué pixel at column x of the line whose row is held (R298). -/
def Pipe.aplPixel (x : Pipe) (w : LineWork) (col : Nat) : Option Px :=
  let x0 := x.aplWord 1 % 8192
  let bits := 2 * 2 ^ (x.aplWord 0 / 2 % 4)
  if (x.aplRow w.line).isSome ∧ x0 ≤ col ∧ col ≤ x0 + x.aplWord 2 % 8192 then
    let i := col - x0
    let v := (w.apRow.getD (i * bits / 8) 0).toNat / 2 ^ (i * bits % 8) % 2 ^ bits
    some (argb (x.aplPal.getD v 0).toNat)
  else none

/-- A coefficient of the matrix of a small pipe, signed (R279). -/
def State.mtx (s : State) (p : Fin 4) (k : Nat) : Int := signed 16 (s.act p (Reg.DP_MTXC p k)).toNat

/-- The output value of component i from working values (R278, R279). -/
def State.outputValue (s : State) (p : Fin 4) (i : Nat) (w : Nat × Nat × Nat) : Nat :=
  let wi := if i = 0 then w.1 else if i = 1 then w.2.1 else w.2.2
  let csc := s.act p (Reg.DP_CSC p)
  if largePipe p then
    if Fld.DP_CSC_POSTGAM.get csc = 1 then s.gamma p (4 + i) (wi / 4) % 1024 else wi / 4
  else if Fld.DP_CSC_MTX.get csc = 1 then
    let sum := s.mtx p (3 * i) * w.1 + s.mtx p (3 * i + 1) * w.2.1 + s.mtx p (3 * i + 2) * w.2.2 + 2048
    let v := Int.fdiv sum 4096 + signed 14 (s.act p (Reg.DP_MTXO p i)).toNat
    (clampInt 0 1023 (Int.fdiv v 4)).toNat
  else wi / 4

/-- The three 10-bit components of a register, as working values. -/
def State.background (s : State) (p : Fin 4) (c : Word) : Nat × Nat × Nat :=
  (s.working p 0 (Fld.DP_BGCOL_R.get c), s.working p 1 (Fld.DP_BGCOL_G.get c), s.working p 2 (Fld.DP_BGCOL_B.get c))

/-- One pixel of a line as the output word o_R << 20 | o_G << 10 | o_B (R276, R288, R303). -/
def State.pixelWord (s : State) (p : Fin 4) (w : LineWork) (x : Nat) : Word :=
  let base := s.background p (if w.underrun then s.act p (Reg.DP_UCOL p) else s.act p (Reg.DP_BGCOL p))
  let z := (s.act p (Reg.DP_ZORDER p)).toNat
  let acc := if w.underrun then base else
    (List.range 6).foldl (fun acc d =>
      match (List.range 6).find? (fun q => z / 8 ^ q % 8 == d) with
      | some q => s.planeOver p w x q acc
      | none => acc) base
  let acc := match (s.pipe p).aplPixel w x with
    | some c => s.blendPx p false c.a c acc
    | none => acc
  BitVec.ofNat 32 (s.outputValue p 0 acc * 2 ^ 20 + s.outputValue p 1 acc * 2 ^ 10 + s.outputValue p 2 acc)

/-- The line in composition is composed up to column `n`. -/
def State.composeTo (s : State) (p : Fin 4) (n : Nat) : State :=
  match (s.pipe p).cur with
  | none => s
  | some w =>
    let k := w.out.length
    let more := (List.range (n - k)).map (fun i => s.pixelWord p w (k + i))
    s.setPipe p { s.pipe p with cur := some { w with out := w.out ++ more } }

/-- The bytes that writeback stores for one output word (R286). -/
def writebackBytes (fmt : Nat) (o : Word) : List Byte :=
  let r := o.toNat / 2 ^ 20 % 1024
  let g := o.toNat / 2 ^ 10 % 1024
  let b := o.toNat % 1024
  match fmt with
  | 1 => leBytes 2 (r / 32 * 2048 + g / 16 * 32 + b / 32)
  | 2 => leBytes 4 (r * 2 ^ 20 + g * 2 ^ 10 + b)
  | _ => leBytes 4 (r / 4 * 2 ^ 16 + g / 4 * 2 ^ 8 + b / 4)

/-- The four bytes of an output word, carried into a signature (R288). -/
def signWords (c : Word) (l : List Word) : Word := l.foldl (fun c w => crcBytes c (leBytes 4 w.toNat)) c

/-- The part of a line that a region covers (R310). -/
def regionPart (cfg : List (Nat × Word)) (p r y : Nat) (l : List Word) : List Word :=
  let rx := cfgReg cfg p (Reg.DP_RX p r)
  let ry := cfgReg cfg p (Reg.DP_RY p r)
  let x0 := Fld.DP_RX_X0.get rx
  if Fld.DP_RY_Y0.get ry ≤ y ∧ y ≤ Fld.DP_RY_Y1.get ry then (l.take (Fld.DP_RX_X1.get rx + 1)).drop x0 else []

/-- The rest of a frame's writeback is abandoned (R287). -/
def State.abandonWriteback (s : State) (p : Fin 4) : State :=
  ((s.setPipe p { s.pipe p with wbOn := false, wbPend := false }).setFld (Reg.DP_WBSTAT p) Fld.DP_WBSTAT_OVF 1).pipeEvent p 8

/-- The line in composition ends: its last pixels are composed, the signatures take it, and a frame being written takes its row
(R286, R288, R310). A row that the fabric refuses or holds ends the frame's writeback as a full queue does (R21; DEDUCED, log 80). -/
def State.finishLine (s : State) (p : Fin 4) : State :=
  let s := s.composeTo p (s.hact p)
  match (s.pipe p).cur with
  | none => s
  | some w =>
    let x := s.pipe p
    let regions := x.regions.mapIdx (fun r g => { g with crc := signWords g.crc (regionPart x.active p r w.line w.out) })
    let s := s.setPipe p { x with cur := none, last := w.out, crc := signWords x.crc w.out, regions := regions }
    if x.wbOn then
      let c := s.act p (Reg.DP_WBCTL p)
      let b := s.fld (Reg.DP_WBSTAT p) Fld.DP_WBSTAT_NEXT
      let a := cfgAddr x.active p (Reg.DP_WBAL p b) (Reg.DP_WBAH p b) + w.line * (Fld.DP_WBCTL_PITCH.get c * 64)
      match s.engineWrites (.pipe p) false (addr40 a) (w.out.flatMap (writebackBytes (Fld.DP_WBCTL_FMT.get c))) with
      | (.refused _ _, s) => s.abandonWriteback p
      | (.held, _) => s.abandonWriteback p
      | (_, s) => s
    else s

end Sys2Proof.Machine
end

