-- ==== Sys2Proof/Machine/LineList.lean ====
section
/-! DEFINITION. The line list engine (R305 to R309). Readings and choices: log 34. -/

namespace Sys2Proof.Machine

/-- The index of a position within a pass (R306). -/
def State.passIndex (s : State) (p : Fin 4) (line pixel : Nat) : Nat :=
  (line + s.vtot p - s.vact p) % s.vtot p * s.htot p + pixel

/-- The line in which the fetch of line `l` starts (R300). -/
def State.fetchLine (s : State) (p : Fin 4) (l : Nat) : Nat := if l = 0 then s.vtot p - 1 else l - 1

/-- A position lies before the raster's next point, or at it where instructions there come first (R308): a fetch sees what its
pixel writes. -/
def State.beforeNext (s : State) (p : Fin 4) (i : Nat) : Bool :=
  match (s.pipe p).next with
  | .latch => i < s.vtot p * s.htot p
  | .fetch l => i ≤ s.passIndex p (s.fetchLine p l) 0
  | .compose l => i ≤ s.passIndex p (s.fetchLine p l) (s.htot p - 16)
  | .frameEnd => i < (s.vtot p - s.vact p) * s.htot p

/-- The pixel that the engine comes to next: the position's own where it is still to come, as after a frame end or a repeated line, or in a genlock
hold of it, where pixel cycles go on (R266); else the one after. -/
def State.nextPixel (s : State) (p : Fin 4) : Nat × Nat :=
  let x := s.pipe p
  if x.fresh || x.hold then (x.line, x.pixel)
  else if x.pixel + 1 < s.htot p then (x.line, x.pixel + 1) else ((x.line + 1) % s.vtot p, 0)

/-- The engine's state (LLSTAT.STATE). -/
def State.llState (s : State) (p : Fin 4) : Nat := s.fld (Reg.DP_LLSTAT p) Fld.DP_LLSTAT_STATE

/-- The instruction executing or waiting (LLSTAT.PC). -/
def State.llPc (s : State) (p : Fin 4) : Nat := s.fld (Reg.DP_LLSTAT p) Fld.DP_LLSTAT_PC

/-- The active line list bank. -/
def State.llBank (s : State) (p : Fin 4) : Nat := s.actFld p (Reg.DP_LLCTL p) Fld.DP_LLCTL_BANK

/-- The address of instruction i of the active bank (R305). -/
def State.llAddr (s : State) (p : Fin 4) (i : Nat) : Nat := pipeBase p + 0x50000 + s.llBank p * 0x4000 + 8 * i

/-- A word of the instruction at the engine's pc. -/
def State.llWord (s : State) (p : Fin 4) (k : Nat) : Nat := (s.reg (s.llAddr p (s.llPc p) + 4 * k)).toNat

/-- The OP of the instruction at the engine's pc. -/
def State.llOp (s : State) (p : Fin 4) : Nat := s.llWord p 0 / 2 ^ 28

/-- The repetition the engine is in, or 0 (R307). -/
def State.llRep (s : State) (p : Fin 4) : Nat := ((s.pipe p).rep.map (fun r => r.j)).getD 0

/-- An engine error (R309). -/
def State.llError (s : State) (p : Fin 4) (cause : Nat) : State :=
  let s := s.setFld (Reg.DP_ISTAT p) Fld.DP_ISTAT_LLERR 1
  (s.setFld (Reg.DP_LLSTAT p) Fld.DP_LLSTAT_CAUSE cause).pipeEvent p 15

/-- The pass ends (R307). -/
def State.llStop (s : State) (p : Fin 4) : State :=
  (s.setPipe p { s.pipe p with rep := none, target := none }).setFld (Reg.DP_LLSTAT p) Fld.DP_LLSTAT_STATE 0

/-- The engine goes on at instruction `n`; passing 1,023 ends the pass with cause 4 (R309). -/
def State.llGoto (s : State) (p : Fin 4) (n : Nat) : State :=
  if 1023 < n then (s.llError p 4).llStop p
  else s.setFlds (Reg.DP_LLSTAT p) [(Fld.DP_LLSTAT_STATE, 2), (Fld.DP_LLSTAT_PC, n)]

/-- The engine goes on after the instruction at its pc, within a REP body or past it (R307). -/
def State.llNext (s : State) (p : Fin 4) : State :=
  let x := s.pipe p
  let n := s.llPc p + 1
  match x.rep with
  | none => s.llGoto p n
  | some r =>
    if n ≤ r.last then s.llGoto p n
    else if r.j + 1 < r.count then (s.setPipe p { x with rep := some { r with j := r.j + 1 } }).llGoto p r.first
    else (s.setPipe p { x with rep := none }).llGoto p n

/-- The position at which the engine executes its next instruction: the one awaited, or the following pxc. -/
def State.llPosition (s : State) (p : Fin 4) : Option (Nat × Nat) :=
  let x := s.pipe p
  if s.llState p = 2 then some (s.nextPixel p)
  else if s.llState p = 1 then match x.target with
    | some t => if t.1 < s.vtot p ∧ t.2 < s.htot p then some t else none
    | none => none
  else none

/-- One instruction's place is reached, before the raster's next point: the position moves there. -/
def State.llReach (s : State) (p : Fin 4) : Option State :=
  match s.llPosition p with
  | none => none
  | some t =>
    let i := s.passIndex p t.1 t.2
    if s.passIndex p (s.pipe p).line (s.pipe p).pixel ≤ i && s.beforeNext p i then
      let a := s.llAddr p (s.llPc p)
      some (((s.setPipe p { s.pipe p with line := t.1, pixel := t.2, fresh := false, target := none }).setFld
        (Reg.DP_LLSTAT p) Fld.DP_LLSTAT_STATE 2).checkRange (193 + p.val) a (a + 8))
    else none

/-- Instructions whose OP is not in R307 act as none and record cause 1, one pxc each (R309), up to the raster's next point; the answer says
whether the place of one that is in R307 is reached. -/
def State.llSkip (p : Fin 4) : Nat → State → State × Bool
  | 0, s => (s, false)
  | fuel + 1, s =>
    match s.llReach p with
    | none => (s, false)
    | some t =>
      if t.llState p = 2 ∧ 5 < t.llOp p then
        let u := (t.llError p 1).llNext p
        if u.llState p = 2 then State.llSkip p fuel u else (u, false)
      else (t, true)

/-- The engine of a running pipe executes an instruction of OP `op`, after those before it that are not in R307. -/
def State.llExecute (s : State) (p : Fin 4) (op : Nat) (act : State → State) : State :=
  if s.pipeRuns p && s.llState p != 0 then
    let r := State.llSkip p 1025 s
    if r.2 = false then r.1 else if r.1.llOp p = op then act r.1 else s
  else s

/-- LL_END (R307, R309). -/
def execLlEnd (p : Fin 4) (s : State) : Out := .next (s.llExecute p 0 (fun s => s.llStop p))

/-- LL_WAIT (R307): the next instruction waits for its position; one already passed sets LATE. -/
def execLlWait (p : Fin 4) (s : State) : Out :=
  .next (s.llExecute p 1 (fun s =>
    let x := s.pipe p
    let stride := ((x.rep).map (fun r => r.stride)).getD 0
    let line := s.llWord p 1 / 2 ^ 16 % 8192 + s.llRep p * stride
    let pixel := s.llWord p 1 % 8192
    let now := s.passIndex p x.line x.pixel
    let s := s.llNext p
    if s.llState p = 0 then s
    else if line < s.vtot p ∧ s.passIndex p line pixel < now then s.setFld (Reg.DP_LLSTAT p) Fld.DP_LLSTAT_LATE 1
    else if line < s.vtot p ∧ s.passIndex p line pixel = now then s
    else (s.setPipe p { s.pipe p with target := some (line, pixel) }).setFld (Reg.DP_LLSTAT p) Fld.DP_LLSTAT_STATE 1))

/-- The offsets of the fetch group of R308. -/
def fetchGroup (o : Nat) : Bool :=
  (0x200 ≤ o && o < 0x300 && o % 0x40 < 0x20) || (0x300 ≤ o && o ≤ 0x314) || o == 0x340

/-- The engine writes a word at a window offset (R308): the active copy, or an entry of the active palette bank; anything else
records cause 2. -/
def State.llWrite (s : State) (p : Fin 4) (o : Nat) (data : Word) : State :=
  let x := s.pipe p
  let a := pipeBase p + o
  let pal := 0x20000 + s.fld (Reg.DP_STAT p) Fld.DP_STAT_PALB * 0x4000
  let composed (s : State) : State := match x.cur with
    | some w => s.composeTo p (if w.line = x.line then min x.pixel (s.hact p) else 0)
    | none => s
  if o % 4 ≠ 0 then s.llError p 2
  else if fetchGroup o || o == 0x110 then
    match RegMap.find a with
    | some d =>
      let s := if o = 0x110 then composed s else s
      let v := d.written false data 0 (s.act p a)
      let act := if v = RegMap.reset a then Sparse.erase o (s.pipe p).active else Sparse.put o v (s.pipe p).active
      s.setPipe p { s.pipe p with active := act }
    | none => s.llError p 2
  else if pal ≤ o && o < pal + 0x2000 then (composed s).windowWrite (193 + p.val) a data
  else s.llError p 2

/-- LL_WREG (R307, R308). -/
def execLlWreg (p : Fin 4) (s : State) : Out :=
  .next (s.llExecute p 2 (fun s =>
    (s.llWrite p (s.llWord p 0 % 2 ^ 20) (BitVec.ofNat 32 (s.llWord p 1))).llNext p))

/-- LL_WREGT (R307): the data come from the active bank's table. -/
def execLlWregt (p : Fin 4) (s : State) : Out :=
  .next (s.llExecute p 3 (fun s =>
    let a := pipeBase p + 0x52000 + s.llBank p * 0x4000 + 4 * ((s.llWord p 1 % 1024 + s.llRep p) % 1024)
    let s := s.checkRange (193 + p.val) (a / 8 * 8) (a / 8 * 8 + 8)
    (s.llWrite p (s.llWord p 0 % 2 ^ 20) (s.reg a)).llNext p))

/-- LL_REP (R307, R309): nested, it records cause 3 and acts as no instruction. -/
def execLlRep (p : Fin 4) (s : State) : Out :=
  .next (s.llExecute p 4 (fun s =>
    let x := s.pipe p
    let pc := s.llPc p
    let len := s.llWord p 0 % 1024
    let count := s.llWord p 1 / 2 ^ 16
    if x.rep.isSome then (s.llError p 3).llNext p
    else if len = 0 ∨ count = 0 then s.llGoto p (pc + 1 + len)
    else (s.setPipe p { x with rep := some ⟨pc + 1, pc + len, 0, count, s.llWord p 1 % 8192⟩ }).llGoto p (pc + 1)))

/-- LL_RAISE (R307). -/
def execLlRaise (p : Fin 4) (s : State) : Out :=
  .next (s.llExecute p 5 (fun s => (s.pipeEvent p 6).llNext p))

/-- A pass that has not reached its END at a latch point is abandoned (R306). -/
def State.llAbandon (s : State) (p : Fin 4) : State :=
  if s.llState p = 0 then s
  else ((s.setFld (Reg.DP_ISTAT p) Fld.DP_ISTAT_LLOVR 1).pipeEvent p 15).llStop p

/-- A pass starts at a latch point (R306). -/
def State.llStart (s : State) (p : Fin 4) : State :=
  let s := s.llAbandon p
  if s.actFld p (Reg.DP_LLCTL p) Fld.DP_LLCTL_EN = 1 then
    (s.setPipe p { s.pipe p with rep := none, target := none }).llGoto p (s.actFld p (Reg.DP_LLCTL p) Fld.DP_LLCTL_START)
  else s

end Sys2Proof.Machine
end

