-- ==== Sys2Proof/Machine/DisplayOut.lean ====
section
/-! DEFINITION. What the display outputs carry (R259, R280 to R285): sync levels, the reduction of output values, the DisplayPort stream's
attributes and training patterns, and the LVDS serialisation. Readings and choices: log 81. -/

namespace Sys2Proof.Machine

/-! ### Drivers and limits -/

/-- The pipe whose active OUTSEL names output n. -/
def State.driverOf (s : State) (n : Fin 4) : Option (Fin 4) :=
  (List.finRange 4).find? (fun q => s.actFld q (Reg.DP_OUTSEL q) Fld.DP_OUTSEL_OUT == n.val + 1)

/-- Mb/s per lane of a DPn_OCTL.RATE code (R282). -/
def laneRate : Nat → Nat
  | 0 => 1620
  | 1 => 2700
  | 2 => 5400
  | _ => 8100

/-- BWERR of a DisplayPort output (R283): the stream exceeds the link. -/
def State.bwErr (s : State) (n : Fin 4) : Bool :=
  match s.driverOf n with
  | none => false
  | some q =>
    let k := (s.pipe q).pll
    let bits := if s.flag (Reg.DP_OCTL n) Fld.DP_OCTL_BPC10 then 10 else 8
    let lanes := 2 ^ s.fld (Reg.DP_OCTL n) Fld.DP_OCTL_LANES
    8 * lanes * laneRate (s.fld (Reg.DP_OCTL n) Fld.DP_OCTL_RATE) * k.mod * k.div < 250 * (k.int * k.mod + k.frac) * bits * 3

/-- CFGERR of an LVDS output (R284): a clock beyond the mode's limit, or an odd value in dual-link mode. -/
def State.cfgErr (s : State) (n : Fin 4) : Bool :=
  match s.driverOf n with
  | none => false
  | some q =>
    let k := (s.pipe q).pll
    let dual := s.flag (Reg.DP_OCTL n) Fld.DP_OCTL_DUAL
    let h0 := s.act q (Reg.DP_HTIM0 q)
    let h1 := s.act q (Reg.DP_HTIM1 q)
    (if dual then 170 else 112) * k.mod * k.div < 25 * (k.int * k.mod + k.frac) ||
    (dual && (Fld.DP_HTIM0_HACT.get h0 % 2 == 1 || Fld.DP_HTIM0_HTOT.get h0 % 2 == 1 ||
              Fld.DP_HTIM1_HSS.get h1 % 2 == 1 || Fld.DP_HTIM1_HSW.get h1 % 2 == 1))

/-! ### Raster -/

/-- The levels of horizontal and vertical sync and of data enable at a raster position. -/
structure Sync where
  hs : Bool
  vs : Bool
  de : Bool
  deriving DecidableEq, Repr

/-- A pipe's sync levels at a position (R259): asserted from HSS for HSW pixels and from VSS for VSW lines, in the polarity of HPOL and VPOL. -/
def State.syncAt (s : State) (p : Fin 4) (line pixel : Nat) : Sync :=
  let h := s.act p (Reg.DP_HTIM1 p)
  let v := s.act p (Reg.DP_VTIM1 p)
  let within (k first n : Nat) : Bool := first ≤ k && k < first + n
  { hs := within pixel (Fld.DP_HTIM1_HSS.get h) (Fld.DP_HTIM1_HSW.get h) != (Fld.DP_HTIM1_HPOL.get h == 1)
    vs := within line (Fld.DP_VTIM1_VSS.get v) (Fld.DP_VTIM1_VSW.get v) != (Fld.DP_VTIM1_VPOL.get v == 1)
    de := pixel < s.hact p && line < s.vact p }

/-- A pipe's sync levels now; a repeated or held line keeps those of line VTOT − 1 (R266). -/
def State.sync (s : State) (p : Fin 4) : Sync := s.syncAt p (s.pipe p).line (s.pipe p).pixel

/-! ### Output values -/

/-- The bits per component that output n takes (R280). -/
def State.outputBits (s : State) (n : Fin 4) : Nat :=
  let c := s.reg (Reg.DP_OCTL n)
  if largePipe n then (if Fld.DP_OCTL_BPC10.get c = 1 then 10 else 8) else (if Fld.DP_OCTL_SIX.get c = 1 then 6 else 8)

/-- The components R, G and B that output n carries of an output word (R280): o >> (10 − n). -/
def State.carried (s : State) (n : Fin 4) (o : Word) : Nat × Nat × Nat :=
  let cut (k : Nat) : Nat := o.toNat / 2 ^ k % 1024 / 2 ^ (10 - s.outputBits n)
  (cut 20, cut 10, cut 0)

/-! ### What an output sends -/

/-- A training pattern (R283). -/
inductive TrainPattern where
  | tps1 | tps2 | tps3 | tps4
  deriving DecidableEq, Repr

/-- The pattern of channel equalisation at a rate (R283). -/
def equalisationPattern (rate : Nat) : TrainPattern :=
  match rate with
  | 3 => .tps4
  | 2 => .tps3
  | _ => .tps2

/-- What an output puts on its pairs (R265, R283 to R285, R515): high impedance while disabled; its training patterns; the DisplayPort idle
pattern; the differential 0 state on every LVDS pair; LVDS blanking; or a pipe's stream. An enabled DisplayPort output that has never been
trained sends nothing that the spec states. -/
inductive OutSignal where
  | highZ
  | untrained
  | training (first second : TrainPattern)
  | idlePattern
  | zero
  | blanking
  | stream (pipe : Fin 4)
  deriving DecidableEq, Repr

/-- The running pipe that drives output n (R281, R285). -/
def State.runningDriver (s : State) (n : Fin 4) : Option (Fin 4) :=
  match s.driverOf n with
  | some q => if s.pipeRuns q then some q else none
  | none => none

/-- What output n sends (R265, R283 to R285). -/
def State.outputSends (s : State) (n : Fin 4) : OutSignal :=
  if s.flag (Reg.DP_OCTL n) Fld.DP_OCTL_EN = false then .highZ
  else if largePipe n then
    match (s.pipe n).train with
    | .never => .untrained
    | .running => .training .tps1 (equalisationPattern (s.fld (Reg.DP_OCTL n) Fld.DP_OCTL_RATE))
    | .failed => .idlePattern
    | .done => match s.runningDriver n with
      | some q => if s.bwErr n then .idlePattern else .stream q
      | none => .idlePattern
  else match s.runningDriver n with
    | some q => if s.cfgErr n then .blanking else .stream q
    | none => .zero

/-! ### DisplayPort -/

/-- N of the stream clock, whose clock is asynchronous to the link's (PRESUMED, log 81). -/
def msaN : Nat := 32768

/-- The Main Stream Attributes of output n while pipe q drives it (R282): from the active timing, with M the pixel clock over the link's symbol
clock in parts of N. -/
def State.msa (s : State) (n q : Fin 4) : Msa :=
  let h := s.act q (Reg.DP_HTIM1 q)
  let v := s.act q (Reg.DP_VTIM1 q)
  let k := (s.pipe q).pll
  { htotal := s.htot q, vtotal := s.vtot q, hstart := s.htot q - Fld.DP_HTIM1_HSS.get h, vstart := s.vtot q - Fld.DP_VTIM1_VSS.get v,
    hwidth := s.hact q, vheight := s.vact q, hsp := Fld.DP_HTIM1_HPOL.get h == 1, hsw := Fld.DP_HTIM1_HSW.get h,
    vsp := Fld.DP_VTIM1_VPOL.get v == 1, vsw := Fld.DP_VTIM1_VSW.get v, 
    mvid := 250 * (k.int * k.mod + k.frac) * msaN / (k.mod * k.div * laneRate (s.fld (Reg.DP_OCTL n) Fld.DP_OCTL_RATE)), nvid := msaN,
    misc0 := if s.outputBits n = 10 then 0x40 else 0x20, misc1 := 0 }

/-- Each DisplayPort output that pipe q streams to sends its Main Stream Attributes, once per frame (R282), in the frame's blanking (PRESUMED, log
81). -/
def State.sendMsa (s : State) (q : Fin 4) : State :=
  (List.finRange 4).foldl (fun s n =>
    if largePipe n && s.outputSends n == .stream q then s.setPipe n { s.pipe n with msa := some (s.msa n q) } else s) s

/-- The lowest and highest rate of a lane in kb/s (R282): a down-spread of 0.5 % with SSC. -/
def State.laneSpan (s : State) (n : Fin 4) : Nat × Nat :=
  let k := laneRate (s.fld (Reg.DP_OCTL n) Fld.DP_OCTL_RATE)
  (if s.flag (Reg.DP_OCTL n) Fld.DP_OCTL_SSC then 995 * k else 1000 * k, 1000 * k)

/-! ### LVDS -/

/-- The seven bits of each data pair for one pixel, first sent first (R284): the VESA or JEIDA mapping of R, G and B of 8 bits, or of 6 bits over
three pairs with the fourth at 0 (bit places PRESUMED, log 81). -/
def lvdsPairs (six jeida : Bool) (r g b : Nat) (y : Sync) : List (List Bool) :=
  let low := if six || !jeida then 0 else 2
  let high := if jeida then 0 else 6
  let c (v k : Nat) : Bool := v.testBit (k + low)
  [[c g 0, c r 5, c r 4, c r 3, c r 2, c r 1, c r 0], [c b 1, c b 0, c g 5, c g 4, c g 3, c g 2, c g 1],
    [y.de, y.vs, y.hs, c b 5, c b 4, c b 3, c b 2],
    if six then List.replicate 7 false
    else [false, b.testBit (high + 1), b.testBit high, g.testBit (high + 1), g.testBit high, r.testBit (high + 1), r.testBit high]]

/-- The link of an LVDS output that carries a pixel column (R284): with DUAL, A the even and B the odd ones. -/
def State.lvdsLinkB (s : State) (n : Fin 4) (x : Nat) : Bool := s.flag (Reg.DP_OCTL n) Fld.DP_OCTL_DUAL && x % 2 == 1

/-- Link B of an LVDS output is driven to the differential 0 state with its clock stopped (R284, R285). -/
def State.lvdsLinkBStopped (s : State) (n : Fin 4) : Bool :=
  s.outputSends n == .zero || !s.flag (Reg.DP_OCTL n) Fld.DP_OCTL_DUAL

/-- What an LVDS output puts on the data pairs of a pixel at a raster position (R284): its output word in the active area, data 0 elsewhere; with
CFGERR, blanking. -/
def State.lvdsPixel (s : State) (n : Fin 4) (line x : Nat) (o : Word) : Option (List (List Bool)) :=
  let six := s.flag (Reg.DP_OCTL n) Fld.DP_OCTL_SIX
  let jeida := s.flag (Reg.DP_OCTL n) Fld.DP_OCTL_JEIDA
  match s.outputSends n, s.driverOf n with
  | .stream q, _ =>
    let y := s.syncAt q line x
    let v := if y.de then s.carried n o else (0, 0, 0)
    some (lvdsPairs six jeida v.1 v.2.1 v.2.2 y)
  | .blanking, some q => some (lvdsPairs six jeida 0 0 0 { s.syncAt q line x with de := false })
  | .zero, _ => some (List.replicate 4 (List.replicate 7 false))
  | _, _ => none

end Sys2Proof.Machine
end

