-- ==== Sys2Proof/Machine/Display.lean ====
section
/-! DEFINITION. The display pipes' events and registers (R259 to R315): latch points, frames, lines, outputs, writeback, refresh
reduction and the freeze detector. Readings and choices: logs 34, 35. -/

namespace Sys2Proof.Machine

/-! ### Commits, enables and single registers -/

/-- A write to DPn_COMMIT (R263, R264, R288): an accepted GO waits for the latch point, and is a kick. -/
def State.commitLand (s : State) (p : Fin 4) (data : Word) : State :=
  if Fld.DP_COMMIT_GO.get data = 0 then s
  else if s.flag (Reg.DP_COMMIT p) Fld.DP_COMMIT_PENDING then s.writeIgnored p
  else
    let s := s.setFld (Reg.DP_COMMIT p) Fld.DP_COMMIT_PENDING 1
    (s.setPipe p { s.pipe p with swap := data.toNat / 2 % 8 }).kick p

/-- COMMIT_GO (R263). -/
def execCommitGo (_who : Who) (p : Fin 4) (data : Word) (s : State) : Out := .next (s.commitLand p data)

/-- The timing generator starts at the frame latch point, once the pixel clock runs (R265, R487). -/
def State.pipeStart (s : State) (p : Fin 4) : State :=
  if s.flag (Reg.SYS_PXCTL p) Fld.SYS_PXCTL_LOCK then
    let x := s.pipe p
    (s.setFld (Reg.DP_STAT p) Fld.DP_STAT_RUN 1).setPipe p { x with
      line := s.vact p, pixel := 0, next := .latch, glK := none, glJ := none, hold := false, extra := 0, same := 0, kicked := false, whole := false,
      fetch := none, cur := none, wbOn := false, wbPend := false, framePend := false, fresh := false, matched := none }
  else s

/-- A write to DPn_CTRL (R265). -/
def State.pipeCtrlLand (s : State) (p : Fin 4) (data hw : Word) : State :=
  let a := Reg.DP_CTRL p
  let was := s.flag a Fld.DP_CTRL_EN
  let s := s.plainWrite a data hw
  if !was && s.flag a Fld.DP_CTRL_EN && !s.pipeRuns p then
    match s.commitCheck p with
    | some c => (s.setFld a Fld.DP_CTRL_EN 0).commitRefused p c
    | none => (s.copyStaged p).pipeStart p
  else s

/-- PIPE_ENABLE (R265). -/
def execPipeEnable (_who : Who) (p : Fin 4) (data : Word) (s : State) : Out := .next (s.pipeCtrlLand p data 0)

/-- RR_KICK (R288). -/
def execRrKick (_who : Who) (p : Fin 4) (data : Word) (s : State) : Out :=
  .next (if Fld.DP_RRKICK_KICK.get data = 1 then s.kick p else s)

/-- Another pipe's staged or active OUTSEL names an output (R281). -/
def State.outputTaken (s : State) (p : Fin 4) (out : Nat) : Bool :=
  (List.finRange 4).any (fun q => q != p &&
    (s.fld (Reg.DP_OUTSEL q) Fld.DP_OUTSEL_OUT == out || s.actFld q (Reg.DP_OUTSEL q) Fld.DP_OUTSEL_OUT == out))

/-- A write to DPn_OUTSEL (R264, R281); while it is locked, no event results (R6). -/
def State.outselLand (s : State) (p : Fin 4) (data : Word) : State :=
  let a := Reg.DP_OUTSEL p
  let v := Fld.DP_OUTSEL_OUT.get data
  if s.lockedWhole a then s
  else if s.flag (Reg.DP_COMMIT p) Fld.DP_COMMIT_PENDING then s.writeIgnored p
  else if 1 ≤ v ∧ v ≤ 4 ∧ s.outputTaken p v = true then s.statBit p Fld.DP_STAT_XREF
  else s.plainWrite a data 0

/-- OUTSEL_WRITE (R281). -/
def execOutselWrite (_who : Who) (p : Fin 4) (data : Word) (s : State) : Out := .next (s.outselLand p data)

/-! ### The latch point -/

/-- A machine check of a pipe (R313). -/
def State.pipeCheck (s : State) (p : Fin 4) (f : Fld) : State :=
  if s.actFld p (Reg.DP_ICTL p) f = 1 then s.liningService .machineCheck else s

/-- A freeze fault of a region (R313). -/
def State.freezeFault (s : State) (p : Fin 4) (r : Nat) : State :=
  let a := Reg.DP_RFAULT p
  let s := s.setFld a Fld.DP_RFAULT_REG (s.fld a Fld.DP_RFAULT_REG ||| 2 ^ r)
  ((s.setFld (Reg.DP_ISTAT p) Fld.DP_ISTAT_FRZ 1).pipeEvent p 5).pipeCheck p Fld.DP_ICTL_MCHKF

/-- A region that covers nothing acts as MODE 0 (R310). -/
def State.regionMode (s : State) (p : Fin 4) (r : Nat) : Nat :=
  let rx := s.act p (Reg.DP_RX p r)
  let ry := s.act p (Reg.DP_RY p r)
  let x0 := Fld.DP_RX_X0.get rx
  let y0 := Fld.DP_RY_Y0.get ry
  if Fld.DP_RX_X1.get rx < x0 ∨ Fld.DP_RY_Y1.get ry < y0 ∨ s.hact p ≤ x0 ∨ s.vact p ≤ y0 then 0
  else s.actFld p (Reg.DP_RCFG p r) Fld.DP_RCFG_MODE

/-- A region's signature of the frame that ends (R310 to R312). -/
def State.regionLatch (s : State) (p : Fin 4) (r : Nat) : State :=
  match (s.pipe p).regions[r]? with
  | none => s
  | some g =>
    let sig := ~~~g.crc
    let s := s.setReg (Reg.DP_RSIG p r) sig
    let put (s : State) (m : Bool) : State :=
      let x := s.pipe p
      s.setPipe p { x with regions := x.regions.mapIdx (fun i h => if i = r then { h with prev := some sig, matched := m } else h) }
    match s.regionMode p r, g.prev with
    | 1, some v =>
      let n := s.actFld p (Reg.DP_RCFG p r) Fld.DP_RCFG_N
      let c := s.fld (Reg.DP_RREP p r) Fld.DP_RREP_COUNT
      let c' := if v = sig then min (c + 1) 255 else 0
      let s := put (s.setReg (Reg.DP_RREP p r) (BitVec.ofNat 32 c')) g.matched
      if c < n ∧ c' = n then s.freezeFault p r else s
    | 2, some _ =>
      if sig = s.act p (Reg.DP_REXP p r) then put s true
      else let s := put s false
           if g.matched then s.freezeFault p r else s
    | _, _ => put s g.matched

/-- The frame signature is taken, and refresh reduction is entered or left (R288). -/
def State.signFrame (s : State) (p : Fin 4) : State :=
  let x := s.pipe p
  if !x.whole then s else
  let sig := ~~~x.crc
  let s := s.setReg (Reg.DP_FSIG p) sig
  let unchanged := x.prevSig == some sig && !x.kicked
  let same := if unchanged then x.same + 1 else 0
  let s := s.setPipe p { x with prevSig := some sig, same := same }
  let s := (List.range 16).foldl (fun s r => s.regionLatch p r) s
  if s.actFld p (Reg.DP_RRCTL p) Fld.DP_RRCTL_EN = 1 then
    if s.flag (Reg.DP_STAT p) Fld.DP_STAT_RRACT then (if unchanged then s else s.leaveReduced p)
    else if s.actFld p (Reg.DP_RRCTL p) Fld.DP_RRCTL_RRN ≤ same then
      (s.setFld (Reg.DP_STAT p) Fld.DP_STAT_RRACT 1).pipeEvent p 10
    else s
  else s

/-- A pending commit is applied or refused (R263). -/
def State.commitLatch (s : State) (p : Fin 4) : State :=
  if s.flag (Reg.DP_COMMIT p) Fld.DP_COMMIT_PENDING then
    let s := s.setFld (Reg.DP_COMMIT p) Fld.DP_COMMIT_PENDING 0
    match s.commitCheck p with
    | some c => s.commitRefused p c
    | none => (s.copyStaged p).swapBanks p (s.pipe p).swap
  else s

/-- Words of the appliqué store. -/
def State.storeWords (s : State) (a n : Nat) : List Word :=
  (List.range n).map (fun i => BitVec.ofNat 32 (leNat (s.bytes (0x5000000 + (a + 4 * i) % 2 ^ 21) 4)))

/-- The pipe reads its appliqué descriptor (R297): accepted with its palette, or the last one held. -/
def State.aplLatch (s : State) (p : Fin 4) : State :=
  let r := s.tableRead (193 + p.val) (0x5000000 + 64 * p.val) 32
  let s := r.2
  let d := s.storeWords (64 * p.val) 8
  let w0 := (d.getD 0 0).toNat
  let bpp := w0 / 2 % 4
  if r.1 = false ∧ (d.getD 7 0).toNat / 65536 = w0 / 65536 ∧ bpp ≠ 3 then
    let n := 2 ^ (2 * 2 ^ bpp)
    let off := (d.getD 5 0).toNat / 64 % 2 ^ 15 * 64
    let s := s.checkRange (193 + p.val) (0x5000000 + off) (0x5000000 + off + 4 * n)
    let s := s.setPipe p { s.pipe p with apl := d, aplPal := s.storeWords off n }
    s.setFlds (Reg.DP_APSTAT p) [(Fld.DP_APSTAT_ACT, w0 % 2), (Fld.DP_APSTAT_SEQ, w0 / 65536)]
  else (s.setFld (Reg.DP_ISTAT p) Fld.DP_ISTAT_APH 1).pipeEvent p 14

/-- The pipe stops (R265): a pending commit is discarded, and the line list pass ends at this latch point (R306). -/
def State.pipeStop (s : State) (p : Fin 4) : State :=
  let s := s.setFld (Reg.DP_COMMIT p) Fld.DP_COMMIT_PENDING 0
  let s := (s.llAbandon p).setFlds (Reg.DP_STAT p) [(Fld.DP_STAT_RUN, 0), (Fld.DP_STAT_RRACT, 0)]
  s.setPipe p { s.pipe p with next := .latch }

/-- FRAME_LATCH (R259, R263, R265, R282, R288, R297, R306, R313): the start of blanking. -/
def execFrameLatch (p : Fin 4) (upsets : Upsets) (s : State) : Out :=
  if s.pipeRuns p ∧ (s.pipe p).next = .latch then
    let s := (s.strike upsets).finishLine p
    let x := s.pipe p
    let s := s.setPipe p { x with
      line := s.vact p, pixel := 0, fresh := false, matched := none, framePend := x.framePend || x.whole, wbPend := x.wbPend || x.wbOn, wbOn := false }
    let s := (s.signFrame p).pipeEvent p 0
    if s.flag (Reg.DP_CTRL p) Fld.DP_CTRL_EN = false then .next (s.pipeStop p)
    else
      let s := (((s.commitLatch p).sendMsa p).aplLatch p).llStart p
      .next (s.setPipe p { s.pipe p with line := s.vact p, pixel := 0, next := .fetch 0 })
  else .next s

/-! ### Frames -/

/-- A frame starts (R266, R286): signatures start anew, and the frame may be one to write. -/
def State.frameStart (s : State) (p : Fin 4) : State :=
  let x := s.pipe p
  let n := x.wbCount + 1
  let on := s.actFld p (Reg.DP_WBCTL p) Fld.DP_WBCTL_EN = 1
  let hit := on && s.actFld p (Reg.DP_WBCTL p) Fld.DP_WBCTL_DIV ≤ n
  s.setPipe p { x with
    line := 0, pixel := 0, next := .fetch 1, extra := 0, hold := false, kicked := false, whole := true, crc := 0xFFFFFFFF,
    regions := x.regions.map (fun g => { g with crc := 0xFFFFFFFF }), fresh := true, matched := none,
    wbOn := hit, wbCount := if hit then 0 else n }

/-- A blank line VTOT − 1 is repeated. -/
def State.repeatLine (s : State) (p : Fin 4) : State :=
  let x := s.pipe p
  s.setPipe p { x with pixel := 0, extra := x.extra + 1, hold := false, fresh := true, matched := none }

/-- A pixel cycle in 2⁻³² ns (R487), at least 1. -/
def State.pixelCycle (s : State) (p : Fin 4) : Nat :=
  let k := (s.pipe p).pll
  max 1 (40 * k.div * k.mod * 2 ^ 32 / (k.int * k.mod + k.frac))

/-- A line of the pipe's pixel clock lasts no longer than `t`, in 2⁻³² ns (R487). -/
def State.lineFits (s : State) (p : Fin 4) (t : Nat) : Bool :=
  let k := (s.pipe p).pll
  s.htot p * 40 * k.div * k.mod * 2 ^ 32 ≤ t * (k.int * k.mod + k.frac)

/-- FRAME_END (R266, R289): at the end of line VTOT − 1 a genlocked pipe repeats the line, holds until its target or slips; in
reduced refresh another pipe repeats it until the frame has RRVTOT lines. The times compared are the pixel domain's follower copy (R28). A target
that a kick moved before the end of a repeated line is met at that end without SLIP (the model's choice, log 89). -/
def execFrameEnd (p : Fin 4) (s : State) : Out :=
  let x := s.pipe p
  if s.pipeRuns p ∧ x.next = .frameEnd then
    if s.actFld p (Reg.DP_GLCTL p) Fld.DP_GLCTL_EN = 0 then
      if s.flag (Reg.DP_STAT p) Fld.DP_STAT_RRACT ∧ s.vtot p + x.extra < s.actFld p (Reg.DP_RRCTL p) Fld.DP_RRCTL_RRVTOT then
        .next (s.repeatLine p)
      else .next (s.frameStart p)
    else
      let e : Nat := s.follower (s.pixelCycle p)
      let s : State := { s with free := s.free + 1 }
      let j : Nat := x.glJ.getD (s.glChoose p e)
      let t : Nat := s.glTargetTime p j
      let start (s : State) : State :=
        let s := s.setReg (Reg.DP_GLERR p) (BitVec.ofInt 32 (Int.tdiv ((e : Int) - t) (2 ^ 32)))
        (s.setPipe p { s.pipe p with glK := some j, glJ := none }).frameStart p
      if t < e ∧ x.glJ.isNone then .next (start ((s.setFld (Reg.DP_STAT p) Fld.DP_STAT_SLIP 1).pipeEvent p 9))
      else if t ≤ e then .next (start s)
      else if s.lineFits p (t - e) then .next ((s.setPipe p { x with glJ := some j }).repeatLine p)
      else .next (s.setPipe p { x with glJ := some j, hold := true, pixel := s.htot p - 1 })
  else .next s

/-- LINE_MATCH (R290): pixel 0 of line DPn_LMATCH.LINE. -/
def execLineMatch (p : Fin 4) (s : State) : Out :=
  let x := s.pipe p
  let l := s.fld (Reg.DP_LMATCH p) Fld.DP_LMATCH_LINE
  let i := s.passIndex p l 0
  if s.pipeRuns p ∧ l < s.vtot p ∧ x.matched ≠ some l ∧ s.passIndex p x.line x.pixel ≤ i ∧ s.beforeNext p i = true then
    .next ((s.setPipe p { x with line := l, pixel := 0, fresh := x.fresh || x.line != l || x.pixel != 0, matched := some l }).pipeEvent p 1)
  else .next s

/-- FRAME_DONE (R290): the last active pixel has left, and the frame's writeback has ended. -/
def execFrameDone (p : Fin 4) (s : State) : Out :=
  let x := s.pipe p
  if x.framePend ∧ x.wbPend = false then .next ((s.setPipe p { x with framePend := false }).pipeEvent p 2) else .next s

/-- WRITEBACK_DONE (R287): the frame's last write has landed, or the writeback queue was full and the rest is abandoned. -/
def execWritebackDone (p : Fin 4) (overflow : Bool) (s : State) : Out :=
  let x := s.pipe p
  let a := Reg.DP_WBSTAT p
  if overflow then (if x.wbOn || x.wbPend then .next (s.abandonWriteback p) else .next s)
  else if x.wbPend then
    let n := s.fld a Fld.DP_WBSTAT_NEXT
    .next ((s.setPipe p { x with wbPend := false }).setFlds a
      [(Fld.DP_WBSTAT_LAST, n), (Fld.DP_WBSTAT_NEXT, 1 - n), (Fld.DP_WBSTAT_DONE, 1)])
  else .next s

/-! ### Lines -/

/-- The tile-map requests of a line are answered: its other requests follow (R301). -/
def State.fetchData (s : State) (p : Fin 4) (w : LineWork) : State :=
  let w := if w.maps && w.todo.isEmpty then { w with maps := false, todo := dataRequests w p (s.hact p) } else w
  s.setPipe p { s.pipe p with fetch := some w }

/-- LINE_FETCH_START (R261, R274, R300, R301). While the active SCTL.EN is 0, no sprite counts towards the limit of R274 (the model's choice,
log 89). -/
def execLineFetchStart (p : Fin 4) (s : State) : Out :=
  match (s.pipe p).next with
  | .fetch l =>
    if s.pipeRuns p then
      let s := s.checkRange (193 + p.val) (pipeBase p + 0x30000) (pipeBase p + 0x40000)
      let x := s.pipe p
      let all := if Fld.DP_SCTL_EN.get (s.act p (Reg.DP_SCTL p)) = 1 then s.covering p l else []
      let many := 256 < all.length
      let before := l != 0 && x.spOvf
      let row := match x.aplRow l with
        | some (o, n) => (List.range n).map (fun i => Memory.read s.mem (0x5000000 + (o + i) % 2 ^ 21))
        | none => []
      let s := match x.aplRow l with
        | some (o, n) => s.checkRange (193 + p.val) (0x5000000 + o) (0x5000000 + o + n)
        | none => s
      let s := s.setPipe p { x with
        line := s.fetchLine p l, pixel := 0, fresh := false, next := .compose l, matched := if x.line = s.fetchLine p l then x.matched else none,
        spOvf := before || many }
      let s := if many then s.setFld (Reg.DP_STAT p) Fld.DP_STAT_SPOVF 1 else s
      let s := if many && !before then s.pipeEvent p 7 else s
      .next (s.fetchData p { line := l, cfg := x.active, maps := true, todo := mapRequests x.active p l (s.hact p), buf := [], apRow := row,
                             sprites := all.take 256, failed := false, overran := false, underrun := false, out := [] })
    else .next s
  | _ => .next s

/-- PLANE_FETCH_RESPONSE (R301): the oldest request of the line is answered; one refused or uncorrectable is not (log 30). -/
def execPlaneFetchResponse (p : Fin 4) (upsets : Upsets) (s : State) : Out :=
  match (s.pipe p).fetch with
  | none => .next s
  | some w =>
    match w.todo with
    | [] => .next s
    | a :: t =>
      match (s.strike upsets).engineRead (.pipe p) false (64 * a) 64 with
      | (.held, s) => .next s
      | (.bytes b, s) => .next (s.fetchData p { w with todo := t, buf := (a, b) :: w.buf })
      | (_, s) => .next (s.setPipe p { s.pipe p with fetch := some { w with todo := t, maps := w.maps && !t.isEmpty, failed := true } })

/-- A line of a fetch still lacks an answer. -/
def LineWork.incomplete (w : LineWork) : Bool := w.failed || !w.todo.isEmpty

/-- BUDGET_OVERRUN (R302). -/
def execBudgetOverrun (p : Fin 4) (s : State) : Out :=
  let x := s.pipe p
  match x.fetch with
  | some w =>
    if w.incomplete ∧ w.overran = false then
      let b := s.actFld p (Reg.DP_LBUD p) Fld.DP_LBUD_BUDGET
      let a := Reg.DP_OCNT p
      let s := s.setPipe p { x with fetch := some { w with overran := true }, pixel := max x.pixel b, fresh := x.fresh && b ≤ x.pixel }
      let s := if s.reg a = 0xFFFFFFFF then s else s.setReg a (s.reg a + 1)
      .next ((s.setFld (Reg.DP_ISTAT p) Fld.DP_ISTAT_BOVR 1).pipeEvent p 4)
    else .next s
  | none => .next s

/-- A line underruns (R303, R313). -/
def State.lineUnderrun (s : State) (p : Fin 4) (l : Nat) : State :=
  let a := Reg.DP_UCNT p
  let s := if s.reg a = 0xFFFFFFFF then s else s.setReg a (s.reg a + 1)
  let s := (s.setFld (Reg.DP_ISTAT p) Fld.DP_ISTAT_UNDR 1).setReg (Reg.DP_ULINE p) (BitVec.ofNat 32 l)
  (s.pipeEvent p 3).pipeCheck p Fld.DP_ICTL_MCHKU

/-- COMPOSE_START (R300, R303): the line before is done, and composition takes up the line fetched, or its underrun colour. -/
def execComposeStart (p : Fin 4) (s : State) : Out :=
  match (s.pipe p).next, (s.pipe p).fetch with
  | .compose l, some w =>
    if s.pipeRuns p then
      let base := pipeBase p
      let s := (s.finishLine p).checkRange (193 + p.val) (base + 0x10000) (base + 0x26000)
      let x := s.pipe p
      let next := if l = 0 then Raster.frameEnd else if l + 1 < s.vact p then Raster.fetch (l + 1) else Raster.latch
      let s := s.setPipe p { x with
        pixel := s.htot p - 16, fresh := false, next := next, fetch := none, cur := some { w with underrun := w.incomplete, todo := [] } }
      .next (if w.incomplete then s.lineUnderrun p l else s)
    else .next s
  | _, _ => .next s

/-! ### Outputs -/

/-- A W1C bit of output n's status becomes 1 (R290). -/
def State.outputBit (s : State) (p : Fin 4) (a : Nat) (f : Fld) : State :=
  if s.flag a f then s else (s.setFld a f 1).pipeEvent p 12

/-- A write to DPn_OCTL: the DisplayPort form on outputs 0 and 1 (R283), the LVDS form on outputs 2 and 3. -/
def State.octlLand (s : State) (p : Fin 4) (data hw : Word) : State :=
  let a := Reg.DP_OCTL p
  if largePipe p then
    let s := s.plainWrite a data hw
    if Fld.DP_OCTL_TRAIN.get data = 1 then
      (s.setFld (Reg.DP_OSTAT p) Fld.DP_OSTAT_TRAINED 0).setPipe p { s.pipe p with train := .running }
    else s
  else s.setReg a (data &&& 0x80000007)

/-- LINK_TRAIN (R283). -/
def execLinkTrain (_who : Who) (p : Fin 4) (data : Word) (s : State) : Out := .next (s.octlLand p data 0)

/-- One phase of link training (R283): the sink's answer to each attempt says whether the phase succeeded, and otherwise the voltage swing
and pre-emphasis of DPCD 0x00206–0x00207 that the next attempt applies; at most `n` attempts. -/
def trainPhase : Nat → BitVec 16 → List (Bool × BitVec 16) → Bool × BitVec 16
  | n + 1, d, (ok, r) :: t => if ok then (true, d) else trainPhase n r t
  | _, d, _ => (false, d)

/-- LINK_TRAIN_END (R283): clock recovery, then channel equalisation, of at most 5 attempts each, with the sink's answers. -/
def execLinkTrainEnd (p : Fin 4) (answers : TrainAnswers) (s : State) : Out :=
  let x := s.pipe p
  if x.train = .running then
    let a := trainPhase 5 0 answers.cr
    let b := if a.1 then trainPhase 5 a.2 answers.eq else (false, a.2)
    let s := s.setPipe p { x with train := if b.1 then .done else .failed, drive := b.2 }
    .next (if b.1 then s.setFld (Reg.DP_OSTAT p) Fld.DP_OSTAT_TRAINED 1
           else s.outputBit p (Reg.DP_OSTAT p) Fld.DP_OSTAT_TFAIL)
  else .next s

/-- A write to DPn_AUXCMD starts a transaction, unless one is in progress (R282, R291). -/
def State.auxLand (s : State) (p : Fin 4) (data : Word) : State :=
  if !largePipe p || s.flag (Reg.DP_AUXSTAT p) Fld.DP_AUXSTAT_BUSY then s
  else (s.setFld (Reg.DP_AUXSTAT p) Fld.DP_AUXSTAT_BUSY 1).setPipe p { s.pipe p with auxCmd := data }

/-- AUX_TRANSACTION (R282). -/
def execAuxTransaction (_who : Who) (p : Fin 4) (data : Word) (s : State) : Out := .next (s.auxLand p data)

/-- Bytes replace the first ones of DPn_AUXD0–3. -/
def State.auxData (s : State) (p : Fin 4) (l : List Byte) : State :=
  let old := (List.range 4).flatMap (fun k => leBytes 4 (s.reg (Reg.DP_AUXD p k)).toNat)
  let b := l ++ old.drop l.length
  (List.range 4).foldl (fun s k => s.setReg (Reg.DP_AUXD p k) (BitVec.ofNat 32 (leNat ((b.drop (4 * k)).take 4)))) s

/-- AUX_DONE (R282): the sink's reply; the bytes of a read enter DPn_AUXDk. -/
def execAuxDone (p : Fin 4) (reply : BitVec 2) (count : Fin 17) (bytes : List Byte) (s : State) : Out :=
  let a := Reg.DP_AUXSTAT p
  if s.flag a Fld.DP_AUXSTAT_BUSY then
    let s := if (s.pipe p).auxCmd.getLsbD 28 then s.auxData p (bytes.take count.val) else s
    .next ((s.setFlds a [(Fld.DP_AUXSTAT_BUSY, 0), (Fld.DP_AUXSTAT_REPLY, reply.toNat), (Fld.DP_AUXSTAT_COUNT, count.val)]).outputBit
      p a Fld.DP_AUXSTAT_DONE)
  else .next s

/-- Output n is a DisplayPort output whose domain is powered (R282, R475). -/
def State.sinkSeen (s : State) (p : Fin 4) : Bool := largePipe p && !s.isOff (7 + p.val)

/-- HPD_PLUG (R282). -/
def execHpdPlug (p : Fin 4) (s : State) : Out :=
  if s.sinkSeen p then .next ((s.setFld (Reg.DP_OSTAT p) Fld.DP_OSTAT_HPD 1).outputBit p (Reg.DP_OSTAT p) Fld.DP_OSTAT_PLUG)
  else .next s

/-- HPD_UNPLUG (R282). -/
def execHpdUnplug (p : Fin 4) (s : State) : Out :=
  if s.sinkSeen p then .next ((s.setFld (Reg.DP_OSTAT p) Fld.DP_OSTAT_HPD 0).outputBit p (Reg.DP_OSTAT p) Fld.DP_OSTAT_UNPLUG)
  else .next s

/-- IRQ_HPD (R282). -/
def execIrqHpd (p : Fin 4) (s : State) : Out :=
  if s.sinkSeen p then .next (s.outputBit p (Reg.DP_OSTAT p) Fld.DP_OSTAT_IRQ) else .next s

/-! ### The window -/

/-- The table that a window offset lies in, its bank, and the bits that an entry holds (R262, R269, R273, R278, R305). -/
inductive PipeTable where
  | gamma (bank : Nat) (mask : Word)
  | palette (bank : Nat)
  | sprite (bank : Nat)
  | list (bank : Nat)
  deriving DecidableEq, Repr

/-- The table at a window offset. -/
def pipeTable (p : Fin 4) (o : Nat) : Option PipeTable :=
  if 0x10000 ≤ o ∧ o < 0x20000 then
    let i := o % 0x8000
    if largePipe p = false then none
    else if i < 0x3000 then some (.gamma ((o - 0x10000) / 0x8000) 0xFFF)
    else if 0x4000 ≤ i ∧ i < 0x7000 then some (.gamma ((o - 0x10000) / 0x8000) 0x3FF) else none
  else if 0x20000 ≤ o ∧ o < 0x26000 then
    if o % 0x4000 < 0x2000 then some (.palette ((o - 0x20000) / 0x4000)) else none
  else if 0x30000 ≤ o ∧ o < 0x40000 then some (.sprite ((o - 0x30000) / 0x8000))
  else if 0x50000 ≤ o ∧ o < 0x58000 then
    if o % 0x4000 < 0x3000 then some (.list ((o - 0x50000) / 0x4000)) else none
  else none

/-- A bank of a table is the active one. -/
def State.bankActive (s : State) (p : Fin 4) : PipeTable → Bool
  | .gamma b _ => s.fld (Reg.DP_STAT p) Fld.DP_STAT_GAMB == b
  | .palette b => s.fld (Reg.DP_STAT p) Fld.DP_STAT_PALB == b
  | .sprite b => s.fld (Reg.DP_STAT p) Fld.DP_STAT_SPRB == b
  | .list b => s.llBank p == b

/-- A register that this pipe does not have (R291): the matrix on a large one, AUX on outputs 2 and 3. -/
def pipeLacks (p : Fin 4) (o : Nat) : Bool :=
  (largePipe p && 0x160 ≤ o && o < 0x19C) || (!largePipe p && 0x80010 ≤ o)

/-- The pipe of a window address. -/
def pipeOf (a : Nat) : Fin 4 := Fin.ofNat 4 (blockIndex a - 7)

/-- A write lands in a DP block (R262, R264); one to a locked register or gamma table is ignored with no event (R6). -/
def State.landDp (s : State) (who : Who) (a : Nat) (data hw : Word) : State :=
  let p := pipeOf a
  let o := a - pipeBase p
  let busy := s.flag (Reg.DP_COMMIT p) Fld.DP_COMMIT_PENDING
  match pipeTable p o with
  | some t =>
    let shut : Bool := match t with
      | .gamma _ _ => s.flag (Reg.DP_CTRL p) Fld.DP_CTRL_LOCK
      | _ => false
    let v := match t with
      | .gamma _ m => data &&& m
      | _ => data
    if shut then s
    else if s.bankActive p t || busy then s.writeIgnored p
    else s.windowWrite who.id a v
  | none =>
    if pipeLacks p o || (RegMap.find a).isNone then s
    else if a = Reg.DP_CTRL p then s.pipeCtrlLand p data hw
    else if a = Reg.DP_COMMIT p then s.commitLand p data
    else if a = Reg.DP_RRKICK p then (if Fld.DP_RRKICK_KICK.get data = 1 then s.kick p else s)
    else if a = Reg.DP_OUTSEL p then s.outselLand p data
    else if a = Reg.DP_OCTL p then s.octlLand p data hw
    else if a = Reg.DP_AUXCMD p then s.auxLand p data
    else if s.lockedWhole a then s
    else if stagedOffset o && busy then s.writeIgnored p
    else s.plainWrite a data hw

/-- A read of a DP block. -/
def State.readDp (s : State) (who : Who) (a : Nat) (hw : Word) : State :=
  let p := pipeOf a
  let o := a - pipeBase p
  match pipeTable p o with
  | some _ => s.windowRead who a
  | none =>
    let r := s.plainRead a hw
    if pipeLacks p o then s.respondWord who 0
    else if a = Reg.DP_POS p then s.respondWord who (BitVec.ofNat 32 ((s.pipe p).line * 65536 + (s.pipe p).pixel))
    else if a = Reg.DP_OCTL p ∧ largePipe p = false then s.respondWord who (s.reg a)
    else if a = Reg.DP_OSTAT p then
      r.2.respondWord who (if largePipe p then Fld.DP_OSTAT_BWERR.put (bit (s.bwErr p)) r.1
                           else Fld.DP_OSTAT_CFGERR.put (bit (s.cfgErr p)) r.1)
    else r.2.respondWord who r.1

/-- A per-block reset's effect on a pipe and on output n (R291). -/
def State.resetPipe (s : State) (p : Fin 4) : State := s.setPipe p { Pipe.reset with pll := (s.pipe p).pll }

end Sys2Proof.Machine
end

