-- ==== Sys2Proof/Machine/Evc.lean ====
section
/-! DEFINITION. The event controller (R238 to R258): presentation, claims and completions, configuration writes, wakes and groups. Readings and choices: logs 23, 24, 79. -/

namespace Sys2Proof.Machine

/-- A context takes part in presentation: it is not seen as Off (R248), and lockstep does not exclude it (R106, R241). -/
def State.seesEvents (s : State) (c : Ctx) : Bool := !s.evc.offSeen.getLsbD c.val && !s.lockedOut c.val

/-- The target mask in force names a context (R241, R250). -/
def State.targets (s : State) (n : Nat) (c : Ctx) : Bool :=
  (s.reg (Reg.EVC_TGT n (c.val / 32))).getLsbD (c.val % 32) && !s.lockedOut c.val

/-- A source is ready to be presented to the contexts its mask names (R241). -/
def State.ready (s : State) (n : Nat) : Bool :=
  let w := Reg.EVC_SSTAT n
  s.flag w Fld.EVC_SSTAT_PEND && !s.flag w Fld.EVC_SSTAT_HELD && !s.flag w Fld.EVC_SSTAT_ACT &&
  s.flag (Reg.EVC_SCFG n) Fld.EVC_SCFG_EN

/-- A source is presented to a context (R241). -/
def State.presentedTo (s : State) (n : Nat) (c : Ctx) : Bool := s.ready n && s.targets n c && s.seesEvents c

/-- The event presented to a context (R242): the highest PRIO, and the lowest number among equals. -/
def State.presented (s : State) (c : Ctx) : Option Nat :=
  ((s.sourcesWith Fld.EVC_SSTAT_PEND).filter (fun n => s.presentedTo n c)).foldl (fun best n =>
    match best with
    | none => some n
    | some b => if s.fld (Reg.EVC_SCFG b) Fld.EVC_SCFG_PRIO < s.fld (Reg.EVC_SCFG n) Fld.EVC_SCFG_PRIO then some n else some b) none

/-- A claim that is refused counts in EVC_SPUR (R244, R258). -/
def State.spurious (s : State) : State :=
  if s.reg Reg.EVC_SPUR = 0xFFFFFFFF then s else s.setReg Reg.EVC_SPUR (s.reg Reg.EVC_SPUR + 1)

/-- A claim is served (R244): granted where the source is still presented, else 0x7FF. -/
def State.serve (s : State) (c : Ctx) (want : Option Nat) : Nat × State :=
  match want with
  | some n =>
    if n < 1536 && s.presentedTo n c then
      (n, s.setFlds (Reg.EVC_SSTAT n) [(Fld.EVC_SSTAT_PEND, 0), (Fld.EVC_SSTAT_ACT, 1), (Fld.EVC_SSTAT_OWNER, c.val)])
    else (0x7FF, s.spurious)
  | none => (0x7FF, s.spurious)

/-- EVENT_OCCURRENCE (R27, R239): an occurrence that waits in its crossing leaves it and is accepted; while the controller is suspended it
waits (R255). -/
def execEventOccurrence (n : Fin 1536) (s : State) : Out :=
  if s.evc.suspended || !s.evc.sync.contains n.val then .next s
  else .next ({ s with evc := { s.evc with sync := s.evc.sync.erase n } }.accept n)

/-- The controller serves nothing: it is suspended (R255) or in a per-block reset (R256). -/
def State.evcHeld (s : State) : Bool := s.evc.suspended || s.fab.clearing.contains .evc

/-- A register write that reaches the controller while it is suspended or in a per-block reset is held, and completes after it (R39, R255). -/
def State.evcWrite (s : State) (who : Who) (a : Nat) (data : Word) (f : State → State) : State :=
  if s.evcHeld then s.onRing who a (some data) else f s

/-- A doorbell: an occurrence of the source of context CTX (R239, R258). -/
def State.doorbell (s : State) (data : Word) : State := s.raise (Fld.EVC_DOORBELL_CTX.get data)

/-- EVC_DOORBELL. -/
def execEvcDoorbell (who : Who) (data : Word) (s : State) : Out :=
  .next (s.evcWrite who Reg.EVC_DOORBELL data (fun s => s.doorbell data))

/-- GROUP_DEADLINE (R253): device time has reached an armed group's deadline. -/
def execGroupDeadline (g : Fin 256) (s : State) : Out :=
  match Sparse.get g.val s.evc.deadlines with
  | some d => if d ≤ s.now ∧ s.evc.suspended = false then .next (s.releaseGroup g) else .next s
  | none => .next s

/-- A claim's answer reaches its context: the number of an entry in progress, or the answer of a load or of a read. A claim granted to a
context that has been killed since is released (R248). -/
def State.answerClaim (s : State) (q : Claim) (n : Nat) : State :=
  if q.dead then (if n = 0x7FF then s else s.unclaim n)
  else match q.by' with
    | .read => s.respondWord (s.whoOf q.ctx) (BitVec.ofNat 32 n)
    | .load => { s with evc := { s.evc with answers := s.evc.answers ++ [(q.ctx.val, n)] } }
    | .entry _ =>
      let x := s.ctx q.ctx
      match x.entry with
      | some e => s.setCtx q.ctx { x with entry := some { e with num := n, claimed := true } }
      | none => if n = 0x7FF then s else s.unclaim n

/-- A claim joins the queue: behind those of earlier fcs, and in ascending context number among those of one fc (R246); claims that a
reset has voided stay in front (R256). -/
def State.joinClaim (s : State) (q : Claim) : State :=
  let before (p : Claim) : Bool := p.fc != q.fc || p.ctx.val ≤ q.ctx.val
  let v := s.evc.claims.take s.evc.voided
  let l := s.evc.claims.drop s.evc.voided
  { s with evc := { s.evc with claims := v ++ l.takeWhile before ++ q :: l.dropWhile before } }

/-- A context's entry comes to its sixth grant (R192, R193, R244): with no Lining cause pending it makes its claim, which carries the event
presented to it now. -/
def State.sixthGrant (s : State) (c : Ctx) : State :=
  let x := s.ctx c
  match x.entry with
  | some e =>
    if x.run = .active ∧ e.kind = .event ∧ e.made = false ∧ x.lpend = 0 then
      (s.setCtx c { x with entry := some { e with made := true } }).joinClaim ⟨c, .entry (s.presented c), s.fc, false⟩
    else s
  | none => s

/-- The oldest claim of the queue is served, one in each fc (R244, R246); those that arrived in this fc are served after it, when all of
them have joined. -/
def State.serveClaim (s : State) : State :=
  match s.evc.claims with
  | [] => s
  | q :: t =>
    if s.evcHeld || q.fc == s.fc || s.evc.servedFc == some s.fc then s else
    let s := { s with evc := { s.evc with claims := t, servedFc := some s.fc } }
    let want := match q.by' with
      | .entry n => n
      | _ => s.presented q.ctx
    let r := s.serve q.ctx want
    r.2.answerClaim q r.1

/-- The claims that a per-block reset found are answered with 0x7FF, which counts in no register (R256). -/
def State.answerVoided (s : State) : State :=
  let l := s.evc.claims.take s.evc.voided
  l.foldl (fun s q => s.answerClaim q 0x7FF) { s with evc := { s.evc with claims := s.evc.claims.drop s.evc.voided, voided := 0 } }

/-- EVENT_CLAIM (R192, R244, R246): with a context, its event entry comes to its sixth grant and claims; with none, the controller serves the
oldest claim of the queue. -/
def execEventClaim (sixth : Option Ctx) (s : State) : Out :=
  .next (match sixth with
    | some c => s.sixthGrant c
    | none => s.serveClaim)

/-- A context has a claim in the queue (R246: at most one). -/
def State.hasClaim (s : State) (c : Ctx) : Bool := s.evc.claims.any (fun q => q.ctx = c && !q.dead)

/-- A read of EVC_CLAIM (R245, R246): a context's read is a claim of the event presented to it, which joins the queue; another initiator
reads 0x7FF. -/
def State.claimRead (s : State) (who : Who) : State :=
  match who with
  | .ctx c _ => if s.hasClaim c then s else s.joinClaim ⟨c, .read, s.fc, false⟩
  | _ => s.respondWord who 0x7FF

/-- A context's load of EVC_CLAIM (R245, R246): the number that answers it, or none while its claim waits in the queue. -/
def State.claimLoad (s : State) (c : Ctx) : Option Nat × State :=
  match s.evc.answers.find? (fun p => p.1 == c.val) with
  | some p => (some p.2, { s with evc := { s.evc with answers := s.evc.answers.filter (fun q => q.1 != c.val) } })
  | none =>
    if s.hasClaim c then (none, s) else (none, s.joinClaim ⟨c, .load, s.fc, false⟩)

/-- EVC_CLAIM_READ (R245): while the controller is suspended or in a per-block reset, another initiator's read is held (R39, R255). -/
def execEvcClaimRead (who : Who) (s : State) : Out :=
  .next (match who with
    | .ctx _ _ => s.claimRead who
    | _ => if s.evcHeld then s.onRing who Reg.EVC_CLAIM none else s.claimRead who)

/-- A write to EVC_COMPLETE (R247). -/
def State.completeEvent (s : State) (who : Who) (data : Word) : State :=
  let n := Fld.EVC_COMPLETE_NUM.get data
  let a := Reg.EVC_SSTAT n
  let mine : Bool := match who with
    | .ctx c _ => n < 1536 && s.flag a Fld.EVC_SSTAT_ACT && s.fld a Fld.EVC_SSTAT_OWNER == c.val
    | _ => false
  if mine then s.setFlds a [(Fld.EVC_SSTAT_ACT, 0), (Fld.EVC_SSTAT_OWNER, 0)]
  else if n = 0x7FF then s
  else if s.flag Reg.EVC_STAT Fld.EVC_STAT_CERR then s
  else s.setFlds Reg.EVC_STAT [(Fld.EVC_STAT_CERR, 1), (Fld.EVC_STAT_CNUM, n), (Fld.EVC_STAT_CINIT, who.id)]

/-- EVC_COMPLETE (R247). -/
def execEvcComplete (who : Who) (data : Word) (s : State) : Out :=
  .next (s.evcWrite who Reg.EVC_COMPLETE data (fun s => s.completeEvent who data))

/-- SOURCE_RELEASE (R248): the controller sees a context become Off and releases every source that it owns; the start of a context
comes after it (`State.startCtx`). A suspended controller sees it after the restore (R255). -/
def execSourceRelease (c : Ctx) (s : State) : Out :=
  if (s.ctx c).run = .off ∧ s.evc.offSeen.getLsbD c.val = false ∧ s.evc.suspended = false then .next (s.seeOff c) else .next s

/-- A write to EVC_SCFGn (R249, R254): a member whose GEN is cleared or whose GRP changes is no longer held. -/
def State.scfgWrite (s : State) (n : Nat) (data : Word) : State :=
  let a := Reg.EVC_SCFG n
  let old := s.reg a
  let s := s.plainWrite a data 0
  let left := Fld.EVC_SCFG_GEN.get old = 1 &&
    (Fld.EVC_SCFG_GEN.get (s.reg a) = 0 || Fld.EVC_SCFG_GRP.get (s.reg a) != Fld.EVC_SCFG_GRP.get old)
  if left then s.setFld (Reg.EVC_SSTAT n) Fld.EVC_SSTAT_HELD 0 else s

/-- SCFG_WRITE (R249). -/
def execScfgWrite (who : Who) (n : Fin 1536) (data : Word) (s : State) : Out :=
  .next (s.evcWrite who (Reg.EVC_SCFG n) data (fun s => s.scfgWrite n data))

/-- A write to a word of a target mask (R250): words 0–2 are staged, and word 3 applies all four together. -/
def State.tgtWrite (s : State) (n w : Nat) (data : Word) : State :=
  if s.locked (Reg.EVC_TGT n w) then s
  else if w < 3 then { s with evc := { s.evc with staged := Sparse.put (Reg.EVC_TGT n w) data s.evc.staged } }
  else
    let s := [0, 1, 2].foldl (fun s i =>
      let a := Reg.EVC_TGT n i
      match Sparse.get a s.evc.staged with
      | some v => { s.setReg a v with evc := { s.evc with staged := Sparse.erase a s.evc.staged } }
      | none => s) s
    s.setReg (Reg.EVC_TGT n 3) data

/-- TGT3_WRITE (R250). -/
def execTgt3Write (who : Who) (n : Fin 1536) (data : Word) (s : State) : Out :=
  .next (s.evcWrite who (Reg.EVC_TGT n 3) data (fun s => s.tgtWrite n 3 data))

/-- A write to EVC_GCFGg or EVC_GTIMEg (R254): an armed group releases at once, and the new values apply from the next occurrence. -/
def State.groupWrite (s : State) (g : Nat) (a : Nat) (data : Word) : State :=
  let s := if s.flag (Reg.EVC_GSTAT g) Fld.EVC_GSTAT_ARMED then s.releaseGroup g else s
  s.plainWrite a data 0

/-- GROUP_CONFIG_WRITE (R254). -/
def execGroupConfigWrite (who : Who) (g : Fin 256) (time : Bool) (data : Word) (s : State) : Out :=
  let a := if time then Reg.EVC_GTIME g else Reg.EVC_GCFG g
  .next (s.evcWrite who a data (fun s => s.groupWrite g a data))

/-- WAKE_EVENT (R252): a ready source none of whose named contexts is Active wakes every Asleep one it names. -/
def execWakeEvent (n : Fin 1536) (s : State) : Out :=
  let named := allCtx.filter (fun c => s.targets n c)
  if s.ready n ∧ s.evc.suspended = false ∧ named.all (fun c => (s.ctx c).run != .active) then
    .next (named.foldl (fun s c => if (s.ctx c).run = .asleep then s.setCtx c { s.ctx c with run := .active } else s) s)
  else .next s

/-- EVENT_ENTRY (R191, R192): at a boundary with events on, a presented event starts an entry; an overflow takes its Lining entry and
claims nothing. A halt request that is due at the same boundary goes first (DESIGN CHOICE, log 79). -/
def execEventEntry (c : Ctx) (s : State) : Out :=
  let x := s.ctx c
  let t := x.status
  if (s.presented c).isSome ∧ x.canIssue ∧ x.inAccess = false ∧ x.annul = false ∧ x.midGroup = false ∧ x.shadows.isEmpty ∧ t.ie ∧ t.lvl = false ∧ t.tack = false ∧
      x.lpend = 0 ∧ x.haltDue = false then
    .next (s.startEntry c .event { code := 0x10, addr := 0 } x.slot x.pc x.npc)
  else .next s

/-- EXCEPTION_ENTRY (R174, R178): the front end's fetch at pc meets a fault or a refusal, and the context takes it; every other cause
starts its entry in the instruction that meets it. -/
def execExceptionEntry (c : Ctx) (s : State) : Out :=
  let x := s.ctx c
  if !x.canIssue || x.inAccess || x.shadowDue || !s.mayTake c || x.annul || x.lpend ≠ 0 || x.haltDue then .next s
  else match s.fetch c with
    | (.fault r l, s) => .next (s.takeXlFault c .fetch x.pc false r l)
    | (.refused, s) => .next (s.takeSync c { code := 4, addr := x.pc.zeroExtend 64 })
    | (.uncorrectable pa, s) => .next (s.takeSync c { code := 0x21, addr := BitVec.ofNat 64 (pa / 64 * 64) })
    | _ => .next s

/-- A write lands in the EVC block. -/
def State.landEvc (s : State) (who : Who) (a : Nat) (data hw : Word) : State :=
  let o := a - 0x10100000
  if a = Reg.EVC_COMPLETE then s.completeEvent who data
  else if a = Reg.EVC_DOORBELL then s.doorbell data
  else if 0x10000 ≤ o ∧ o < 0x10000 + 4 * 1536 then s.scfgWrite ((o - 0x10000) / 4) data
  else if 0x20000 ≤ o ∧ o < 0x20000 + 4 * 1536 then
    let s := s.plainWrite a data hw
    if s.flag a Fld.EVC_SSTAT_PEND then s else s.setFld a Fld.EVC_SSTAT_HELD 0
  else if 0x30000 ≤ o ∧ o < 0x30000 + 8 * 256 then s.groupWrite ((o - 0x30000) / 8) a data
  else if 0x40000 ≤ o ∧ o < 0x40000 + 16 * 1536 then s.tgtWrite ((o - 0x40000) / 16) (o % 16 / 4) data
  else s.plainWrite a data hw

/-- A read of the EVC block (R245, R258): EVC_CPRESn shows what R242 chooses. -/
def State.readEvc (s : State) (who : Who) (a : Nat) (hw : Word) : State :=
  if a = Reg.EVC_CLAIM then s.claimRead who
  else if 0x10150000 ≤ a ∧ a < 0x10150000 + 4 * 128 then
    let c : Ctx := Fin.ofNat 128 ((a - 0x10150000) / 4)
    s.respondWord who (match s.presented c with
      | some n => BitVec.ofNat 32 (2 ^ 31 + n)
      | none => 0x7FF)
  else let r := s.plainRead a hw
       r.2.respondWord who r.1

end Sys2Proof.Machine
end

