-- ==== Sys2Proof/Machine/Fp.lean ====
section
/-! DEFINITION. Floating point (R118, R130, R150 to R152): IEEE 754 binary32 and binary64 by exact integer arithmetic, rounded once. -/

namespace Sys2Proof.Machine

/-- A format: exponent bits and fraction bits. -/
structure FFmt where
  eb : Nat
  mb : Nat
  deriving DecidableEq, Repr

/-- binary32 or binary64. -/
def ffmt (dbl : Bool) : FFmt := if dbl then ⟨11, 52⟩ else ⟨8, 23⟩

/-- The exponent bias. -/
def FFmt.bias (f : FFmt) : Nat := 2 ^ (f.eb - 1) - 1

/-- A number's reading: a NaN (signalling or not), an infinity, or the finite value (−1)^neg × m × 2^e. -/
inductive FVal where
  | nan (sig : Bool)
  | inf (neg : Bool)
  | fin (neg : Bool) (m : Nat) (e : Int)
  deriving DecidableEq, Repr

/-- The reading of the low bits of a register (R128). -/
def FFmt.decode (f : FFmt) (a : Dword) : FVal :=
  let v := a.toNat % 2 ^ (f.eb + f.mb + 1)
  let neg : Bool := v / 2 ^ (f.eb + f.mb) = 1
  let ex := v / 2 ^ f.mb % 2 ^ f.eb
  let fr := v % 2 ^ f.mb
  if ex = 2 ^ f.eb - 1 then (if fr = 0 then .inf neg else .nan (fr / 2 ^ (f.mb - 1) = 0))
  else if ex = 0 then .fin neg fr (1 - (f.bias : Int) - f.mb)
  else .fin neg (fr + 2 ^ f.mb) ((ex : Int) - f.bias - f.mb)

/-- The canonical NaN (R130). -/
def FFmt.nanBits (f : FFmt) : Nat := (2 ^ f.eb - 1) * 2 ^ f.mb + 2 ^ (f.mb - 1)

/-- An infinity's encoding. -/
def FFmt.infBits (f : FFmt) (neg : Bool) : Nat := (2 ^ f.eb - 1) * 2 ^ f.mb + bit neg * 2 ^ (f.eb + f.mb)

/-- The largest finite number's encoding. -/
def FFmt.maxBits (f : FFmt) (neg : Bool) : Nat := (2 ^ f.eb - 1) * 2 ^ f.mb - 1 + bit neg * 2 ^ (f.eb + f.mb)

/-- A zero's encoding. -/
def FFmt.zeroBits (f : FFmt) (neg : Bool) : Nat := bit neg * 2 ^ (f.eb + f.mb)

/-- Sticky flags as bits of fpcsr (R118). -/
def fpNX : Nat := 16
def fpUF : Nat := 32
def fpOF : Nat := 64
def fpDZ : Nat := 128
def fpNV : Nat := 256

/-- Whether a magnitude with quotient `q` and remainder part is rounded up: `half` compares the remainder with a half (negative,
zero, positive), `exact` says there is none. The modes are those of R118. -/
def roundUp (rm : Nat) (neg exact : Bool) (q : Nat) (half : Ordering) : Bool :=
  if exact then false
  else match rm with
    | 0 => half = .gt || (half = .eq && q % 2 = 1)
    | 1 => false
    | 2 => !neg
    | _ => neg

/-- The quotient of n × 2^e by d, rounded to an integer: (result, inexact). -/
def roundInt (rm : Nat) (neg : Bool) (n d : Nat) (e : Int) : Nat × Bool :=
  let num := if 0 ≤ e then n * 2 ^ e.toNat else n
  let den := if 0 ≤ e then d else d * 2 ^ (-e).toNat
  let q := num / den
  let r := num % den
  let exact : Bool := r = 0
  (q + bit (roundUp rm neg exact q (compare (2 * r) den)), !exact)

/-- The floor of the base-2 logarithm of n / d × 2^e, for n and d above 0. -/
def floorLog (n d : Nat) (e : Int) : Int :=
  let g : Int := (n.log2 : Int) - d.log2
  let ge : Bool := if 0 ≤ g then d * 2 ^ g.toNat ≤ n else d ≤ n * 2 ^ (-g).toNat
  (if ge then g else g - 1) + e

/-- The magnitude n / d × 2^e, n and d above 0, rounded to a format: its encoding and the flags it sets (R130). -/
def FFmt.round (f : FFmt) (rm : Nat) (neg : Bool) (n d : Nat) (e : Int) : Nat × Nat :=
  let emin : Int := 1 - f.bias
  let ex := floorLog n d e
  let q : Int := max ex emin - f.mb
  let (m, inexact) := roundInt rm neg n d (e - q)
  let up := roundInt rm neg n d (e - (ex - f.mb))
  let tinyAfter : Bool := ex < emin && !(ex = emin - 1 && up.1 = 2 ^ (f.mb + 1))
  let tiny := if Config.tinyAfterRounding then tinyAfter else decide (ex < emin)
  let ex' : Int := if m = 2 ^ (f.mb + 1) then max ex emin + 1 else max ex emin
  let m' := if m = 2 ^ (f.mb + 1) then 2 ^ f.mb else m
  if (f.bias : Int) < ex' then
    let toInf : Bool := rm = 0 || (rm = 2 && !neg) || (rm = 3 && neg)
    (if toInf then f.infBits neg else f.maxBits neg, fpOF + fpNX)
  else
    let bits := if m' < 2 ^ f.mb then m' else (ex' + f.bias).toNat * 2 ^ f.mb + (m' - 2 ^ f.mb)
    (bits + f.zeroBits neg, (if inexact then fpNX + (if ex < emin then (if tiny then fpUF else 0) else 0) else 0))

/-- A signed integer times 2^e, rounded; an exact zero takes the sign `zneg`. -/
def FFmt.roundSigned (f : FFmt) (rm : Nat) (v : Int) (e : Int) (zneg : Bool) : Nat × Nat :=
  if v = 0 then (f.zeroBits zneg, 0) else f.round rm (v < 0) v.natAbs 1 e

/-- The signed mantissa. -/
def sgn (neg : Bool) (m : Nat) : Int := if neg then -(m : Int) else m

/-- The exact sum of two finite values: a signed mantissa and an exponent. -/
def exactAdd (n1 : Bool) (m1 : Nat) (e1 : Int) (n2 : Bool) (m2 : Nat) (e2 : Int) : Int × Int :=
  let e := min e1 e2
  (sgn n1 (m1 * 2 ^ (e1 - e).toNat) + sgn n2 (m2 * 2 ^ (e2 - e).toNat), e)

/-- Any signalling NaN among operands. -/
def FVal.signalling : FVal → Bool
  | .nan true => true
  | _ => false

/-- A NaN. -/
def FVal.isNan : FVal → Bool
  | .nan _ => true
  | _ => false

/-- The NaN result, with NV for a signalling operand (R130). -/
def FFmt.nanResult (f : FFmt) (nv : Bool) : Nat × Nat := (f.nanBits, if nv then fpNV else 0)

/-- The sum of two values. -/
def FFmt.add (f : FFmt) (rm : Nat) (a b : FVal) : Nat × Nat :=
  match a, b with
  | .fin n1 m1 e1, .fin n2 m2 e2 =>
    let r := exactAdd n1 m1 e1 n2 m2 e2
    f.roundSigned rm r.1 r.2 (if m1 = 0 && m2 = 0 && n1 = n2 then n1 else rm = 3)
  | .inf n1, .inf n2 => if n1 = n2 then (f.infBits n1, 0) else f.nanResult true
  | .inf n, .fin _ _ _ => (f.infBits n, 0)
  | .fin _ _ _, .inf n => (f.infBits n, 0)
  | _, _ => f.nanResult (a.signalling || b.signalling)

/-- The value with its sign reversed. -/
def FVal.neg : FVal → FVal
  | .nan q => .nan q
  | .inf n => .inf (!n)
  | .fin n m e => .fin (!n) m e

/-- The product of two values. -/
def FFmt.mul (f : FFmt) (rm : Nat) (a b : FVal) : Nat × Nat :=
  match a, b with
  | .fin n1 m1 e1, .fin n2 m2 e2 => f.roundSigned rm (sgn (n1 != n2) (m1 * m2)) (e1 + e2) (n1 != n2)
  | .inf n1, .inf n2 => (f.infBits (n1 != n2), 0)
  | .inf n1, .fin n2 m _ => if m = 0 then f.nanResult true else (f.infBits (n1 != n2), 0)
  | .fin n1 m _, .inf n2 => if m = 0 then f.nanResult true else (f.infBits (n1 != n2), 0)
  | _, _ => f.nanResult (a.signalling || b.signalling)

/-- The quotient of two values. -/
def FFmt.div (f : FFmt) (rm : Nat) (a b : FVal) : Nat × Nat :=
  match a, b with
  | .fin n1 m1 e1, .fin n2 m2 e2 =>
    if m2 = 0 then (if m1 = 0 then f.nanResult true else (f.infBits (n1 != n2), fpDZ))
    else if m1 = 0 then (f.zeroBits (n1 != n2), 0)
    else f.round rm (n1 != n2) m1 m2 (e1 - e2)
  | .inf _, .inf _ => f.nanResult true
  | .inf n1, .fin n2 _ _ => (f.infBits (n1 != n2), 0)
  | .fin n1 _ _, .inf n2 => (f.zeroBits (n1 != n2), 0)
  | _, _ => f.nanResult (a.signalling || b.signalling)

/-- The square root of a value: the integer root with 2 × mb + 6 further bits, and a half bit where it is inexact. -/
def FFmt.sqrt (f : FFmt) (rm : Nat) (a : FVal) : Nat × Nat :=
  match a with
  | .fin n m e =>
    if m = 0 then (f.zeroBits n, 0)
    else if n then f.nanResult true
    else
      let k : Nat := 2 * (f.mb + 3) + (e % 2).toNat
      let v := m * 2 ^ k
      let r := v.sqrt
      let x := if r * r = v then 2 * r else 2 * r + 1
      f.round rm false x 2 ((e - k) / 2)
  | .inf n => if n then f.nanResult true else (f.infBits false, 0)
  | .nan q => f.nanResult q

/-- The fused sum c + a × b, rounded once (R150). -/
def FFmt.fma (f : FFmt) (rm : Nat) (a b c : FVal) : Nat × Nat :=
  let zeroInf : Bool := match a, b with
    | .inf _, .fin _ m _ => m = 0
    | .fin _ m _, .inf _ => m = 0
    | _, _ => false
  if a.isNan || b.isNan then f.nanResult (a.signalling || b.signalling || c.signalling)
  else if zeroInf then f.nanResult (!c.isNan || c.signalling || Config.fmaInvalidWithNan)
  else match a, b, c with
    | _, _, .nan q => f.nanResult q
    | .fin n1 m1 e1, .fin n2 m2 e2, .fin n3 m3 e3 =>
      let r := exactAdd (n1 != n2) (m1 * m2) (e1 + e2) n3 m3 e3
      f.roundSigned rm r.1 r.2 (if m1 * m2 = 0 && m3 = 0 && (n1 != n2) = n3 then n3 else rm = 3)
    | .fin _ _ _, .fin _ _ _, .inf n => (f.infBits n, 0)
    | x, y, z =>
      let sn : FVal → Bool := fun v => match v with | .inf n => n | .fin n _ _ => n | .nan _ => false
      let p := sn x != sn y
      match z with
      | .inf n => if n = p then (f.infBits n, 0) else f.nanResult true
      | _ => (f.infBits p, 0)

/-- The order of two values that are not NaNs. -/
def FVal.compare : FVal → FVal → Ordering
  | .inf a, .inf b => if a = b then .eq else if a then .lt else .gt
  | .inf a, _ => if a then .lt else .gt
  | _, .inf b => if b then .gt else .lt
  | .fin n1 m1 e1, .fin n2 m2 e2 => Ord.compare (exactAdd n1 m1 e1 (!n2) m2 e2).1 0
  | _, _ => .eq

/-- The sign bit of a register's value in a format. -/
def FFmt.signBit (f : FFmt) (a : Dword) : Bool := a.toNat / 2 ^ (f.eb + f.mb) % 2 = 1

/-- A result in a register: FP32 results have bits [63:32] zero (R128). -/
def fpReg (n : Nat) : Dword := BitVec.ofNat 64 n

/-- A floating-point instruction of one result (R150): `f` gives the result's encoding and the sticky flags it sets (R118). -/
def State.fp (s : State) (c : Ctx) (cost : Nat) (rd : Gpr) (f : Context → Nat → Nat × Nat) : State :=
  s.instr c .plain none (fun s =>
    let x := s.ctx c
    let r := f x (x.fpcsr.toNat % 4)
    (s.setCtx c { x.wg rd (fpReg r.1) with fpcsr := x.fpcsr ||| BitVec.ofNat 9 r.2 }).done c cost)

/-- The operands' readings. -/
def Context.fv (x : Context) (dbl : Bool) (r : Gpr) : FVal := (ffmt dbl).decode (x.rg r)

/-- FADD (R150). -/
def execFadd (c : Ctx) (dbl : Bool) (rd rs1 rs2 : Gpr) (s : State) : Out :=
  .next (s.fp c 2 rd (fun x rm => (ffmt dbl).add rm (x.fv dbl rs1) (x.fv dbl rs2)))

/-- FSUB (R150). -/
def execFsub (c : Ctx) (dbl : Bool) (rd rs1 rs2 : Gpr) (s : State) : Out :=
  .next (s.fp c 2 rd (fun x rm => (ffmt dbl).add rm (x.fv dbl rs1) (x.fv dbl rs2).neg))

/-- FMUL (R150). -/
def execFmul (c : Ctx) (dbl : Bool) (rd rs1 rs2 : Gpr) (s : State) : Out :=
  .next (s.fp c (if dbl then 3 else 2) rd (fun x rm => (ffmt dbl).mul rm (x.fv dbl rs1) (x.fv dbl rs2)))

/-- FDIV (R150). -/
def execFdiv (c : Ctx) (dbl : Bool) (rd rs1 rs2 : Gpr) (s : State) : Out :=
  .next (s.fp c (if dbl then 15 else 8) rd (fun x rm => (ffmt dbl).div rm (x.fv dbl rs1) (x.fv dbl rs2)))

/-- FSQRT (R150). -/
def execFsqrt (c : Ctx) (dbl : Bool) (rd rs1 : Gpr) (s : State) : Out :=
  .next (s.fp c (if dbl then 16 else 9) rd (fun x rm => (ffmt dbl).sqrt rm (x.fv dbl rs1)))

/-- FMAC (R150). -/
def execFmac (c : Ctx) (dbl : Bool) (rd rs1 rs2 : Gpr) (s : State) : Out :=
  .next (s.fp c (if dbl then 4 else 3) rd (fun x rm => (ffmt dbl).fma rm (x.fv dbl rs1) (x.fv dbl rs2) (x.fv dbl rd)))

/-- The minimum or maximum of R151: −0 below +0, and the canonical NaN for any NaN. -/
def FFmt.minMax (f : FFmt) (wantMax : Bool) (a b : Dword) : Nat × Nat :=
  let x := f.decode a
  let y := f.decode b
  if x.isNan || y.isNan then f.nanResult (x.signalling || y.signalling)
  else
    let less : Bool := match x.compare y with
      | .lt => true
      | .gt => false
      | .eq => f.signBit a && !f.signBit b
    let pick := if less != wantMax then a else b
    (pick.toNat % 2 ^ (f.eb + f.mb + 1), 0)

/-- FMIN (R151). -/
def execFmin (c : Ctx) (dbl : Bool) (rd rs1 rs2 : Gpr) (s : State) : Out :=
  .next (s.fp c 1 rd (fun x _ => (ffmt dbl).minMax false (x.rg rs1) (x.rg rs2)))

/-- FMAX (R151). -/
def execFmax (c : Ctx) (dbl : Bool) (rd rs1 rs2 : Gpr) (s : State) : Out :=
  .next (s.fp c 1 rd (fun x _ => (ffmt dbl).minMax true (x.rg rs1) (x.rg rs2)))

/-- A sign operation of R151: the canonical NaN for a NaN, and no flag. -/
def FFmt.signOp (f : FFmt) (g : Bool → Bool) (a : Dword) : Nat × Nat :=
  if (f.decode a).isNan then (f.nanBits, 0)
  else (a.toNat % 2 ^ (f.eb + f.mb) + bit (g (f.signBit a)) * 2 ^ (f.eb + f.mb), 0)

/-- FNEG (R151). -/
def execFneg (c : Ctx) (dbl : Bool) (rd rs1 : Gpr) (s : State) : Out :=
  .next (s.fp c 1 rd (fun x _ => (ffmt dbl).signOp (fun b => !b) (x.rg rs1)))

/-- FABS (R151). -/
def execFabs (c : Ctx) (dbl : Bool) (rd rs1 : Gpr) (s : State) : Out :=
  .next (s.fp c 1 rd (fun x _ => (ffmt dbl).signOp (fun _ => false) (x.rg rs1)))

/-- A comparison's result; NV for any NaN where `quietToo`, else only for a signalling one (R151). -/
def fpTest (quietToo : Bool) (a b : FVal) (p : Ordering → Bool) : Nat × Nat :=
  if a.isNan || b.isNan then (0, if quietToo || a.signalling || b.signalling then fpNV else 0)
  else (bit (p (a.compare b)), 0)

/-- FEQ (R151). -/
def execFeq (c : Ctx) (dbl : Bool) (rd rs1 rs2 : Gpr) (s : State) : Out :=
  .next (s.fp c 1 rd (fun x _ => fpTest false (x.fv dbl rs1) (x.fv dbl rs2) (fun o => o = .eq)))

/-- FLT (R151). -/
def execFlt (c : Ctx) (dbl : Bool) (rd rs1 rs2 : Gpr) (s : State) : Out :=
  .next (s.fp c 1 rd (fun x _ => fpTest true (x.fv dbl rs1) (x.fv dbl rs2) (fun o => o = .lt)))

/-- FLE (R151). -/
def execFle (c : Ctx) (dbl : Bool) (rd rs1 rs2 : Gpr) (s : State) : Out :=
  .next (s.fp c 1 rd (fun x _ => fpTest true (x.fv dbl rs1) (x.fv dbl rs2) (fun o => o != .gt)))

/-- FCMP (R151): the condition flags from a comparison; NV only for a signalling NaN. -/
def execFcmp (c : Ctx) (dbl : Bool) (rs1 rs2 : Gpr) (s : State) : Out :=
  .next (s.instr c .plain none (fun s =>
    let x := s.ctx c
    let a := x.fv dbl rs1
    let b := x.fv dbl rs2
    let un := a.isNan || b.isNan
    let nv := if a.signalling || b.signalling then fpNV else 0
    let fl := cmpFlags (!un && a.compare b = .lt) (!un && a.compare b = .eq) un x.flags
    (s.setCtx c { x with flags := fl, fpcsr := x.fpcsr ||| BitVec.ofNat 9 nv }).done c 1))

/-- The property mask of FCLASS (R151). -/
def FFmt.classMask (f : FFmt) (a : Dword) : Nat :=
  64 * bit (f.signBit a) + match f.decode a with
    | .nan sig => 1 + 2 * bit sig
    | .inf _ => 4
    | .fin _ m _ => if m = 0 then 8 else if m < 2 ^ f.mb then 16 else 32

/-- FCLASS (R151). -/
def execFclass (c : Ctx) (dbl : Bool) (rd rs1 : Gpr) (s : State) : Out :=
  .next (s.compute c 1 rd (fun x => BitVec.ofNat 64 ((ffmt dbl).classMask (x.rg rs1))))

/-- The integer of a type code 0–3 (R152) in a register: its width and signedness. -/
def intType (t : Nat) : Nat × Bool := (if t < 2 then 32 else 64, t % 2 = 0)

/-- The conversions of R152: the result's bits and the flags set. -/
def convert (src dst rm : Nat) (a : Dword) : Nat × Nat :=
  let wide (w : Nat) (sg : Bool) (v : Int) : Nat := if w = 32 && sg then (v % 2 ^ 64).toNat else (v % 2 ^ w).toNat
  if src < 4 then
    let (w, sg) := intType src
    let v : Int := if sg then signed w a.toNat else ((a.toNat % 2 ^ w : Nat) : Int)
    (ffmt (dst = 5)).roundSigned rm v 0 false
  else
    let x := (ffmt (src = 5)).decode a
    if dst < 4 then
      let (w, sg) := intType dst
      let lo : Int := if sg then -(2 ^ (w - 1) : Nat) else 0
      let hi : Int := if sg then (2 ^ (w - 1) : Nat) - 1 else (2 ^ w : Nat) - 1
      match x with
      | .nan _ => (0, fpNV)
      | .inf n => (wide w sg (if n then lo else hi), fpNV)
      | .fin n m e =>
        let r := roundInt rm n m 1 e
        let v := sgn n r.1
        if v < lo then (wide w sg lo, fpNV) else if hi < v then (wide w sg hi, fpNV)
        else (wide w sg v, if r.2 then fpNX else 0)
    else
      let f := ffmt (dst = 5)
      match x with
      | .nan q => f.nanResult q
      | .inf n => (f.infBits n, 0)
      | .fin n m e => f.roundSigned rm (sgn n m) e n

/-- CVT (R152). -/
def execCvt (c : Ctx) (src dst : BitVec 3) (rd rs1 : Gpr) (s : State) : Out :=
  .next (s.fp c 2 rd (fun x rm => convert src.toNat dst.toNat rm (x.rg rs1)))

end Sys2Proof.Machine
end

