-- ==== Sys2Proof/Machine/IslandStore.lean ====
section
/-! DEFINITION. The island's OTP, flash, keys, parameters, log and record store (R427, R434 to R437, R446 to R449). -/

namespace Sys2Proof.Machine

/-! ### OTP (R446) -/

/-- A byte of the island's OTP. -/
def Island.otpAt (i : Island) (a : Nat) : Byte := if a < 0x40 then Config.otpByte a else (Sparse.get a i.otp).getD 0

/-- Bytes of the island's OTP. -/
def Island.otpBytes (i : Island) (a n : Nat) : List Byte := (List.range n).map (fun k => i.otpAt (a + k))

/-- Bits of OTP are programmed to 1; none returns to 0. -/
def Island.otpProgram (i : Island) (a : Nat) (l : List Byte) : Island :=
  { i with otp := l.zipIdx.foldl (fun o p =>
      let v := p.1 ||| (Sparse.get (a + p.2) o).getD 0
      if v = 0 then o else Sparse.put (a + p.2) v o) i.otp }

/-- The seal fuses programmed (R447). -/
def Island.seals (i : Island) : Nat := ((List.range 8).filter (fun k => (i.otpAt 0x40).getLsbD k)).length

/-- The island is sealed (R447). -/
def Island.sealed (i : Island) : Bool := i.seals % 2 == 1

/-- The next seal fuse is programmed. -/
def Island.burnFuse (i : Island) : Island :=
  match (List.range 8).find? (fun k => !(i.otpAt 0x40).getLsbD k) with
  | some k => i.otpProgram 0x40 [BitVec.ofNat 8 (2 ^ k)]
  | none => i

/-- The private key of a slot. -/
def Island.privKey (i : Island) (k : Nat) : List Byte := i.otpBytes (0x80 + 128 * k) 32

/-- The public key of a slot. -/
def Island.pubKey (i : Island) (k : Nat) : List Byte := i.otpBytes (0xA0 + 128 * k) 64

/-- A slot has been used: its public key is not all 0. -/
def Island.slotUsed (i : Island) (k : Nat) : Bool := (i.pubKey k).any (fun b => b != 0)

/-- A slot holds a key (R449): it has been used and its private key is not all 1. -/
def Island.holdsKey (i : Island) (k : Nat) : Bool := i.slotUsed k && (i.privKey k).any (fun b => b != 0xFF)

/-- The active key slot: the last one used, or slot 0. -/
def Island.activeSlot (i : Island) : Nat := ((List.range 4).filter (fun k => i.slotUsed k)).getLastD 0

/-! ### Parameters (R446) -/

/-- The OTP address of a parameter block. -/
def blockBase (b : Nat) : Nat := 0x300 + 384 * b

/-- A little-endian number in OTP. -/
def Island.otpNat (i : Island) (a n : Nat) : Nat := leNat (i.otpBytes a n)

/-- The decimations that MDIV may give (R428). -/
def mdivs : List Nat := [20, 25, 32, 40, 50, 64, 80]

/-- A parameter block is valid: its hash holds and its fields lie in range; a GAIN is finite (log 40). -/
def Island.blockValid (i : Island) (b : Nat) : Bool :=
  let a := blockBase b
  (i.otpAt (a + 4)).toNat < 4 && mdivs.contains (i.otpAt (a + 5)).toNat &&
  1 ≤ (i.otpAt (a + 6)).toNat && (i.otpAt (a + 6)).toNat ≤ 168 &&
  (List.range 8).all (fun c => i.otpNat (a + 8 + 8 * c) 4 / 2 ^ 23 % 256 != 255) &&
  sha256 (i.otpBytes a 352) == i.otpBytes (a + 352) 32

/-- The base of the active parameter block: the valid one with the highest PBVER, the later of equals (log 40). -/
def Island.params (i : Island) : Option Nat :=
  ((List.range 8).foldl (fun (best : Option (Nat × Nat)) b =>
    if i.blockValid b then
      let v := i.otpNat (blockBase b) 4
      match best with
      | some (w, c) => if w ≤ v then some (v, b) else some (w, c)
      | none => some (v, b)
    else best) none).map (fun p => blockBase p.2)

/-- A measurement set takes part (R429). -/
def Island.setOn (i : Island) (k : Nat) : Bool :=
  match i.params with
  | some a => (i.otpAt (a + 4)).getLsbD k
  | none => false

/-- MDIV of the active block. -/
def Island.mdiv (i : Island) (a : Nat) : Nat := (i.otpAt (a + 5)).toNat

/-- The value of a finite binary32. -/
def f32Rat (w : Nat) : Rat :=
  let e := w / 2 ^ 23 % 256
  let m : Nat := if e = 0 then 2 * (w % 2 ^ 23) else w % 2 ^ 23 + 2 ^ 23
  let v : Rat := (m * 2 ^ e : Nat) / (2 ^ 150 : Nat)
  if w / 2 ^ 31 % 2 = 1 then -v else v

/-- GAIN of a channel. -/
def Island.gain (i : Island) (a c : Nat) : Rat := f32Rat (i.otpNat (a + 8 + 8 * c) 4)

/-- OFFSET of a channel. -/
def Island.offset (i : Island) (a c : Nat) : Int := signed 32 (i.otpNat (a + 12 + 8 * c) 4)

/-! ### Flash (R427) -/

/-- A byte of flash; an erased one reads 0xFF. -/
def Island.flashAt (i : Island) (a : Nat) : Byte := (Sparse.get a i.flash).getD 0xFF

/-- Bytes of flash. -/
def Island.flashBytes (i : Island) (a n : Nat) : List Byte := (List.range n).map (fun k => i.flashAt (a + k))

/-- Flash with `n` bytes at `a` erased. -/
def Island.flashErase (i : Island) (a n : Nat) : Island :=
  { i with flash := i.flash.filter (fun p => p.1 < a || a + n ≤ p.1) }

/-- Bytes programmed into erased flash. -/
def Island.flashProgram (i : Island) (a : Nat) (l : List Byte) : Island :=
  { i with flash := l.zipIdx.foldl (fun f p => if p.1 = 0xFF then Sparse.erase (a + p.2) f else Sparse.put (a + p.2) p.1 f) i.flash }

/-- A write position enters the slot of `size` bytes at `a`: the sector that it is first in is erased (R427). A later slot of a sector is
erased already, unless a write to it was torn: then its sector is erased and its other bytes are programmed back (log 45). -/
def Island.enterSlot (i : Island) (a size : Nat) : Island :=
  let sec := a / 4096 * 4096
  if a = sec then i.flashErase sec 4096
  else if (i.flashBytes a size).all (fun b => b == 0xFF) then i
  else
    let kept := i.flash.filter (fun p => sec ≤ p.1 && p.1 < sec + 4096 && !(a ≤ p.1 && p.1 < a + size))
    let i := i.flashErase sec 4096
    { i with flash := kept.foldl (fun f p => Sparse.put p.1 p.2 f) i.flash }

/-- What failed operation `n` leaves of `len` bytes at `a` (log 45). -/
def Island.tear (i : Island) (n a len : Nat) : Island := i.flashProgram a ((List.range len).map (Config.flashTorn n))

/-- A slot of `size` bytes at `a` takes its bytes in one operation of erasing and programming, which may fail (R437): then what stands in it, or in
the sector it is first in, is free. The answer says whether it succeeded. -/
def Island.put (i : Island) (a size : Nat) (l : List Byte) : Bool × Island :=
  let n := i.flashOps
  let w := { i.enterSlot a size with flashOps := n + 1 }
  if Config.flashFails n then (false, w.tear n a (if a % 4096 = 0 then 4096 else size)) else (true, w.flashProgram a l)

/-- The commit word of a slot, 4 bytes before its end, after the slot's bytes are in place (R435); that of a slot whose writing failed is torn or
still erased. -/
def Island.commit (p : Bool × Island) (a size : Nat) : Island :=
  let i := p.2
  let t k := Config.flashTorn i.flashOps k
  i.flashProgram (a + size - 4) (if p.1 then [0, 0, 0, 0] else [t 0 ||| 1, t 1, t 2, t 3])

/-- The firmware extension in flash (R427, R448): the bytes of its area up to the last one programmed, where any is (log 41). -/
def Island.extension (i : Island) : Option (List Byte) :=
  (i.flash.filter (fun p => p.1 < 0x100000)).getLast?.map (fun p => i.flashBytes 0 (p.1 + 1))

/-! ### The event log (R437) -/

/-- The flash address of a log entry. -/
def logAddr (n : Nat) : Nat := 0x1400000 + 32 * ((n - 1) % 262144)

/-- The CRC-32 of IEEE 802.3 of bytes. -/
def logCrc (l : List Byte) : Nat := (~~~(crcBytes 0xFFFFFFFF l)).toNat

/-- A sub-second count (R432): 0–24,999,999. In a lengthened second it stands at its end once it has reached it (log 40). -/
def subCount (i : Island) (p : Nat) : Nat := min p (min i.len 25000000 - 1)

/-- The sub-second count at present. -/
def Island.subNow (i : Island) : Nat := subCount i i.sub

/-- One log entry is written (R437); the answer says whether its writing succeeded. -/
def Island.logEntry (i : Island) (code : Nat) (data : Int) : Bool × Island :=
  let n := i.lseq + 1
  let e := leBytes 4 n ++ leBytes 2 code ++ leBytes 2 0 ++ leBytes 8 i.sec ++ leBytes 4 i.subNow ++ leBytes 8 (data % 2 ^ 64).toNat
  let r := i.put (logAddr n) 32 (e ++ leBytes 4 (logCrc e))
  (r.1, { r.2 with lseq := n })

/-- A log entry is made (R437). Where its writing fails, the flash error is logged in the next entry; a failure of that one is not logged
again (log 45). -/
def Island.log (i : Island) (code : Nat) (data : Int) : Island :=
  let r := i.logEntry code data
  if r.1 then r.2 else (r.2.logEntry 0x40 (logAddr (i.lseq + 1))).2

/-- The log entry with a number, where flash still holds it. -/
def Island.readLog (i : Island) (n : Nat) : Option (List Byte) :=
  let e := i.flashBytes (logAddr n) 32
  if 1 ≤ n ∧ leNat (e.take 4) = n ∧ leNat (e.drop 28) = logCrc (e.take 28) then some e else none

/-- The numbers `lo … hi`. -/
def fromTo (lo hi : Nat) : List Nat := (List.range (hi + 1 - lo)).map (fun k => lo + k)

/-! ### Records (R434, R435) -/

/-- The flash address of record `r`. -/
def recAddr (r : Nat) : Nat := 0x400000 + 512 * ((r - 1) % 32768)

/-- The signature of a record is valid (R435): under the public key of a key slot, or all zero in a record that carries UNSEALED. -/
def Island.sigValid (i : Island) (b : List Byte) : Bool :=
  let sig := (b.drop 0x110).take 64
  let h := sha256 (b.take 0x110)
  (List.range 4).any (fun k => ecdsaVerify (i.pubKey k) h sig) ||
  (sig.all (fun x => x == 0) && (b.getD 6 0).getLsbD 6)

/-- Record `r`, where its slot is valid and holds it (R435). -/
def Island.readRec (i : Island) (r : Nat) : Option (List Byte) :=
  let b := i.flashBytes (recAddr r) 336
  if 1 ≤ r ∧ i.flashBytes (recAddr r + 508) 4 = [0, 0, 0, 0] ∧ leNat (b.take 4) = r ∧ i.sigValid b = true then some b else none

/-- The number that a slot of the record ring holds, where the slot is valid (R435). -/
def Island.slotRec (i : Island) (slot : Nat) : Option Nat :=
  let r := leNat (i.flashBytes (0x400000 + 512 * slot) 4)
  if 1 ≤ r ∧ (r - 1) % 32768 = slot then (i.readRec r).map (fun _ => r) else none

/-- TEND of a record. -/
def recTend (b : List Byte) : Nat := leNat ((b.drop 8).take 8)

/-- The numbers of the valid records in flash, ascending. -/
def Island.recNums (i : Island) : List Nat := (fromTo (i.rnum - 32767) i.rnum).filter (fun r => (i.readRec r).isSome)

/-- The numbers of the log entries in flash, ascending. -/
def Island.logNums (i : Island) : List Nat := (fromTo (i.lseq - 262143) i.lseq).filter (fun n => (i.readLog n).isSome)

/-- FLAGS of a record (R434). -/
def IslClosed.flags (c : IslClosed) : Nat :=
  bit (c.period.secs.sum < 300) + 2 * bit c.ploss + 4 * bit c.cklost + 8 * bit c.tstep + 16 * bit c.period.unsync +
  32 * bit c.period.modf + 64 * bit c.period.unsealed + 128 * bit c.period.start

/-- Bytes 0x000–0x10F of the record of a period that has ended (R434). -/
def Island.recordBody (i : Island) (c : IslClosed) : List Byte :=
  leBytes 4 (i.rnum + 1) ++ leBytes 2 0x100 ++ leBytes 2 c.flags ++ leBytes 8 c.tend ++ leBytes 2 c.period.secs.sum ++
  leBytes 1 c.sys ++ leBytes 1 (bit c.tq) ++ leBytes 4 c.logseq ++ c.period.secs.flatMap (fun n => leBytes 2 n) ++ leBytes 4 0 ++
  i.otpBytes 0 8 ++ c.energy.flatMap (fun e => leBytes 8 (e.tdiv (2 ^ 32) % 2 ^ 64).toNat) ++
  sha256 ((fromTo (i.recSeq + 1) c.logseq).flatMap (fun n => (i.readLog n).getD [])) ++ i.prevH

/-- The record of a period that has ended, signed with the active key (R434, R448), or with zeros while no key exists. -/
def Island.record (i : Island) (c : IslClosed) : List Byte :=
  let body := i.recordBody c
  body ++ (if i.holdsKey i.activeSlot then ecdsaSign (beNat (i.privKey i.activeSlot)) (sha256 body) else List.replicate 64 0)

/-! ### Periods (R434) -/

/-- The record of a period that has ended is written, read back and committed (R435); where that fails, it is logged, and the record's number stays
free (log 45). -/
def Island.makeRecord (i : Island) (c : IslClosed) (rest : List IslClosed) (verified : Bool) : Island :=
  let a := recAddr (i.rnum + 1)
  let b := i.record c
  let n := i.flashOps
  let w := { i.enterSlot a 512 with flashOps := n + 1 }
  if verified then
    { Island.commit (true, w.flashProgram a b) a 512 with
      closed := rest, rnum := i.rnum + 1, prevH := sha256 (b.take 0x110), recSeq := c.logseq }
  else (Island.commit (false, w.tear n a 336) a 512).log 0x40 a

/-- A channel of a set that takes part has a modulator fault or is overranged. -/
def Island.anyFault (i : Island) : Bool := (List.finRange 8).any (fun (c : Fin 8) => (i.chans[c]).fault || (i.chans[c]).ranged)

/-- A period that begins now. -/
def Island.newPeriod (i : Island) (start : Bool) : IslPeriod := ⟨[0, 0, 0, 0, 0, 0], start, i.anyFault, !i.synced, !i.sealed⟩

/-- The period in progress ends at island time `tend`. -/
def Island.closePeriod (i : Island) (tend : Nat) (tstep : Bool) : Island :=
  let c : IslClosed := ⟨i.period, tend, i.cls, i.synced, i.lseq, i.energy, false, i.cklost, tstep⟩
  { i with closed := i.closed ++ [c], cklost := false, period := i.newPeriod false }

/-! ### Checkpoints (R435) -/

/-- What a checkpoint holds (R435): its number, the record number that it follows, the counters with their fractions, the period in progress, its last
classification, island time, synchronisation, the last log entry's number, and CKLOST for the next record. -/
structure IslCheckpoint where
  seq : Nat
  rnum : Nat
  energy : List Int
  period : IslPeriod
  sys : Nat
  sec : Nat
  sub : Nat
  tq : Bool
  lseq : Nat
  cklost : Bool
  deriving DecidableEq, Repr

/-- The flash address of checkpoint slot `k`: one to a sector (R427, log 45). -/
def ckptAddr (k : Nat) : Nat := 0x100000 + 4096 * k

/-- The counters that can be other than 0: four for each AC system and two for each DC system (R431). -/
def usedCounters : List Nat := [0, 1, 2, 3, 4, 5, 6, 7, 8, 9, 12, 13, 16, 17]

/-- The bytes of a checkpoint before its commit word, in the model's layout (log 45): 12 bytes for a counter in units of 2⁻³² Wh. -/
def IslCheckpoint.bytes (c : IslCheckpoint) : List Byte :=
  let p := c.period
  leBytes 4 c.seq ++ leBytes 4 c.rnum ++ leBytes 8 c.sec ++ leBytes 4 c.sub ++ leBytes 4 c.lseq ++ p.secs.flatMap (fun n => leBytes 2 n) ++
  leBytes 1 c.sys ++
  leBytes 1 (bit c.tq + 2 * bit p.start + 4 * bit p.modf + 8 * bit p.unsync + 16 * bit p.unsealed + 32 * bit c.cklost) ++ leBytes 2 0 ++
  usedCounters.flatMap (fun k => leBytes 12 (c.energy.getD k 0 % 2 ^ 96).toNat) ++ List.replicate 44 0

/-- The checkpoint that 252 bytes hold. -/
def readCheckpoint (b : List Byte) : IslCheckpoint :=
  let n (o k : Nat) : Nat := leNat ((b.drop o).take k)
  let fl (k : Nat) : Bool := (b.getD 37 0).getLsbD k
  let e (k : Nat) : Int := match usedCounters.idxOf? k with
    | some j => signed 96 (n (40 + 12 * j) 12)
    | none => 0
  ⟨n 0 4, n 4 4, (List.range 20).map e, ⟨(List.range 6).map (fun k => n (24 + 2 * k) 2), fl 1, fl 2, fl 3, fl 4⟩, n 36 1, n 8 8, n 16 4, fl 0,
   n 20 4, fl 5⟩

/-- The checkpoint slots whose commit word is programmed, each with its number. -/
def Island.checkpoints (i : Island) : List (Nat × Nat) :=
  ((List.range 64).filter (fun k => i.flashBytes (ckptAddr k + 252) 4 == [0, 0, 0, 0])).map (fun k => (leNat (i.flashBytes (ckptAddr k) 4), k))

/-- The newest of numbered slots. -/
def newest (l : List (Nat × Nat)) : Option (Nat × Nat) :=
  l.foldl (fun best x => match best with
    | some b => if b.1 ≤ x.1 then some x else some b
    | none => some x) none

/-- The newest valid checkpoint. -/
def Island.checkpoint (i : Island) : Option IslCheckpoint :=
  (newest i.checkpoints).map (fun x => readCheckpoint (i.flashBytes (ckptAddr x.2) 252))

/-- The checkpoint of the present (R435). -/
def Island.presentCkpt (i : Island) (seq : Nat) : IslCheckpoint :=
  ⟨seq, i.rnum, i.energy, i.period, i.cls, i.sec, i.subNow, i.synced, i.lseq, i.cklost⟩

/-- A checkpoint goes into the slot after the newest one's (R435); the answer says whether its writing succeeded. -/
def Island.writeCheckpoint (i : Island) : Bool × Nat × Island :=
  let next := match newest i.checkpoints with
    | some x => (x.1 + 1, (x.2 + 1) % 64)
    | none => (1, 0)
  let a := ckptAddr next.2
  let r := i.put a 256 (i.presentCkpt next.1).bytes
  (r.1, a, Island.commit r a 256)

end Sys2Proof.Machine
end

