-- ==== Sys2Proof/Machine/Island.lean ====
section
/-! DEFINITION. The island: measurement, time, periods, power loss, restart and configuration (R422 to R437, R446 to R449). Readings and choices: logs 29, 64. -/

namespace Sys2Proof.Machine

/-- The island changed. -/
def State.setIsl (s : State) (i : Island) : State := { s with isl := i }

/-! ### Measurement (R428 to R431) -/

/-- The sums of every window of `r` numbers. -/
def boxcar (r : Nat) : List Nat → List Nat
  | [] => []
  | x :: t => if t.length + 1 < r then [] else ((x :: t).take r).sum :: boxcar r t

/-- The third-order sinc filter with decimation `r` over the newest 3r bits (R428). -/
def sinc3 (r : Nat) (l : List Bool) : Nat := (boxcar r (boxcar r (boxcar r (l.map bit)))).getLastD 0

/-- The filter's output scaled to −1 ≤ y < 1 of full scale. -/
def scaled (r n : Nat) : Rat :=
  let y : Rat := ((2 * n : Int) - (r ^ 3 : Nat) : Int) / (r ^ 3 : Nat)
  let top : Rat := (2 ^ 23 - 1 : Nat) / (2 ^ 23 : Nat)
  if top < y then top else y

/-- The clock periods since the last transition after bits. -/
def quietAfter (last : Option Bool) (q : Nat) : List Bool → Nat
  | [] => q
  | b :: t => quietAfter (some b) (if last = some b then q + 1 else 0) t

/-- The clock periods without a transition reach 64 within bits. -/
def quietReached (last : Option Bool) (q : Nat) : List Bool → Bool
  | [] => false
  | b :: t =>
    let n := if last = some b then q + 1 else 0
    n == 64 || quietReached (some b) n t

/-- A channel takes the bits of a sample interval (R428, R429): the channel, and the filter's output. -/
def IslChan.sample (c : IslChan) (r : Nat) (new : List Bool) : IslChan × Nat :=
  let all := c.bits ++ new
  let win := all.drop (all.length - 3 * r)
  let n := sinc3 r win
  let full := if n = 0 ∨ n = r ^ 3 then c.full + 1 else 0
  ({ c with bits := win.drop r, quiet := quietAfter c.bits.getLast? c.quiet new, full := full,
            seen := c.seen || quietReached c.bits.getLast? c.quiet new }, n)

/-- A modulator fault lasts (R429). -/
def IslChan.faulty (c : IslChan) : Bool := 64 ≤ c.quiet

/-- An overrange lasts (R429). -/
def IslChan.over25 (c : IslChan) : Bool := 25 ≤ c.full

/-- A modulator fault of a channel is to be noted as lasting (R429): one that began and ended within an interval is still noted, and so is
its end. -/
def IslChan.faultNow (c : IslChan) : Bool := if c.fault then c.faulty && !c.seen else c.faulty || c.seen

/-- The physical value of a channel's sample (R429). -/
def Island.value (i : Island) (a : Nat) (c : Fin 8) (r n : Nat) : Rat :=
  let ch := i.chans[c]
  if ch.faulty || ch.over25 then 0 else (scaled r n - (i.offset a c : Rat) / (2 ^ 23 : Nat)) * i.gain a c

/-- A set takes one sample of its four channels (R430, R431). -/
def IslSet.add (x : IslSet) (v c dv dc : Rat) : IslSet :=
  let f16 := Config.allPass false x.filt16 v
  let f50 := Config.allPass true x.filt50 v
  let up := x.prev < 0 ∧ 0 ≤ v
  { x with
    n := x.n + 1, vac2 := x.vac2 + v * v, iac2 := x.iac2 + c * c, vdc := x.vdc + dv, idc := x.idc + dc
    pac := x.pac + v * c, pdc := x.pdc + dv * dc
    q16 := x.q16 + mkRat f16.1 f16.2.1 * c, q50 := x.q50 + mkRat f50.1 f50.2.1 * c
    filt16 := f16.2.2, filt50 := f50.2.2
    cross := if up then x.cross + 1 else x.cross
    first := if up ∧ x.cross = 0 then x.n else x.first
    last := if up then x.n else x.last
    prev := v }

/-- The bits of a sample suit the channels: one interval's, or the first three after a start (R428). -/
def Island.bitsFit (i : Island) (r : Nat) (streams : List (List Bool)) : Bool :=
  streams.length == 8 && (List.finRange 8).all (fun (c : Fin 8) =>
    let n := (streams.getD c []).length
    if (i.chans[c]).bits.isEmpty then n == 3 * r else n == r)

/-- The island measures one sample with the parameter block at `a`. -/
def Island.measure (i : Island) (a : Nat) (streams : List (List Bool)) : Island :=
  let r := 16000 / i.mdiv a
  let s : Vector (IslChan × Nat) 8 := Vector.ofFn (fun (c : Fin 8) => (i.chans[c]).sample r (streams.getD c []))
  let i : Island := { i with chans := s.map Prod.fst }
  let x (c : Fin 8) : Rat := i.value a c r (s[c]).2
  let s0 := if i.setOn 0 then (i.sets[0]).add (x 0) (x 1) (x 2) (x 3) else i.sets[0]
  let s1 := if i.setOn 1 then (i.sets[1]).add (x 4) (x 5) (x 6) (x 7) else i.sets[1]
  { i with sets := #v[s0, s1] }

/-- Time runs on by one sample interval of 1,000 sc. -/
def Island.pass (i : Island) : Island := { i with sub := i.sub + 1000, sc := i.sc + 1000 }

/-- MEASUREMENT_SAMPLE (R428, R429, R431): while no parameter block is valid, time passes and nothing is measured (R446). -/
def execMeasurementSample (streams : List (List Bool)) (s : State) : Out :=
  let i := s.isl
  if i.running && i.sub < i.len then
    match i.params with
    | none => .next (s.setIsl i.pass)
    | some a => if i.bitsFit (16000 / i.mdiv a) streams then .next (s.setIsl (i.measure a streams).pass) else .next s
  else .next s

/-- MODULATOR_FAULT (R429): the island takes note that a modulator fault, or an overrange, of a channel has begun or ended. -/
def execModulatorFault (ch : Fin 8) (ranged : Bool) (s : State) : Out :=
  let i := s.isl
  let c := i.chans[ch]
  let is := if ranged then c.over25 else c.faultNow
  let was := if ranged then c.ranged else c.fault
  if i.running = false ∨ i.setOn (ch / 4) = false ∨ is = was then .next s
  else
    let i := { i with chans := i.chans.set ch (if ranged then { c with ranged := is } else { c with fault := is, seen := c.seen && !is }) }
    let i := if is then { i with period := { i.period with modf := true } } else i
    .next (s.setIsl (i.log ((if ranged then 0x32 else 0x30) + (if is then 0 else 1)) ch))

/-- The classification of a set's second (R430). -/
def IslSet.classify (x : IslSet) : Nat :=
  if x.n = 0 then 15
  else
    let v2 := x.vac2 / x.n
    let d := x.vdc / x.n
    let f : Rat := if x.cross < 2 then 0 else mkRat ((x.cross - 1 : Nat) * 25000) (x.last - x.first)
    let rms (lo hi : Rat) : Bool := lo * lo ≤ v2 && v2 ≤ hi * hi
    if rms 11000 19000 && mkRat 31 2 ≤ f && f ≤ mkRat 35 2 then 0
    else if rms 17500 29500 && 47 ≤ f && f ≤ 53 then 1
    else if 2000 ≤ d && d ≤ 4000 then 2
    else if 1000 ≤ d && d ≤ 1999 then 3
    else if 400 ≤ d && d ≤ 999 then 4
    else 15

/-- The classification of the device, and the set that decides it (R430). -/
def Island.classify (i : Island) : Nat × Nat :=
  let a := if i.setOn 0 then (i.sets[0]).classify else 15
  if a ≠ 15 then (a, 0) else ((if i.setOn 1 then (i.sets[1]).classify else 15), 1)

/-- The active and reactive energy of a set's second, in Wh (R431). -/
def IslSet.energy (x : IslSet) : Rat × Rat :=
  let k : Rat := 90000000
  match x.classify with
  | 0 => (x.pac / k, x.q16 / k)
  | 1 => (x.pac / k, x.q50 / k)
  | 15 => (0, 0)
  | _ => (x.pdc / k, 0)

/-- E and Q of a second, over the sets that take part. -/
def Island.energies (i : Island) : Rat × Rat :=
  let a := if i.setOn 0 then (i.sets[0]).energy else (0, 0)
  let b := if i.setOn 1 then (i.sets[1]).energy else (0, 0)
  (a.1 + b.1, a.2 + b.2)

/-- A value in Wh as a count of 2⁻³² Wh, truncated. -/
def toCount (e : Rat) : Int := (e.num * 2 ^ 32).tdiv e.den

/-- The counters after a second of system `cls` (R431). -/
def addEnergy (l : List Int) (cls : Nat) (e q : Rat) : List Int :=
  if cls = 15 then l
  else
    let act := 4 * cls + (if 0 ≤ e then 0 else 1)
    let rea := 4 * cls + (if 0 ≤ e then 2 else 3)
    let l := l.set act (l.getD act 0 + toCount (if 0 ≤ e then e else -e))
    if cls ≤ 1 then l.set rea (l.getD rea 0 + toCount q) else l

/-- A set at the start of a second. -/
def IslSet.next (x : IslSet) : IslSet := { IslSet.reset with prev := x.prev, filt16 := x.filt16, filt50 := x.filt50 }

/-- The energy gathered since the last second's end goes into the counters, and a second starts. -/
def Island.settle (i : Island) : Island :=
  let e := i.energies
  { i with energy := addEnergy i.energy i.classify.1 e.1 e.2, sets := i.sets.map IslSet.next }

/-- A number as binary32 or binary64, rounded to nearest (R439, log 43). -/
def ratBits (dbl : Bool) (x : Rat) : Nat := if x.num = 0 then 0 else ((ffmt dbl).round 0 (x.num < 0) x.num.natAbs x.den 0).1

/-- The square root of a number that is not negative as binary32, rounded to nearest. -/
def rmsBits (x : Rat) : Nat :=
  let n := x.num.natAbs * 2 ^ 320
  let m := Nat.sqrt (n / x.den)
  if x.num = 0 then 0 else ((ffmt false).round 0 false (2 * m + bit (m * m * x.den != n)) 1 (-161)).1

/-- AC and DC voltage and current of a set's second (R439): root mean squares and means. -/
def IslSet.valueBytes (x : IslSet) : List Byte :=
  let n : Rat := if x.n = 0 then 1 else (x.n : Rat)
  leBytes 4 (rmsBits (x.vac2 / n)) ++ leBytes 4 (rmsBits (x.iac2 / n)) ++ leBytes 4 (ratBits false (x.vdc / n)) ++
  leBytes 4 (ratBits false (x.idc / n))

/-- The payload of the status message of the second that has just ended (R439), its fields packed in the rule's order, least significant byte
first (log 43). -/
def Island.statusBytes (i : Island) : List Byte :=
  let e := i.energies
  let r := i.recNums
  leBytes 1 i.classify.1 ++ i.sets.toList.flatMap IslSet.valueBytes ++ leBytes 8 (ratBits true e.1) ++ leBytes 8 (ratBits true e.2) ++
  leBytes 1 (bit i.synced) ++ leBytes 4 (r.getLastD 0) ++ leBytes 4 (r.headD 0) ++ leBytes 4 i.lseq ++ leBytes 1 (bit i.sealed)

/-- SECS with one more second of a classification (R434). -/
def countSecond (l : List Nat) (cls : Nat) : List Nat :=
  let k := if cls = 15 then 5 else cls
  l.set k (l.getD k 0 + 1)

/-- The length of the next second while an offset is slewed (R432): 250,000 sc at most. -/
def slewStep (e : Int) : Int := clampInt (-250000) 250000 e

/-- A second of island time ends (R430, R431, R432, R434). One that a power fail cut began before the period in progress and is not counted in
it (log 45). -/
def Island.secondEnd (i : Island) : Island :=
  let cls := i.classify
  let i := if cls.1 ≠ 15 ∧ i.lastSys ≠ 15 ∧ cls.1 ≠ i.lastSys then i.log 0x20 (i.lastSys + 256 * cls.1 + 65536 * cls.2 : Nat) else i
  let i := { i.settle with cls := cls.1, lastSys := if cls.1 = 15 then i.lastSys else cls.1, status := some i.statusBytes }
  let d := slewStep i.slew
  let i : Island := { i with
    period := { i.period with secs := if i.cut then i.period.secs else countSecond i.period.secs cls.1 }, cut := false,
    sec := i.sec + 1, sub := i.sub - i.len, len := (25000000 + d).toNat, slew := i.slew - d }
  if i.sec % 300 = 0 then i.closePeriod i.sec false else i

/-- SECOND_END (R430). -/
def execSecondEnd (s : State) : Out :=
  if s.isl.running ∧ s.isl.len ≤ s.isl.sub then .next (s.setIsl s.isl.secondEnd) else .next s

/-! ### Records (R434, R435) -/

/-- DATA_PERIOD_END (R434, R435): the record of the oldest period that has ended is built, signed and written, read back, and committed. The
operand says whether flash did all of that rightly. -/
def execDataPeriodEnd (verified : Bool) (s : State) : Out :=
  let i := s.isl
  match i.running, i.closed with
  | true, c :: rest => .next (s.setIsl (i.makeRecord c rest verified))
  | _, _ => .next s

/-! ### Time (R432, R433) -/

/-- One bit of the CRC-16/CCITT-FALSE. -/
def crc16Bit (c : BitVec 16) : BitVec 16 := if c.getLsbD 15 then (c <<< 1) ^^^ 0x1021 else c <<< 1

/-- CRC-16/CCITT-FALSE of bytes. -/
def crc16 (l : List Byte) : BitVec 16 :=
  l.foldl (fun c b => crc16Bit (crc16Bit (crc16Bit (crc16Bit (crc16Bit (crc16Bit (crc16Bit (crc16Bit
    (c ^^^ BitVec.ofNat 16 (b.toNat * 256)))))))))) 0xFFFF

/-- TIME_MESSAGE (R432): one that is not as R432 has it is no message. Where in the sample interval its last stop bit fell is free (log 40). -/
def execTimeMessage (bytes : List Byte) (s : State) : Out :=
  let sec := (bytes.drop 2).take 8
  if s.isl.running ∧ bytes.length = 12 ∧ bytes.take 2 = [0x55, 0xAA] ∧ bytes.drop 10 = leBytes 2 (crc16 sec).toNat then
    .next { s.setIsl { s.isl with tod := some (leNat sec, s.isl.sc + Config.freeNat s.free % 1000) } with free := s.free + 1 }
  else .next s

/-- Island time `after` sc after the last sample (R432): the second, and the sub-second count. -/
def Island.timeAt (i : Island) (after : Nat) : Nat × Nat :=
  let p := i.sub + after - 1000
  if p < i.len then (i.sec, subCount i p) else (i.sec + 1, min (p - i.len) 24999999)

/-- A valid edge at which island time is `e` sc ahead (R432, R433); the message gives second `S`, and the edge fell `after` sc after the
last sample. -/
def Island.edge (i : Island) (sec : Nat) (e : Int) (after : Nat) : Island :=
  let i := { i with tod := none, offNs := e * 40 }
  if -25000000 < e ∧ e < 25000000 then
    let i := { i with slew := e - (i.len - 25000000 : Int) }
    if -250000 < e ∧ e < 250000 then { i with good := some (i.sc + after) } else i
  else
    let i := i.settle
    let i := i.closePeriod (i.timeAt after).1 true
    ({ i with sec := sec, sub := 1000 - after, len := 25000000, slew := 0, cut := false }).log 0x10 (e * 40)

/-- PPS_EDGE (R432): a rising edge of SEL_PPS, `after` sc after the last sample. -/
def execPpsEdge (after : Fin 1000) (s : State) : Out :=
  let i := s.isl
  match i.running, i.tod with
  | true, some (sec, t) =>
    if i.sc + after.val ≤ t + 25000000 then
      let now := i.timeAt after
      let e := ((now.1 : Int) - sec) * 25000000 + now.2
      .next (s.setIsl (i.edge sec e after))
    else .next s
  | _, _ => .next s

/-- Island time is synchronised (R433). -/
def Island.inSync (i : Island) : Bool :=
  match i.good with
  | some t => i.sc ≤ t + 250000000
  | none => false

/-- SYNC_STATE_CHANGE (R433). -/
def execSyncStateChange (s : State) : Out :=
  let i := s.isl
  let v := i.inSync
  if i.running = false ∨ v = i.synced then .next s
  else
    let i := { i with synced := v, period := { i.period with unsync := i.period.unsync || !v } }
    .next (s.setIsl (if v then i.log 0x11 i.offNs else i.log 0x12 0))

/-! ### Stops and restarts (R426, R435, R436, R450) -/

/-- The island stops: its SRAM is lost, and with it the side of the queue that it fills. -/
def State.islStop (s : State) (i : Island) : State :=
  { s with isl := { i with running := false, debug := false, sram := [], sramErr := [], queue := [] }, selm := { s.selm with writing := false } }

/-- A checkpoint is written and the power fail logged (R435); where the checkpoint fails, the flash error is logged first, and the power fail
says that none was written (R437). -/
def Island.powerFail (i : Island) : Island :=
  let r := i.settle.writeCheckpoint
  if r.1 then r.2.2.log 0x02 1 else (r.2.2.log 0x40 r.2.1).log 0x02 0

/-- POWER_FAIL (R435): a checkpoint, the log entry, and the stop. -/
def execPowerFail (s : State) : Out := .next (if s.isl.running then s.islStop s.isl.powerFail else s)

/-- ISLAND_POWER_LOST (R450): no checkpoint. -/
def execIslandPowerLost (s : State) : Out := .next (if s.isl.running then s.islStop s.isl else s)

/-- SEL_RST_N (R426). -/
def execSelRstN (s : State) : Out := .next (if s.isl.running then s.islStop s.isl else s)

/-- The hash of the firmware extension in flash, or zeros where there is none (R448). -/
def Island.extHash (i : Island) : List Byte :=
  match i.extension with
  | some b => sha256 b
  | none => List.replicate 32 0

/-- The extension's stored hash of the present seal cycle (R448). -/
def Island.storedHash (i : Island) : List Byte := i.otpBytes (0x280 + 32 * ((i.seals - 1) / 2)) 32

/-- The energy counters of a record, in units of 2⁻³² Wh. -/
def recEnergy (b : List Byte) : List Int := (List.range 20).map (fun k => signed 64 (leNat ((b.drop (0x30 + 8 * k)).take 8)) * 2 ^ 32)

/-- The restart of R436. The interrupted period's record is made before the power-up is logged; where flash fails on it, it waits for
DATA_PERIOD_END (log 45). -/
def Island.restart (i : Island) : Island :=
  let rnum := ((List.range 32768).filterMap (fun k => i.slotRec k)).foldl max 0
  let lseq := ((List.range 262144).filterMap (fun k =>
    let n := leNat (i.flashBytes (0x1400000 + 32 * k) 4)
    (i.readLog n).map (fun _ => n))).foldl max 0
  let last := (i.readRec rnum).getD []
  let reject := i.sealed && i.extHash != i.storedHash
  let ck := i.checkpoint.filter (fun c => c.rnum == rnum)
  let b : Island := { i with
    running := true, debug := false, fwLoaded := i.extension.isSome && !reject, len := 25000000, slew := 0, tod := none, good := none,
    offNs := 0, synced := false, chans := Vector.replicate 8 IslChan.reset, sets := Vector.replicate 2 IslSet.reset,
    cls := 15, lastSys := 15, closed := [], rnum := rnum, lseq := lseq,
    prevH := if rnum = 0 then List.replicate 32 0 else sha256 (last.take 0x110), recSeq := leNat ((last.drop 0x14).take 4),
    ready := false, sendId := false, replayRecs := [], replayLogs := [], status := none, mseq := 0, queue := [], reply := .none }
  let b := match ck with
    | some c => { b with sec := c.sec, sub := c.sub, cut := 0 < c.sub, energy := c.energy, cklost := false }
    | none => { b with sec := if rnum = 0 then 0 else recTend last, sub := 0, cut := false, cklost := true,
                       energy := if rnum = 0 then List.replicate 20 0 else recEnergy last }
  let b := if reject then b.log 0x54 0 else b
  let b := match ck with
    | some c =>
      let p : IslClosed := ⟨c.period, c.sec, c.sys, c.tq, c.lseq, c.energy, true, c.cklost, false⟩
      { b with closed := [p] }.makeRecord p [] (!Config.flashFails b.flashOps)
    | none => b.log 0x03 0
  let b := b.log 0x01 b.rnum
  { b with period := b.newPeriod true }

/-- ISLAND_RESTART (R426, R436). -/
def execIslandRestart (s : State) : Out := .next (if s.isl.running then s else s.setIsl s.isl.restart)

/-! ### The configuration port (R447 to R449) -/

/-- The answer of the configuration port, to a command that the running island takes. -/
def State.cfg (s : State) (i : Island) (r : CfgReply) : State := s.setIsl { i with reply := r }

/-- CFG_READ_IDENTITY (R447). -/
def execCfgReadIdentity (s : State) : Out :=
  let i := s.isl
  if i.running then .next (s.cfg i (.identity (i.otpBytes 0 0x40) i.seals ((List.range 4).map (fun k => i.pubKey k)))) else .next s

/-- The next free parameter block: the first after every block that holds anything. -/
def Island.freeBlock (i : Island) : Option Nat :=
  let used := (List.range 8).filter (fun b => (i.otpBytes (blockBase b) 384).any (fun x => x != 0))
  let n := match used.getLast? with
    | some b => b + 1
    | none => 0
  if n < 8 then some n else none

/-- The channels start afresh where the parameters change. -/
def Island.refilter (i : Island) (old : Option Nat) : Island :=
  if i.params = old then i else { i with chans := i.chans.map (fun c => { c with bits := [], seen := false }) }

/-- CFG_WRITE_PARAMETERS (R447): the 384 bytes of a block. -/
def execCfgWriteParameters (block : List Byte) (s : State) : Out :=
  let i := s.isl
  if i.running = false then .next s
  else match i.sealed, i.freeBlock with
    | false, some b =>
      let data := block.take 384 ++ List.replicate (384 - block.length) 0
      .next (s.cfg (((i.otpProgram (blockBase b) data).refilter i.params).log 0x53 (leNat (data.take 4))) .accepted)
    | _, _ => .next (s.cfg i .refused)

/-- CFG_GENERATE_KEY (R447): the key that the random source gives is one of 1 … n − 1. -/
def execCfgGenerateKey (s : State) : Out :=
  let i := s.isl
  if i.running = false then .next s
  else match (List.range 4).find? (fun k => !i.slotUsed k) with
    | some k =>
      if i.sealed ∨ i.holdsKey i.activeSlot then .next (s.cfg i .refused)
      else
        let d := (Config.randomKey s.free).toNat % (p256N - 1) + 1
        let j := (i.otpProgram (0x80 + 128 * k) (beBytes 32 d)).otpProgram (0xA0 + 128 * k) (publicKey d)
        .next ({ s with free := s.free + 1 }.cfg (j.log 0x52 k) .accepted)
    | none => .next (s.cfg i .refused)

/-- CFG_DEBUG_ACCESS (R447). -/
def execCfgDebugAccess (s : State) : Out :=
  let i := s.isl
  if i.running = false then .next s
  else if i.sealed then .next (s.cfg i .refused)
  else .next (s.cfg { i with debug := true } .accepted)

/-- SEAL (R448). -/
def execSeal (s : State) : Out :=
  let i := s.isl
  if i.running = false then .next s
  else if i.sealed ∨ i.params.isNone ∨ i.holdsKey i.activeSlot = false ∨ 8 ≤ i.seals then .next (s.cfg i .refused)
  else
    let j := (i.otpProgram (0x280 + 32 * (i.seals / 2)) i.extHash).burnFuse
    .next (s.cfg ({ j with debug := false }.log 0x50 j.seals) .accepted)

/-- UNSEAL (R449): `low` is the level of SEL_UNSEAL_N held low. A period that has ended and has no record yet is one of those whose records
are made from then on. -/
def execUnseal (low : Bool) (s : State) : Out :=
  let i := s.isl
  if i.running = false then .next s
  else if i.sealed = false ∨ low = false then .next (s.cfg i .refused)
  else
    let j := (i.otpProgram (0x80 + 128 * i.activeSlot) (List.replicate 32 0xFF)).burnFuse
    let mark (p : IslPeriod) : IslPeriod := { p with unsealed := true }
    .next (s.cfg ({ j with period := mark j.period, closed := j.closed.map (fun (c : IslClosed) => { c with period := mark c.period }) }.log 0x51 j.seals)
      .accepted)

end Sys2Proof.Machine
end

