-- ==== Sys2Proof/Machine/Mailbox.lean ====
section
/-! DEFINITION. The mailbox: the island's side of the queue (R438 to R441) and the SELM writer (R442 to R445). -/

namespace Sys2Proof.Machine

/-! ### The island's side -/

/-- The span that a replay covers, in seconds: REPLAYH hours; none while no parameter block is valid (log 46). -/
def Island.replaySpan (i : Island) : Nat :=
  match i.params with
  | some a => 3600 * (i.otpAt (a + 6)).toNat
  | none => 0

/-- The count that a Gray-coded 4-bit word stands for (R422). -/
def fromGray (g : BitVec 4) : BitVec 4 := g ^^^ g >>> 1 ^^^ g >>> 2 ^^^ g >>> 3

/-- A 4-bit count, Gray-coded (R422). -/
def toGray (n : BitVec 4) : BitVec 4 := n ^^^ n >>> 1

/-- The messages in the queue, by the count put into it and the read pointer (R422, R438). -/
def State.queued (s : State) : Nat := (s.isl.sent - fromGray s.selm.taken).toNat

/-- READY_RISE (R440): the running island takes note that READY has risen. -/
def execReadyRise (s : State) : Out :=
  let i := s.isl
  if i.running = true ∧ i.ready = false ∧ s.selm.fell = false ∧ s.flag Reg.SELM_MSTAT Fld.SELM_MSTAT_READY = true then
    let t := i.sec - i.replaySpan
    .next (s.setIsl { i with
      ready := true, sendId := true, mseq := 0, queue := [], sent := fromGray s.selm.taken
      replayRecs := i.recNums.filter (fun r => let e := recTend ((i.readRec r).getD []); t ≤ e && e ≤ i.sec)
      replayLogs := i.logNums.filter (fun n => let e := leNat ((((i.readLog n).getD []).drop 8).take 8); t ≤ e && e ≤ i.sec)
      nextRec := i.rnum + 1, nextLog := i.lseq + 1 })
  else .next s

/-- READY_FALL (R440): the island takes note that READY has fallen, and stops sending. -/
def execReadyFall (s : State) : Out :=
  if s.selm.fell then
    .next { s with isl := { s.isl with ready := false, queue := [], sent := fromGray s.selm.taken }, selm := { s.selm with fell := false, writing := false } }
  else .next s

/-- A message (R439): kind, whether it is part of a replay, and payload. -/
def Island.message (i : Island) (kind : Nat) (replay : Bool) (payload : List Byte) : List Byte :=
  let p := payload.take 480
  leBytes 4 i.mseq ++ leBytes 1 kind ++ leBytes 1 (bit replay) ++ leBytes 2 p.length ++ leBytes 8 i.sec ++ leBytes 4 i.subNow ++
  List.replicate 12 0 ++ p ++ List.replicate (480 - p.length) 0

/-- A message enters the queue. -/
def Island.send (i : Island) (kind : Nat) (replay : Bool) (payload : List Byte) : Island :=
  { i with queue := i.queue ++ [i.message kind replay payload], sent := i.sent + 1, mseq := i.mseq + 1 }

/-- The payload of the identity message (R439), its fields packed in the rule's order, least significant byte first (log 43). -/
def Island.identity (i : Island) : List Byte :=
  let ph := match i.params with
    | some a => sha256 (i.otpBytes a 384)
    | none => List.replicate 32 0
  i.otpBytes 0 8 ++ leBytes 4 Config.maskRomVersion.toNat ++ leBytes 1 i.seals ++ leBytes 1 i.activeSlot ++ i.pubKey i.activeSlot ++ ph ++
  i.extHash

/-- The entries of a list of log numbers that flash still holds, at most 15, and the numbers left. -/
def Island.logBatch (i : Island) (l : List Nat) : List Nat × List Nat :=
  let held := l.filter (fun n => (i.readLog n).isSome)
  (held.take 15, held.drop 15)

/-- The bytes of log entries. -/
def Island.logBytes (i : Island) (l : List Nat) : List Byte := l.flatMap (fun n => (i.readLog n).getD [])

/-- The last log entry that may be sent: none made after the end of a period whose record is not made (R441). -/
def Island.logLimit (i : Island) : Nat :=
  match i.closed with
  | c :: _ => c.logseq
  | [] => i.lseq

/-- The normal output (R441): the oldest record not yet sent, then log entries. -/
def Island.sendNormal (i : Island) : Island :=
  match (fromTo i.nextRec i.rnum).find? (fun r => (i.readRec r).isSome) with
  | some r => { i.send 1 false ((i.readRec r).getD []) with nextRec := r + 1 }
  | none =>
    let b := (i.logBatch (fromTo i.nextLog i.logLimit)).1
    if b.isEmpty then i else { i.send 2 false (i.logBytes b) with nextLog := b.getLastD 0 + 1 }

/-- The next message in the order of R440 and R441: identity, pending status, the replay's records, its log entries, normal output. -/
def Island.sendNext (i : Island) : Island :=
  if i.sendId then { i.send 4 false i.identity with sendId := false }
  else match i.status with
    | some p => { i.send 3 false p with status := none }
    | none =>
      match i.replayRecs.dropWhile (fun r => (i.readRec r).isNone) with
      | r :: t => { i.send 1 true ((i.readRec r).getD []) with replayRecs := t }
      | [] =>
        let b := i.logBatch i.replayLogs
        if b.1.isEmpty then { i with replayRecs := [], replayLogs := [] }.sendNormal
        else { i.send 2 true (i.logBytes b.1) with replayRecs := [], replayLogs := b.2 }

/-- MAILBOX_SEND (R438). -/
def execMailboxSend (s : State) : Out :=
  let i := s.isl
  if i.running = true ∧ i.ready = true ∧ s.queued < 8 then .next (s.setIsl i.sendNext) else .next s

/-! ### The SELM writer -/

/-- The slots of the ring (R442). -/
def State.ringSize (s : State) : Nat := 2 ^ s.fld Reg.SELM_MCTL Fld.SELM_MCTL_SZL

/-- WIDX. -/
def State.widx (s : State) : Nat := s.fld Reg.SELM_WIDX Fld.SELM_WIDX_IDX

/-- The ring is full (R442). -/
def State.ringFull (s : State) : Bool := (s.widx + 1) % s.ringSize == s.fld Reg.SELM_RIDX Fld.SELM_RIDX_IDX

/-- The address of slot WIDX. -/
def State.slotAddr (s : State) : Nat := s.reg64 Reg.SELM_RBASEL Reg.SELM_RBASEH + 512 * s.widx

/-- A refused write of the mailbox (R443): MERR, and the writer stops until SELM is enabled anew. -/
def State.mailboxError (s : State) (a : Nat) : State :=
  let s := ((s.setFld Reg.SELM_MSTAT Fld.SELM_MSTAT_MERR 1).setAddr Reg.SELM_EADRL Reg.SELM_EADRH a).raise 1283
  { s with selm := { s.selm with stopped := true } }

/-- MAILBOX_MESSAGE_WRITE (R442, R443): the eight full-line writes of the oldest message. -/
def execMailboxMessageWrite (s : State) : Out :=
  match s.isl.queue with
  | m :: _ =>
    if s.flag Reg.SELM_MCTL Fld.SELM_MCTL_EN = false ∨ s.selm.fell = true ∨ s.selm.stopped = true ∨ s.selm.writing = true then .next s
    else if s.ringFull then
      if s.flag Reg.SELM_MSTAT Fld.SELM_MSTAT_WAIT then .next s
      else .next ((s.setFld Reg.SELM_MSTAT Fld.SELM_MSTAT_WAIT 1).raise 1286)
    else
      match s.engineWrites .mailbox (s.flag Reg.SELM_MCTL Fld.SELM_MCTL_COH) s.slotAddr m with
      | (.held, s) => .next s
      | (.refused _ a, s) => .next (s.mailboxError a)
      | (_, s) => .next { s with selm := { s.selm with writing := true } }
  | [] => .next s

/-- SELM_SLOT_LANDED (R442, R445): WIDX advances, and then the message leaves the queue, which moves the read pointer. -/
def execSelmSlotLanded (s : State) : Out :=
  match s.selm.writing, s.isl.queue with
  | true, m :: rest =>
    let s := s.setFld Reg.SELM_WIDX Fld.SELM_WIDX_IDX ((s.widx + 1) % s.ringSize)
    let n := (s.reg Reg.SELM_MCNT).toNat
    let s := s.setReg Reg.SELM_MCNT (BitVec.ofNat 32 (min (n + 1) 0xFFFFFFFF))
    let kind := (m.getD 4 0).toNat
    let s := ((s.raise 1280).raiseIf (kind == 1) 1281).raiseIf (kind == 2) 1282
    .next { s with
      isl := { s.isl with queue := rest }
      selm := { s.selm with writing := false, taken := toGray (fromGray s.selm.taken + 1) } }
  | _, _ => .next s

/-- READY falls (R440, R444, R450): what the writer has not written is discarded. -/
def State.readyFalls (s : State) : State :=
  if s.flag Reg.SELM_MSTAT Fld.SELM_MSTAT_READY then
    { s.setFlds Reg.SELM_MSTAT [(Fld.SELM_MSTAT_READY, 0), (Fld.SELM_MSTAT_WAIT, 0)] with
      selm := { s.selm with writing := false, fell := true } }
  else s

/-- A write is ignored or refused (R444). -/
def State.selmIgnored (s : State) : State := s.setFld Reg.SELM_MSTAT Fld.SELM_MSTAT_WIGN 1

/-- A write to SELM_MCTL (R444). -/
def State.mctlWrite (s : State) (data : Word) : State :=
  let a := Reg.SELM_MCTL
  let en := Fld.SELM_MCTL_EN.get data
  let szl := Fld.SELM_MCTL_SZL.get data
  let coh := Fld.SELM_MCTL_COH.get data
  if s.flag a Fld.SELM_MCTL_EN then
    let s := if szl = s.fld a Fld.SELM_MCTL_SZL then s else s.selmIgnored
    let s := s.setFlds a [(Fld.SELM_MCTL_COH, coh), (Fld.SELM_MCTL_EN, en)]
    if en = 0 then s.readyFalls else s
  else if en = 1 then
    if szl < 4 ∨ 12 < szl then s.selmIgnored
    else
      let s := s.setFlds a [(Fld.SELM_MCTL_COH, coh), (Fld.SELM_MCTL_EN, 1), (Fld.SELM_MCTL_SZL, szl)]
      let s := (s.setReg Reg.SELM_WIDX 0).setReg Reg.SELM_RIDX 0
      { s.setFld Reg.SELM_MSTAT Fld.SELM_MSTAT_READY 1 with selm := { s.selm with stopped := false } }
  else s.setFlds a [(Fld.SELM_MCTL_COH, coh), (Fld.SELM_MCTL_SZL, szl)]

/-- SELM_ENABLE (R444). -/
def execSelmEnable (_who : Who) (data : Word) (s : State) : Out := .next (s.mctlWrite data)

/-- ILINK_CHANGE (R445): the SELM block sees the island's link change. -/
def execIlinkChange (s : State) : Out :=
  let a := Reg.SELM_MSTAT
  if s.flag a Fld.SELM_MSTAT_ILINK = s.isl.running then .next s
  else .next ((s.setFld a Fld.SELM_MSTAT_ILINK (bit s.isl.running)).raise (if s.isl.running then 1284 else 1285))

/-- A write lands in the SELM block. -/
def State.landSelm (s : State) (_who : Who) (a : Nat) (data hw : Word) : State :=
  if a = Reg.SELM_MCTL then s.mctlWrite data
  else if a = Reg.SELM_RBASEL ∨ a = Reg.SELM_RBASEH then
    if s.flag Reg.SELM_MCTL Fld.SELM_MCTL_EN then s.selmIgnored else s.plainWrite a data hw
  else if a = Reg.SELM_RIDX then
    let s := s.setFld a Fld.SELM_RIDX_IDX (Fld.SELM_RIDX_IDX.get data % s.ringSize)
    if s.ringFull then s else s.setFld Reg.SELM_MSTAT Fld.SELM_MSTAT_WAIT 0
  else s.plainWrite a data hw

/-- A read of the SELM block. -/
def State.readSelm (s : State) (who : Who) (a : Nat) (hw : Word) : State :=
  let r := s.plainRead a hw
  r.2.respondWord who r.1

end Sys2Proof.Machine
end

