-- ==== Sys2Proof/Machine/Presser.lean ====
section
/-! DEFINITION. The presser (R316 to R331). Readings and choices: log 37. -/

namespace Sys2Proof.Machine

/-- Word i of the descriptor in work. -/
def State.prsWord (s : State) (i : Nat) : Nat := (s.prs.desc.getD i 0).toNat

/-- What a descriptor says of one rectangle (R316, R319). -/
structure Rect where
  base : Nat
  nib : Nat
  pitch : Nat
  bits : Nat
  width : Nat
  hm1 : Nat
  deriving DecidableEq, Repr

/-- A rectangle of a descriptor: the source with `k` = 2, the destination with `k` = 5. -/
def rectOf (d : List Word) (k : Nat) : Rect :=
  let w (i : Nat) : Nat := (d.getD i 0).toNat
  { base := w k + w (k + 1) % 256 * 2 ^ 32, nib := w (k + 1) / 256 % 2, pitch := w (k + 2) % 2 ^ 20,
    bits := bppBits (w 0 / 256 % 4), width := w 1 % 8192 + 1, hm1 := w 1 / 2 ^ 16 % 8192 }

/-- The row length in bytes (R319). -/
def Rect.rowBytes (r : Rect) : Nat := (r.nib * 4 + r.width * r.bits + 7) / 8

/-- The last byte of the rectangle's span. -/
def Rect.last (r : Rect) : Nat := r.base + r.hm1 * r.pitch + r.rowBytes - 1

/-- The limits of R319. -/
def Rect.ok (r : Rect) : Bool :=
  let widest := match r.bits with
    | 4 => if r.nib = 1 then 8191 else 8192
    | 8 => 4096
    | 16 => 2048
    | _ => 1024
  let unit := max (r.bits / 8) 1
  r.width ≤ widest && r.base % unit == 0 && r.pitch % unit == 0 && r.rowBytes ≤ r.pitch && (r.bits == 4 || r.nib == 0) &&
  r.last ≤ 0xFFFFFFFFFF

/-- The operation reads a source (R320). -/
def prsReadsSource (op : Nat) : Bool := op == 1 || op == 3 || op == 4 || op == 5

/-- The checks of a descriptor that follow its read (R322), with the cause of the first that fails. -/
def prsCheck (d : List Word) : Option Nat :=
  let w0 := (d.getD 0 0).toNat
  let op := w0 % 16
  let src := rectOf d 2
  let dst := rectOf d 5
  let reads := prsReadsSource op
  if op = 0 ∨ 6 < op ∨ (op = 4 ∧ dst.bits ≠ 32) ∨ dst.ok = false ∨ (reads = true ∧ src.ok = false) then some 2
  else if reads && src.base ≤ dst.last && dst.base ≤ src.last && src.pitch != dst.pitch then some 3
  else none

/-- The data accesses of the descriptor in work are I/O coherent (R316). -/
def State.prsCoh (s : State) : Bool := s.prsWord 0 / 2 ^ 29 % 2 == 1

/-- The presser becomes Idle, with nothing buffered or awaited, and the sequencer learns that its job ended (R48, R328). -/
def State.prsIdle (s : State) : State :=
  (({ s with prs := { s.prs with rows := [], issued := false } }.letGo .presser).setFld Reg.PRS_STAT Fld.PRS_STAT_STATE 0).psqSignal .press

/-- The presser stops (R327, R328, R330): the row being written is left in part, each of its bytes old or new, unless its writes are all issued;
its row buffers are discarded. -/
def State.prsTear (s : State) : State :=
  match s.prs.rows with
  | l :: _ =>
    let t := if s.prs.issued then s else s.tornCells .presser s.prsCoh l
    { t with prs := { s.prs with rows := [], issued := false } }
  | [] => s

/-- An error ends the chain (R327): the presser stops as at an abort. -/
def State.prsError (s : State) (cause addr : Nat) : State :=
  let s := s.prsTear.setFlds Reg.PRS_STAT [(Fld.PRS_STAT_ERR, 1), (Fld.PRS_STAT_CAUSE, cause)]
  (s.setAddr Reg.PRS_EADRL Reg.PRS_EADRH addr).prsIdle.raise 385

/-- The presser reads the descriptor at PRS_CUR and checks it (R317, R322); a held request is made again later. -/
def State.prsFetch (s : State) : State :=
  let a := (s.reg Reg.PRS_CUR).toNat * 256
  match s.engineRead .presser true a 64 with
  | (.held, s) => s
  | (.bytes b, s) =>
    let desc := (List.range 16).map (fun i => BitVec.ofNat 32 (leNat ((b.drop (4 * i)).take 4)))
    let s := { s with prs := { s.prs with desc := desc } }
    match prsCheck desc with
    | some c => s.prsError c a
    | none => s
  | (_, s) => s.prsError 1 a

/-- The presser waits for a descriptor. -/
def State.prsWaits (s : State) : Bool := s.fld Reg.PRS_STAT Fld.PRS_STAT_STATE == 1 && s.prs.desc.isEmpty

/-- The presser takes up the descriptor with address bits [39:8] `d` (R317, R318). -/
def State.prsBegin (s : State) (d : Word) : State :=
  let s := (s.setReg Reg.PRS_CUR d).setFlds Reg.PRS_STAT [(Fld.PRS_STAT_STATE, 1), (Fld.PRS_STAT_RDONE, 0)]
  { s with prs := { s.prs with desc := [], begun := 0, rows := [], issued := false } }.prsFetch

/-- A write to PRS_START (R317). -/
def State.prsStart (s : State) (data : Word) : State :=
  if s.fld Reg.PRS_STAT Fld.PRS_STAT_STATE = 0 then s.prsBegin data
  else (s.setFld Reg.PRS_STAT Fld.PRS_STAT_SREF 1).raise 387

/-- PRS_START (R317). -/
def execPrsStart (_who : Who) (data : Word) (upsets : Upsets) (s : State) : Out := .next ((s.strike upsets).prsStart data)

/-- The row order runs downwards from HM1 (R324): DST above SRC, half bytes counted. -/
def prsDescends (d : List Word) : Bool :=
  let src := rectOf d 2
  let dst := rectOf d 5
  prsReadsSource ((d.getD 0 0).toNat % 16) && 2 * src.base + src.nib < 2 * dst.base + dst.nib

/-- The row taken k-th (R324). -/
def prsRow (d : List Word) (k : Nat) : Nat := if prsDescends d then (rectOf d 5).hm1 - k else k

/-- The value of pixel i of a row held as bytes. -/
def Rect.pixel (r : Rect) (b : List Byte) (i : Nat) : Nat :=
  if r.bits = 4 then (b.getD ((r.nib + i) / 2) 0).toNat / 16 ^ ((r.nib + i) % 2) % 16
  else leNat ((b.drop (r.bits / 8 * i)).take (r.bits / 8))

/-- BLEND of two ARGB8888 pixels (R320). -/
def prsBlend (galpha s d : Nat) : Nat :=
  let a := scale (s / 2 ^ 24) galpha
  let mix (k : Nat) : Nat := (s / 2 ^ k % 256 * a + d / 2 ^ k % 256 * (255 - a) + 127) / 255
  (a + scale (d / 2 ^ 24) (255 - a)) * 2 ^ 24 + mix 16 * 2 ^ 16 + mix 8 * 2 ^ 8 + mix 0

/-- A raster function, bit by bit (R320). -/
def prsRop (rop bits s d : Nat) : Nat :=
  (List.range bits).foldl (fun r i => r + rop / 2 ^ (2 * (s / 2 ^ i % 2) + d / 2 ^ i % 2) % 2 * 2 ^ i) 0

/-- The pixel that an operation writes for source s and destination d, or none where it writes nothing (R320). -/
def prsPixel (d : List Word) (sp dp : Nat) : Option Nat :=
  let w (i : Nat) : Nat := (d.getD i 0).toNat
  let bits := bppBits (w 0 / 256 % 4)
  match w 0 % 16 with
  | 1 => some sp
  | 2 => some (w 8 % 2 ^ bits)
  | 3 => if sp = w 9 % 2 ^ bits then none else some sp
  | 4 => some (prsBlend (w 10 % 256) sp dp)
  | 5 => some (prsRop (w 0 / 2 ^ 12 % 16) bits sp dp)
  | _ => some (prsRop (w 0 / 2 ^ 12 % 16) bits (w 8 % 2 ^ bits) dp)

/-- The cells that a row writes (R320, R321): whole pixels at 8 bpp and above, whole bytes with the other nibble as read at 4. -/
def prsCells (d : List Word) (base : Nat) (srow drow : List Byte) : List (Nat × Byte) :=
  let src := rectOf d 2
  let dst := rectOf d 5
  let out (i : Nat) : Option Nat := prsPixel d (src.pixel srow i) (dst.pixel drow i)
  if dst.bits = 4 then
    (List.range dst.rowBytes).map (fun k =>
      let nibble (h : Nat) : Nat :=
        let old := (drow.getD k 0).toNat / 16 ^ h % 16
        if dst.nib ≤ 2 * k + h ∧ 2 * k + h < dst.nib + dst.width then (out (2 * k + h - dst.nib)).getD old else old
      (base + k, BitVec.ofNat 8 (nibble 0 + nibble 1 * 16)))
  else
    let n := dst.bits / 8
    (List.range dst.width).flatMap (fun i => match out i with
      | some v => (leBytes n v).zipIdx.map (fun c => (base + n * i + c.2, c.1))
      | none => [])

/-- The bytes of the pieces (address, length), read line by line for the presser: or what stops the reading, with the address of the first
request that fails (R327). A register's word comes over the ring (R18), and the row is read again once it is here. -/
def State.prsRead (s : State) (coh : Bool) (l : List (Nat × Nat)) : EngRead × State :=
  l.foldl (fun p w => match p.1 with
    | .bytes b => match p.2.engineRead .presser coh w.1 w.2 with
      | (.bytes c, s) => (.bytes (b ++ c), s)
      | (.refused k _, s) => (.refused k w.1, s)
      | r => r
    | _ => p) (.bytes [], s)

/-- The whole destination row is read with the operation (R320, R323), at 4 bpp for CKEY too, whose keyed pixels share bytes with
others (DEDUCED, log 37). -/
def prsReadsDest (d : List Word) : Bool :=
  let op := (d.getD 0 0).toNat % 16
  op == 4 || op == 5 || op == 6 || (op == 3 && (rectOf d 5).bits == 4)

/-- What the presser reads of the destination row at address `a` (R321, R323): all of it, or the edge bytes that also hold a pixel
outside the rectangle. -/
def prsDestPieces (d : List Word) (a : Nat) : List (Nat × Nat) :=
  let dst := rectOf d 5
  let n := dst.rowBytes
  if prsReadsDest d then lineSplit (n / 64 + 2) a n
  else if dst.bits ≠ 4 then []
  else
    let first := dst.nib = 1
    let last := (dst.nib + dst.width) % 2 = 1
    (if first then [(a, 1)] else []) ++ (if last ∧ (n ≠ 1 ∨ ¬ first) then [(a + n - 1, 1)] else [])

/-- A destination row with the bytes read at their places. -/
def prsPlaced (a n : Nat) (l : List (Nat × Nat)) (b : List Byte) : List Byte :=
  (l.foldl (fun (p : List Byte × List Byte) w =>
    (p.1.take (w.1 - a) ++ p.2.take w.2 ++ p.1.drop (w.1 - a + w.2), p.2.drop w.2)) (List.replicate n 0, b)).1

/-- A row of the operation `op` in work is read and computed into a free one of the two row buffers; the first of them is the row being
written (R323). Nothing starts while a request of it would be held. -/
def State.prsDoRow (s : State) (op : Nat) (upsets : Upsets) : State :=
  let d := s.prs.desc
  let src := rectOf d 2
  let dst := rectOf d 5
  let r := prsRow d s.prs.begun
  let sa := src.base + r * src.pitch
  let da := dst.base + r * dst.pitch
  let sl := if prsReadsSource op then lineSplit (src.rowBytes / 64 + 2) sa src.rowBytes else []
  let dl := prsDestPieces d da
  if s.fld Reg.PRS_STAT Fld.PRS_STAT_STATE = 1 ∧ s.prsWord 0 % 16 = op ∧ s.prs.rows.length < 2 ∧ s.prs.begun ≤ dst.hm1 then
    if s.anyHeld (sl ++ dl) then
      s.acceptAll ((sl ++ dl).map (fun w => ⟨.presser, s.classOf .presser, .read, w.1, w.2, s.prsCoh⟩))
    else match (s.strike upsets).prsRead s.prsCoh (sl ++ dl) with
      | (.held, s) => s
      | (.refused _ a, s) => s.prsError 4 a
      | (.uncorrectable a, s) => s.prsError 6 a
      | (.bytes b, s) =>
        let n := (sl.map Prod.snd).sum
        let cells := prsCells d da (b.take n) (prsPlaced da dst.rowBytes dl (b.drop n))
        let s := s.useGot .presser
        { s with prs := { s.prs with begun := s.prs.begun + 1, rows := s.prs.rows ++ [cells] } }
  else s

/-- PRS_COPY (R320). -/
def execPrsCopy (upsets : Upsets) (s : State) : Out := .next (s.prsDoRow 1 upsets)

/-- PRS_FILL (R320). -/
def execPrsFill (upsets : Upsets) (s : State) : Out := .next (s.prsDoRow 2 upsets)

/-- PRS_CKEY (R320). -/
def execPrsCkey (upsets : Upsets) (s : State) : Out := .next (s.prsDoRow 3 upsets)

/-- PRS_BLEND (R320). -/
def execPrsBlend (upsets : Upsets) (s : State) : Out := .next (s.prsDoRow 4 upsets)

/-- PRS_ROP (R320). -/
def execPrsRop (upsets : Upsets) (s : State) : Out := .next (s.prsDoRow 5 upsets)

/-- PRS_ROPF (R320). -/
def execPrsRopf (upsets : Upsets) (s : State) : Out := .next (s.prsDoRow 6 upsets)

/-- The row being written has landed (R318, R325, R326): the watermark, then the next row, the next descriptor, or done. -/
def State.prsLanded (s : State) : State :=
  let d := s.prs.desc
  let rest := s.prs.rows.drop 1
  let landed := s.prs.begun - rest.length
  let s := { s with prs := { s.prs with rows := rest, issued := false } }
  let s := s.setFld Reg.PRS_STAT Fld.PRS_STAT_RDONE landed
  let s := if s.prsWord 0 / 2 ^ 30 % 2 = 1 ∧ s.prsWord 0 / 2 ^ 16 % 8192 = prsRow d (landed - 1) then
      (s.setFld Reg.PRS_STAT Fld.PRS_STAT_WM 1).raise 386
    else s
  if landed ≤ (rectOf d 5).hm1 then s
  else if s.prsWord 0 / 2 ^ 31 = 1 then s.prsBegin (d.getD 11 0)
  else
    let was := s.flag Reg.PRS_STAT Fld.PRS_STAT_DONE
    ({ s with prs := { s.prs with doneFc := some (s.fc, was) } }.setFld Reg.PRS_STAT Fld.PRS_STAT_DONE 1).prsIdle.raise 384

/-- PRS_ROW_LANDED (R220, R323, R328): the row being written is written, once every earlier write of the presser has landed, and it has landed when
its own writes have. A word that is not written over an error is no error of the presser (R233, R327). -/
def execPrsRowLanded (upsets : Upsets) (s : State) : Out :=
  match s.prs.rows with
  | l :: _ =>
    if s.fld Reg.PRS_STAT Fld.PRS_STAT_STATE = 1 ∧ s.writesOnWay .presser = false then
      if s.prs.issued then .next s.prsLanded
      else match (s.strike upsets).engineCells .presser s.prsCoh l with
        | (.held, s) => .next s
        | (.refused _ a, s) => .next (({ s with prs := { s.prs with rows := [] } }).prsError 5 a)
        | (_, s) => .next (if s.writesOnWay .presser then { s with prs := { s.prs with issued := true } } else s.prsLanded)
    else .next s
  | [] => .next s

/-- A write to PRS_CMD (R328, R329): an end signalled in the same fc gives way to the abort, whose event is the one that the end has
raised; a DONE left by an earlier chain stays. -/
def State.prsAbort (s : State) (data : Word) : State :=
  if Fld.PRS_CMD_ABORT.get data = 0 then s
  else match s.fld Reg.PRS_STAT Fld.PRS_STAT_STATE with
    | 0 =>
      match s.prs.doneFc.filter (fun d => d.1 = s.fc) with
      | some d =>
        let done := s.flag Reg.PRS_STAT Fld.PRS_STAT_DONE && d.2
        { s with prs := { s.prs with doneFc := none } }.setFlds Reg.PRS_STAT [(Fld.PRS_STAT_DONE, bit done), (Fld.PRS_STAT_ABORTED, 1)]
      | none => if s.flag Reg.PRS_STAT Fld.PRS_STAT_DONE then s.setFld Reg.PRS_STAT Fld.PRS_STAT_ABLATE 1 else s
    | 1 => s.setFld Reg.PRS_STAT Fld.PRS_STAT_STATE 2
    | _ => s

/-- PRS_ABORT (R328). -/
def execPrsAbort (_who : Who) (data : Word) (s : State) : Out := .next (s.prsAbort data)

/-- PRS_ABORT_COMPLETE (R328). -/
def execPrsAbortComplete (s : State) : Out :=
  if s.fld Reg.PRS_STAT Fld.PRS_STAT_STATE = 2 then
    .next ((s.prsTear.setFld Reg.PRS_STAT Fld.PRS_STAT_ABORTED 1).prsIdle.raise 384)
  else .next s

/-- A write lands in the PRS block. -/
def State.landPrs (s : State) (_who : Who) (a : Nat) (data hw : Word) : State :=
  if a = Reg.PRS_START then s.prsStart data
  else if a = Reg.PRS_CMD then s.prsAbort data
  else s.plainWrite a data hw

end Sys2Proof.Machine
end

