-- ==== Sys2Proof/Machine/Reset.lean ====
section
/-! DEFINITION. What each reset does to the state (R490, R491 and the blocks' own chapters). -/

namespace Sys2Proof.Machine

/-- The index of a block in R17. -/
def Block.index : Block → Nat
  | .sys => 0 | .evc => 1 | .psq => 2 | .mem => 3 | .fab => 4 | .shu => 5 | .prs => 6 | .dp0 => 7 | .dp1 => 8
  | .dp2 => 9 | .dp3 => 10 | .spl => 11 | .seam => 12 | .tmr => 13 | .pin => 14 | .selm => 15 | .dbg => 16 | .hyc => 17

/-- The block with an index. -/
def blockOf (i : Nat) : Block :=
  match i with
  | 0 => .sys | 1 => .evc | 2 => .psq | 3 => .mem | 4 => .fab | 5 => .shu | 6 => .prs | 7 => .dp0 | 8 => .dp1
  | 9 => .dp2 | 10 => .dp3 | 11 => .spl | 12 => .seam | 13 => .tmr | 14 => .pin | 15 => .selm | 16 => .dbg | _ => .hyc

/-- The first address of a block's window. -/
def Block.base (b : Block) : Nat := 0x10000000 + 0x100000 * b.index

/-- The registers and tables of a window take their Reset values; a LOCK holds until a device reset (log 5). -/
def State.clearWindow (s : State) (b : Block) : State :=
  let keep (p : Nat × Word) : Option (Nat × Word) :=
    if b.base ≤ p.1 ∧ p.1 < b.base + 0x100000 then
      if lockOf p.1 = some p.1 ∧ p.2.getLsbD 31 = true then some (p.1, RegMap.reset p.1 ||| 0x80000000) else none
    else some p
  { s with dev := s.dev.filterMap keep
           ecc := s.ecc.filter (fun e => e.1 < b.base || b.base + 0x100000 ≤ e.1) }

/-- Memory from `lo` up to `hi` cleared to zero, with its codes. -/
def State.clearMemory (s : State) (lo hi : Nat) : State :=
  { s with mem := s.mem.filter (fun c => c.1 < lo || hi ≤ c.1), ecc := s.ecc.filter (fun e => e.1 < lo || hi ≤ e.1) }

/-- A pipe stops with its block (R291); its pixel PLL belongs to SYS. -/
def State.resetPipeBlock (s : State) (p : Fin 4) : State := s.setPipe p { Pipe.reset with pll := (s.pipe p).pll }

/-- The state of a block's own reset (R30, R39, R52, R256, R291, R330, R348, R373, R420, R450, R461, R470, R534). Lanes that it stops raise no
stopped event (R70; DESIGN CHOICE, log 87). -/
def State.blockReset (s : State) (b : Block) : State :=
  let s := if b = .prs then s.prsTear else s
  let s := if b = .selm then s.readyFalls else s
  let s := s.clearWindow b
  match b with
  | .evc => { s with evc := { s.evc with staged := [], deadlines := [], saved := none, voided := s.evc.claims.length } }
  | .psq => { s with psq := Psq.reset }
  | .shu => { (List.finRange 64).foldl (fun s n => s.letGo (.shuttle n)) s with shus := Vector.replicate 64 Shu.reset }
  | .prs => { s.letGo .presser with prs := Prs.reset }
  | .dp0 => s.resetPipeBlock 0
  | .dp1 => s.resetPipeBlock 1
  | .dp2 => s.resetPipeBlock 2
  | .dp3 => s.resetPipeBlock 3
  | .spl => { s with spl := Spl.reset }
  | .seam => { s.clearMemory 0x20000000 0x20600000 with seam := Seam.reset }
  | .tmr => { s with tmr := Vector.replicate 32 Tmr.reset, tmrX := ⟨[], []⟩ }
  | .pin => { s with pins := { s.pins with inputs := 0, filtered := 0, held := Vector.replicate 16 0 } }
  | .selm => { s with selm := ⟨false, false, s.selm.fell, s.selm.taken⟩ }
  | .dbg => { s with dbg := { s.dbg with latches := [] } }
  | _ => s

/-- A block's clearing begins; accesses to it are held until it ends (R39, R491). -/
def State.beginClearing (s : State) (b : Block) : State :=
  { s with fab := { s.fab with clearing := if s.fab.clearing.contains b then s.fab.clearing else s.fab.clearing ++ [b] } }

/-- The blocks that a per-block reset is implemented for (R491). -/
def Block.resettable (b : Block) : Bool := !(b = .sys || b = .mem || b = .fab || b = .hyc)

/-- A block that can be off is off or in a change (R475, R491). -/
def State.blockOff (s : State) (b : Block) : Bool :=
  canPowerOff b.index && (s.reg Reg.SYS_BPSTAT).toNat / 2 ^ b.index % 2 == 1

/-- A per-block reset (R491): one of a block that is off is ignored. -/
def State.brst (s : State) (b : Block) : State :=
  if b.resettable && !s.blockOff b then
    let s := (s.blockReset b).beginClearing b
    s.setFld Reg.SYS_RSTCTL Fld.SYS_RSTCTL_BRST (s.fld Reg.SYS_RSTCTL Fld.SYS_RSTCTL_BRST ||| 2 ^ b.index)
  else s

/-- BRST (R491). -/
def execBrst (who : Who) (b : Block) (s : State) : Out := .next (if who.lining then s.brst b else s)

/-- A device reset (R490): everything on the main die takes its reset state; the island, the levels that the equipment drives and the
queue of commands stay. -/
def State.deviceReset (s : State) (cause : Nat) : State :=
  let s := s.readyFalls
  { State.reset with
    fc := s.fc, free := s.free, isl := s.isl, selm := ⟨false, false, s.selm.fell, s.selm.taken⟩
    pins := { State.reset.pins with outside := s.pins.outside }, pending := s.pending }.setFld Reg.SYS_RSTSTAT Fld.SYS_RSTSTAT_CAUSE cause

/-- Fabric memory and DRAM (R15). -/
def keptMemory (a : Nat) : Bool := (0x1000000 ≤ a && a < 0x3000000) || 0x1000000000 ≤ a

/-- The clocks that SYS_RST_N leaves running: fabric, peripheral, DDR and network (R490). -/
def keptClocks : BitVec 14 := 0b11000001000011

/-- Every request that the firewall has accepted and that waits at a port for its target is performed (R348, R490). -/
def State.drainPorts (s : State) : State := s.fab.port.foldl (fun s r => s.perform r) { s with fab := { s.fab with port := [] } }

/-- Both device resets (R330, R348, R490): writes that the fabric has accepted, those held at a port among them, are performed, and the row that the presser writes is cut
short; fabric memory, DRAM and their codes stay as they are, and caches are lost. -/
def State.stopAll (s : State) (cause : Nat) : State :=
  let s := ((List.range 37).foldl (fun s t => s.drainTarget t) s.drainDdr).drainPorts.prsTear
  { s.deviceReset cause with
    mem := s.mem.filter (fun c => keptMemory c.1), ecc := s.ecc.filter (fun e => keptMemory e.1) }

/-- PWRON_RST_N (R490, R492): every clock stops. That memory keeps its contents is the model's reading (log 3). -/
def execPwronRstN (s : State) : Out := .next (s.stopAll 1)

/-- SYS_RST_N from its ball or from SYSRST (R490, R492): some clocks run on. -/
def State.sysReset (s : State) (cause : Nat) : State :=
  let r := s.stopAll cause
  { r with sys := { r.sys with clocks := s.sys.clocks &&& keptClocks } }

/-- SYS_RST_N (R490). -/
def execSysRstN (s : State) : Out := .next (s.sysReset 2)

/-- SYSRST (R491). -/
def execSysrst (who : Who) (s : State) : Out := .next (if who.lining then s.sysReset 3 else s)

/-- The equipment pulls some of PA0–PA2 up (R494, R514); another of them that it drove high it lets go. -/
def State.pullStraps (s : State) (straps : BitVec 3) : State :=
  [0, 1, 2].foldl (fun s p =>
    let o := if straps.getLsbD p then some true else if s.pins.outside.getD p none = some true then none else s.pins.outside.getD p none
    { s with pins := { s.pins with outside := s.pins.outside.set! p o } }) s

/-- The levels of the balls PA0–PA2 (R494, R512). -/
def State.strapLevels (s : State) : BitVec 3 :=
  BitVec.ofNat 3 (bit (s.ballLevel 0) + 2 * bit (s.ballLevel 1) + 4 * bit (s.ballLevel 2))

/-- RESET_RELEASE (R490, R494, R495, R103): the straps are sampled, with those pulled up that the operand names; lockstep is entered where it is asked
for, and the blocks clear themselves. -/
def execResetRelease (pulled : BitVec 3) (s : State) : Out :=
  if s.sys.boot = .held then
    let s := s.pullStraps pulled
    let straps := s.strapLevels
    let s := s.setReg Reg.SYS_STRAP (straps.zeroExtend 32)
    let s := s.setFld Reg.HYC_LSCTL Fld.HYC_LSCTL_ACTIVE (bit (straps.getLsbD 2 && !Config.variantN))
    .next ([Block.psq, .spl, .seam, .fab].foldl (fun s b => s.beginClearing b)
      { s with sys := { s.sys with boot := .released } })
  else .next s

end Sys2Proof.Machine
end

