-- ==== Sys2Proof/Machine/Sys.lean ====
section
/-! DEFINITION. The SYS block: block power, voltage and frequency, standby, clocks and boot (R472 to R501). Readings and choices: logs 53, 54. -/

namespace Sys2Proof.Machine

/-- The SYS record changed. -/
def State.setSys (s : State) (x : Sys) : State := { s with sys := x }

/-- PLL outputs start or stop: the bits of `m`. -/
def State.setClocks (s : State) (m : Nat) (on : Bool) : State :=
  let b := BitVec.ofNat 14 m
  s.setSys { s.sys with clocks := if on then s.sys.clocks ||| b else s.sys.clocks &&& ~~~b }

/-! ### Block power (R474, R475) -/

/-- Some queue of the seam engine is enabled (R394): EN is bit 31 of the first word of its context. -/
def State.seamQueueEnabled (s : State) : Bool :=
  s.dev.any (fun p => 0x10C20000 ≤ p.1 && p.1 < 0x10C60000 && p.1 % 16 == 0 && p.2.getLsbD 31)

/-- A block is too busy to be powered off (R474). -/
def State.powerBusy (s : State) (i : Nat) : Bool :=
  match i with
  | 5 => (List.finRange 64).any (fun (n : Fin 64) => s.fld (Reg.SHU_STAT n) Fld.SHU_STAT_STATE != 0)
  | 6 => s.fld Reg.PRS_STAT Fld.PRS_STAT_STATE != 0
  | 11 => s.flag Reg.SPL_CTRL Fld.SPL_CTRL_RUN || s.flag Reg.SPL_STAT Fld.SPL_STAT_LPEND
  | 12 => s.flag Reg.SEAM_CTRL Fld.SEAM_CTRL_EN || s.seamQueueEnabled
  | _ => let p := i - 7
         s.flag (Reg.DP_CTRL p) Fld.DP_CTRL_EN || s.flag (Reg.DP_STAT p) Fld.DP_STAT_RUN

/-- A request is refused or ignored (R474, R475). -/
def State.powerRefused (s : State) : State := (s.setFld Reg.SYS_BPSTAT Fld.SYS_BPSTAT_REF 1).raise 1307

/-- Bit `i` of a field of blocks. -/
def State.setPowerBit (s : State) (a : Nat) (i : Nat) (on : Bool) : State :=
  s.setReg a (if on then s.reg a ||| BitVec.ofNat 32 (2 ^ i) else s.reg a &&& ~~~(BitVec.ofNat 32 (2 ^ i)))

/-- A request that changes a block's power. -/
def State.powerChange (s : State) (i : Nat) (off : Bool) : State :=
  if !canPowerOff i || (s.reg Reg.SYS_BPWR).getLsbD i == off then s
  else if s.sys.changes.any (fun c => c.1 == i) then s.powerRefused
  else if off && s.powerBusy i then s.powerRefused
  else
    let s := (s.setPowerBit Reg.SYS_BPWR i off).setPowerBit Reg.SYS_BPSTAT i true
    let s := s.setSys { s.sys with changes := s.sys.changes ++ [(i, off)] }
    if off then s else s.blockReset (blockOf i)

/-- BLOCK_POWER_OFF (R474). -/
def execBlockPowerOff (_who : Who) (b : Block) (s : State) : Out := .next (s.powerChange b.index true)

/-- BLOCK_POWER_ON (R475). -/
def execBlockPowerOn (_who : Who) (b : Block) (s : State) : Out := .next (s.powerChange b.index false)

/-- A write to SYS_BPWR. -/
def State.bpwrWrite (s : State) (data : Word) : State :=
  (List.range 13).foldl (fun s i => s.powerChange i (data.getLsbD i)) s

/-- A display pipe's domain has gone off, and its pixel PLL with it (R472). -/
def State.pixelPllOff (s : State) (b : Block) : State :=
  let i := b.index
  if 7 ≤ i ∧ i ≤ 10 then (s.setClocks (2 ^ i) false).setFld (Reg.SYS_PXCTL (i - 7)) Fld.SYS_PXCTL_LOCK 0 else s

/-- BLOCK_POWER_CHANGE_DONE (R474, R475): a block that has gone off has lost what it held, so it raises no event, and one that comes up holds
accesses off while it clears itself. -/
def execBlockPowerChangeDone (b : Block) (s : State) : Out :=
  let i := b.index
  match s.sys.changes.find? (fun c => c.1 == i) with
  | some (_, off) =>
    let s := s.setSys { s.sys with changes := s.sys.changes.filter (fun c => c.1 != i) }
    let s := if off then (s.blockReset b).pixelPllOff b else
      let s := s.setPowerBit Reg.SYS_BPSTAT i false
      if b = .spl ∨ b = .seam then s.beginClearing b else s
    .next (s.raise 1306)
  | none => .next s

/-! ### Core voltage and frequency (R476 to R479) -/

/-- A change of point starts (R477): frequency falls before the voltage, and rises after it. -/
def State.dvfsBegin (s : State) (q : Fin 4) (t : Nat) : State :=
  let x := s.quad q
  let s := s.setFld (Reg.SYS_QDVFS q) Fld.SYS_QDVFS_BUSY 1
  if t < x.point then s.setQuad q { x with qvid := BitVec.ofNat 3 t, dvfs := .settling t true }
  else if x.point < t then s.setQuad q { x with dvfs := .divider t false, cross := x.crossing }
  else s.setQuad q { x with qvid := BitVec.ofNat 3 t, dvfs := .settling t false }

/-- A TARGET is asked for (R479). -/
def State.dvfsAsk (s : State) (q : Fin 4) (t : Nat) : State :=
  let x := s.quad q
  let a := Reg.SYS_QDVFS q
  if x.dvfs ≠ .idle then (s.setQuad q { x with pendTarget := some t }).setFld a Fld.SYS_QDVFS_PEND 1
  else if t = s.fld a Fld.SYS_QDVFS_CUR ∧ t = x.point ∧ t = x.qvid.toNat then s
  else s.dvfsBegin q t

/-- A write to SYS_QDVFSq. -/
def State.qdvfsWrite (s : State) (q : Fin 4) (data hw : Word) : State :=
  (s.plainWrite (Reg.SYS_QDVFS q) data hw).dvfsAsk q (Fld.SYS_QDVFS_TARGET.get data)

/-- DVFS_REQUEST (R477, R479). -/
def execDvfsRequest (_who : Who) (q : Fin 4) (data : Word) (s : State) : Out := .next (s.qdvfsWrite q data 0)

/-- A change ends (R477, R479): CUR, the event, and the staged TARGET. -/
def State.dvfsEnd (s : State) (q : Fin 4) (t : Nat) : State :=
  let a := Reg.SYS_QDVFS q
  let pend := (s.quad q).pendTarget
  let s := s.setFlds a [(Fld.SYS_QDVFS_CUR, t), (Fld.SYS_QDVFS_BUSY, 0), (Fld.SYS_QDVFS_PEND, 0)]
  let s := (s.setQuad q { s.quad q with dvfs := .idle, pendTarget := none }).raise (1298 + q)
  match pend with
  | some t => s.dvfsAsk q t
  | none => s

/-- DVFS_DIVIDER_CHANGE (R478): at the first wheel position 0 at which the request has crossed into the quad, the divider changes. A point that
falls goes on to its assist and bias; one that rises has been reached (R477). -/
def execDvfsDividerChange (q : Fin 4) (s : State) : Out :=
  let x := s.quad q
  match s.positionZero q x.cross, x.dvfs with
  | some _, .divider t false => .next (s.setQuad q { x with point := t, dvfs := .biasing t false (s.fc + 750) })
  | some _, .divider t true => .next ((s.setQuad q { x with point := t }).dvfsEnd q t)
  | _, _ => .next s

/-- DVFS_SETTLE_END (R477, R485): the wait has ended, and QPGq is read. A point that rises goes on to its assist and bias; one that falls has been
reached. In the wake sequence the reading is what completion waits for. -/
def execDvfsSettleEnd (q : Fin 4) (good : Bool) (s : State) : Out :=
  let x := { s.quad q with qpg := good }
  match x.dvfs with
  | .settling t false => .next (if good then (s.setQuad q x).dvfsEnd q t else s.setQuad q x)
  | .settling t true => .next (s.setQuad q (if good then { x with dvfs := .biasing t true (s.fc + 750) } else x))
  | _ => .next (if s.sys.waking.isSome then s.setQuad q x else s)

/-- DVFS_FAULT (R479): QPGq stays low; the sequencer stops where it is, and a staged TARGET is dropped (log 48). -/
def execDvfsFault (q : Fin 4) (s : State) : Out :=
  let x := s.quad q
  let stop := (s.setFlds (Reg.SYS_QDVFS q) [(Fld.SYS_QDVFS_ERR, 1), (Fld.SYS_QDVFS_BUSY, 0), (Fld.SYS_QDVFS_PEND, 0)]).setQuad q
    { x with dvfs := .idle, pendTarget := none, qpg := false }
  match x.dvfs with
  | .settling _ _ => .next (stop.raise (1302 + q))
  | _ => .next s

/-! ### Standby (R480 to R485) -/

/-- STANDBY_ARM (R480). -/
def execStandbyArm (_who : Who) (data : Word) (s : State) : Out := .next (s.plainWrite Reg.SYS_STBY data 0)

/-- The condition that refuses standby entry (R480). -/
def State.standbyRefusal (s : State) : Option Nat :=
  if s.powerBusy 6 then some 1
  else if (List.finRange 64).any (fun (n : Fin 64) => let k := s.fld (Reg.SHU_STAT n) Fld.SHU_STAT_STATE
                                                      k != 0 && k != 3) then some 2
  else if s.powerBusy 11 then some 3
  else if s.flag Reg.SEAM_CTRL Fld.SEAM_CTRL_EN then some 4
  else if [0, 1, 2, 3].any (fun p => s.flag (Reg.DP_STAT p) Fld.DP_STAT_RUN) then some 5
  else if !s.sys.changes.isEmpty || allQuads.any (fun q => (s.quad q).dvfs != .idle) then some 6
  else none

/-- The save of R255. -/
def State.evcSave (s : State) : State :=
  { s with evc := { s.evc with
      suspended := true
      saved := some ⟨s.dev.filter (fun p => 0x10100000 ≤ p.1 && p.1 < 0x10200000), s.evc.deadlines⟩ } }

/-- The restore of R255. -/
def State.evcRestore (s : State) : State :=
  match s.evc.saved with
  | some v =>
    let dev := s.dev.filter (fun p => p.1 < 0x10100000) ++ v.regs ++ s.dev.filter (fun p => 0x10200000 ≤ p.1)
    { s with dev := dev, evc := { s.evc with suspended := false, saved := none, deadlines := v.deadlines } }.setFld
      Reg.EVC_STAT Fld.EVC_STAT_RSTD 1
  | none => s

/-- The banks that SYS_FMRET does not retain are switched off, and read as zero after the wake (R481, R482). -/
def State.dropBanks (s : State) : State :=
  (List.range 32).foldl (fun s b =>
    if (s.reg Reg.SYS_FMRET).getLsbD b then s else s.clearMemory (0x1000000 + 0x100000 * b) (0x1100000 + 0x100000 * b)) s

/-- A quad's clock runs on to a wheel position 0 and stops there (R481); the voltage code is that of Retain. -/
def State.stopQuad (s : State) (q : Fin 4) : State :=
  let x := s.quad q
  let x := if s.pllRuns (2 + q.val) then { x with cycles := (x.cycles + 15) / 16 * 16, phase := 0, span := 0 } else x
  s.setQuad q { x with qvid := 4, assist := 4 }

/-- What each step of standby entry does (R481). -/
def State.standbyStep (s : State) (k : Nat) : State :=
  let s := match k with
    | 1 => s.evcSave
    | 2 => (allQuads.foldl (fun (s : State) q => s.stopQuad q) s).setClocks 0b111100 false
    | 3 => s.drainDdr
    | 4 => s.dropBanks
    | 5 =>
      let s := s.setClocks 0b11111111000000 false
      let s := [0, 1, 2, 3].foldl (fun (s : State) (n : Nat) => s.setFld (Reg.SYS_PXCTL n) Fld.SYS_PXCTL_LOCK 0) s
      s.setFld Reg.SYS_APLL Fld.SYS_APLL_LOCKED 0
    | _ => s
  s.setSys { s.sys with standby := k }

/-- STANDBY_ENTRY (R480, R481): armed, with every context Asleep or Off; `steps` + 1 steps run before a wake source cuts the entry short
(R483), or all six. -/
def execStandbyEntry (steps : Fin 6) (s : State) : Out :=
  if s.flag Reg.SYS_STBY Fld.SYS_STBY_GO = true ∧ s.sys.standby = 0 ∧
      allCtx.all (fun c => (s.ctx c).run == .asleep || (s.ctx c).run == .off) = true then
    let r := s.standbyRefusal
    let s := s.setFld Reg.SYS_STBY Fld.SYS_STBY_GO 0
    match r with
    | some c => .next ((s.setFlds Reg.SYS_STBYSTAT [(Fld.SYS_STBYSTAT_REF, 1), (Fld.SYS_STBYSTAT_CAUSE, c)]).raise 1297)
    | none =>
      let s := s.setSys { s.sys with wakes := 0, blind := if steps.val = 5 then s.fc + 18 else s.fc }
      .next ((List.range (steps.val + 1)).foldl (fun s k => s.standbyStep (k + 1)) s)
  else .next s

/-- A request is held at a port by standby (R484). -/
def State.requestHeld (s : State) : Bool :=
  s.fab.port.any (fun r => s.portHeld r.addr) || s.fab.ring.any (fun q => s.portHeld q.2.1) || s.fab.accepted.any (fun x => s.portHeld x.2.1)

/-- R483: a wake source that is enabled and has occurred, or holds: 0–15 a pin interrupt line with its EN, an edge for TRIG 0x0–0x2 and a level for
0x3–0x4; 16 a timer event that its TMR_IENu enables; 17 a held request. A level counts from the end of step 6. -/
def State.wakeArmed (s : State) (src : Nat) : Bool :=
  let a := Reg.PIN_IRQCFG src
  let trig := s.fld a Fld.PIN_IRQCFG_TRIG
  let seen := s.sys.wakes.getLsbD src
  let late : Bool := s.sys.blind ≤ s.fc
  (s.reg Reg.SYS_WAKEEN).getLsbD src &&
    (if src < 16 then s.flag a Fld.PIN_IRQCFG_EN && (if trig ≤ 2 then seen else late && s.lineLevel src)
     else if src = 16 then seen else late && s.requestHeld)

/-- The wake sequence begins (R483, R485): each quad's code is that of its point again, and its QPG is to be read. -/
def State.wakeQuad (s : State) (q : Fin 4) : State :=
  let x := s.quad q
  s.setQuad q { x with qvid := BitVec.ofNat 3 x.point, qpg := false }

/-- WAKE_SOURCE (R483). -/
def execWakeSource (src : Fin 18) (s : State) : Out :=
  if 0 < s.sys.standby ∧ s.sys.waking = none ∧ s.wakeArmed src.val = true then
    let s := s.setSys { s.sys with waking := some src.val }
    .next (if 2 ≤ s.sys.standby then allQuads.foldl (fun s q => s.wakeQuad q) s else s)
  else .next s

/-- A timing generator that waits for its pixel clock starts with it (R265, R487), once its pipe is not suspended. -/
def State.pipeClocked (s : State) (p : Fin 4) : State :=
  if s.flag (Reg.DP_CTRL p) Fld.DP_CTRL_EN && s.pllRuns (7 + p.val) && !s.pipeRuns p && s.sys.standby == 0 then s.pipeStart p else s

/-- WAKE_COMPLETE (R485, R255): after each quad's QPG has been read high. -/
def execWakeComplete (s : State) : Out :=
  match s.sys.waking with
  | some src =>
    if 2 ≤ s.sys.standby ∧ allQuads.any (fun q => !(s.quad q).qpg) = true then .next s
    else
      let s := allQuads.foldl (fun s q => s.setQuad q { s.quad q with assist := (s.quad q).point }) s
      let s := s.setClocks 0b11000001111100 true
      let s := (s.setSys { s.sys with standby := 0, waking := none, wakes := 0 }).evcRestore
      let s := (s.setFlds Reg.SYS_WAKESRC [(Fld.SYS_WAKESRC_VALID, 1), (Fld.SYS_WAKESRC_SRC, src)]).raise 1296
      .next ([0, 1, 2, 3].foldl (fun s p => s.pipeClocked p) s)
  | none => .next s

/-! ### Clocks (R486 to R488) -/

/-- PLL_LOCK (R485 to R488): the PLL's clock starts; a pixel clock starts a timing generator that waits for it, and the audio PLL locks
to device time when it runs already. In standby the PLLs that it stops lock in the wake sequence alone, and a pipe that is off has none. -/
def execPllLock (n : Fin 14) (s : State) : Out :=
  if s.sys.boot = .held ∨ (2 ≤ n.val ∧ s.sys.standby ≠ 0 ∧ s.sys.waking = none) then .next s
  else if 7 ≤ n.val ∧ n.val ≤ 10 then
    let p : Fin 4 := Fin.ofNat 4 (n.val - 7)
    if s.flag (Reg.SYS_PXCTL p) Fld.SYS_PXCTL_EN && !s.blockOff (blockOf n.val) then
      .next (((s.setClocks (2 ^ n.val) true).setFld (Reg.SYS_PXCTL p) Fld.SYS_PXCTL_LOCK 1).pipeClocked p)
    else .next s
  else if n.val = 11 ∧ s.pllRuns 11 = true then
    .next (if s.flag Reg.SYS_APLL Fld.SYS_APLL_DTLOCK then s.setFld Reg.SYS_APLL Fld.SYS_APLL_LOCKED 1 else s)
  else .next (s.setClocks (2 ^ n.val) true)

/-- PLL_LOCK_LOST (R486): the output keeps running. -/
def execPllLockLost (n : Fin 14) (s : State) : Out :=
  if s.pllRuns n then
    let s := s.setFld Reg.SYS_CLKSTAT Fld.SYS_CLKSTAT_LOST (s.fld Reg.SYS_CLKSTAT Fld.SYS_CLKSTAT_LOST ||| 2 ^ n.val)
    let s := if 7 ≤ n.val ∧ n.val ≤ 10 then s.setFld (Reg.SYS_PXCTL (n.val - 7)) Fld.SYS_PXCTL_LOCK 0 else s
    let s := if n.val = 11 then s.setFld Reg.SYS_APLL Fld.SYS_APLL_LOCKED 0 else s
    .next (s.raise 1308)
  else .next s

/-- The limits of a pixel PLL's setting (R487). -/
def pllOk (int frac mod div : Nat) : Bool :=
  let v := int * mod + frac
  48 * mod ≤ v && v ≤ 96 * mod && frac < mod && 2 ≤ div && div ≤ 96 && div * mod ≤ v && v ≤ 24 * div * mod

/-- A write to SYS_PXCTLn (R487). -/
def State.pxctlWrite (s : State) (n : Fin 4) (data : Word) : State :=
  let a := Reg.SYS_PXCTL n
  let int := Fld.SYS_PXCTL_INT.get data
  let div := Fld.SYS_PXCTL_DIV.get data
  let frac := s.fld (Reg.SYS_PXFRAC n) Fld.SYS_PXFRAC_FRAC
  let mod := s.fld (Reg.SYS_PXMOD n) Fld.SYS_PXMOD_MOD
  if s.pipeRuns n || !pllOk int frac mod div then s.setFld Reg.SYS_CLKSTAT Fld.SYS_CLKSTAT_PWI 1
  else
    let s := s.setFlds a [(Fld.SYS_PXCTL_EN, Fld.SYS_PXCTL_EN.get data), (Fld.SYS_PXCTL_LOCK, 0), (Fld.SYS_PXCTL_INT, int), (Fld.SYS_PXCTL_DIV, div)]
    (s.setPipe n { s.pipe n with pll := ⟨int, frac, mod, div⟩ }).setClocks (2 ^ (7 + n.val)) false

/-- PXCTL_WRITE (R487). -/
def execPxctlWrite (_who : Who) (n : Fin 4) (data : Word) (s : State) : Out := .next (s.pxctlWrite n data)

/-! ### FAULT_N and the boot (R493 to R499) -/

/-- FAULT_N is driven low (R493). -/
def State.faultLow (s : State) : Bool := (s.reg Reg.SYS_FAULT &&& 0x80000007) != 0

/-- SYS_FAULT_WRITE (R493). -/
def execSysFaultWrite (who : Who) (data : Word) (s : State) : Out :=
  .next (if who.lining then s.plainWrite Reg.SYS_FAULT data 0 else s)

/-- BOOT_START (R495). -/
def execBootStart (s : State) : Out :=
  if s.sys.boot = .released ∧ s.pllRuns 2 = true then
    let s := s.startCtx 0
    let s := s.setCtx 0 { s.ctx 0 with status := ⟨false, false, false, true, 0⟩, pc := 0, npc := 4 }
    .next (s.setSys { s.sys with boot := .rom 0, bootAt := s.fc })
  else .next s

/-- The fields of SYS_BOOTSTAT that the boot ROM writes (R499). -/
def State.bootStat (s : State) (ok open_ : Bool) (key src copy err : Nat) : State :=
  s.setFlds Reg.SYS_BOOTSTAT [(Fld.SYS_BOOTSTAT_OK, bit ok), (Fld.SYS_BOOTSTAT_OPEN, bit open_), (Fld.SYS_BOOTSTAT_KEYIDX, key),
    (Fld.SYS_BOOTSTAT_SRC, src), (Fld.SYS_BOOTSTAT_COPY, min copy 1), (Fld.SYS_BOOTSTAT_ERR, err)]

/-- The header checks 1 to 4 of R498. -/
def headerError (b : List Byte) : Option Nat :=
  let n (o k : Nat) : Nat := leNat ((b.drop o).take k)
  let len := n 8 4
  let entry := n 12 4
  if b.length < 256 ∨ n 0 4 ≠ 0x57424F54 ∨ n 4 2 ≠ 1 then some 2
  else if len < 4 ∨ 393216 < len ∨ entry % 4 ≠ 0 ∨ len ≤ entry then some 3
  else
    let key := (b.drop 0x20).take 64
    let bad : Bool := match (if n 6 2 < 4 then Config.rootKeyHash (n 6 2) else none) with
      | some h => h != sha256 key
      | none => false
    if bad then some 4
    else if ecdsaVerify key (sha256 (b.take 0x80)) ((b.drop 0x80).take 64) then none else some 5

/-- No root-key slot is programmed (R498). -/
def rootOpen : Bool := [0, 1, 2, 3].all (fun k => (Config.rootKeyHash k).isNone)

/-- The boot has failed (R499): FAULT_N, and the context's STOP, which meets a KILL that the Lining level holds as any STOP does (R100; log 70). -/
def State.bootFail (s : State) (key src copy err : Nat) : State :=
  let s := (s.bootStat false rootOpen key src copy err).setFld Reg.SYS_FAULT Fld.SYS_FAULT_BOOT 1
  (s.setSys { s.sys with boot := .done }).stopSelf 0

/-- The copies that a source offers (R496). -/
def bootCopies (src : Nat) : Nat := if src = 2 then 3 else 2

/-- What the boot ROM reads for a copy, or nothing (R496). -/
def bootRead (src copy : Nat) : Option BootRead :=
  match src with
  | 0 => some (.qspi 0x03 (if copy = 0 then 0 else 0x200000))
  | 1 => some (.emmc (copy + 1) 0)
  | 2 => some (.network Config.macAddress copy)
  | _ => none

/-- The fc between two attempts over the network, 2 s (R496). -/
def attemptFc : Nat := 1500000000

/-- A copy fails with an error; the last one fails the boot (R499). -/
def State.copyFailed (s : State) (copy key err : Nat) : State :=
  let src := s.fld Reg.SYS_STRAP Fld.SYS_STRAP_BOOTSRC
  let s := s.setFld Reg.SYS_BOOTSTAT Fld.SYS_BOOTSTAT_ERR err
  if copy + 1 < bootCopies src then
    s.setSys { s.sys with boot := .rom (copy + 1), bootAt := if src = 2 then s.sys.bootAt + attemptFc else s.sys.bootAt }
  else s.bootFail key src copy err

/-- The boot ROM writes a payload into the Lining store (R498). -/
def State.loadPayload (s : State) (p : List Byte) : State :=
  let s := s.clearMemory 0x4000000 (0x4000000 + p.length)
  { s with mem := Memory.writes s.mem 0x4000000 p }

/-- BOOT_COPY_CHECK (R496 to R499): what the boot ROM's read for the next copy finds, an image or no bytes: `failure` 0 no response, 1 an
access error, 2 a network timeout. Another read than the one it has made answers nothing, and an attempt over the network is not answered before
it is made. -/
def execBootCopyCheck (copied : BootCopy) (failure : Fin 3) (s : State) : Out :=
  let src := s.fld Reg.SYS_STRAP Fld.SYS_STRAP_BOOTSRC
  match s.sys.boot with
  | .rom copy =>
    if (s.ctx 0).run ≠ .active then .next s
    else if src = 3 then .next (s.bootFail 0 src 0 9)
    else if bootRead src copy ≠ some copied.source ∨ s.fc < s.sys.bootAt then .next s
    else match copied.image with
      | none => .next (s.copyFailed copy 0 (match failure with | 0 => 1 | 1 => 7 | 2 => 8))
      | some b =>
        let key := leNat ((b.drop 6).take 2)
        match headerError b with
        | some e => .next (s.copyFailed copy key e)
        | none =>
          let len := leNat ((b.drop 8).take 4)
          let entry := leNat ((b.drop 12).take 4)
          let p := (b.drop 256).take len
          if p.length < len then .next (s.copyFailed copy key 1)
          else
            let s := s.loadPayload p
            if sha256 p ≠ (b.drop 0x60).take 32 then .next (s.copyFailed copy key 6)
            else
              let s := s.clearMemory (0x4000000 + len) 0x4080000
              let s := s.bootStat true rootOpen key src copy (s.fld Reg.SYS_BOOTSTAT Fld.SYS_BOOTSTAT_ERR)
              let pc := BitVec.ofNat 48 (0x4000000 + entry)
              let s := s.setCtx 0 { s.ctx 0 with pc := pc, npc := pc + 4, slot := false, annul := false }
              .next (s.setSys { s.sys with boot := .done })
  | _ => .next s

/-! ### The window -/

/-- A write to SYS_APLL (R488). -/
def State.apllWrite (s : State) (data hw : Word) : State :=
  let s := s.plainWrite Reg.SYS_APLL data hw
  if s.flag Reg.SYS_APLL Fld.SYS_APLL_DTLOCK then s else s.setFld Reg.SYS_APLL Fld.SYS_APLL_LOCKED 0

/-- A write to SYS_RSTCTL (R491). -/
def State.rstctlWrite (s : State) (who : Who) (data : Word) : State :=
  if who.lining then
    let s := (List.range 18).foldl (fun s i => if data.getLsbD i then s.brst (blockOf i) else s) s
    if data.getLsbD 31 then s.sysReset 3 else s
  else s

/-- A write lands in the SYS block. -/
def State.landSys (s : State) (who : Who) (a : Nat) (data hw : Word) : State :=
  if a = Reg.SYS_RSTCTL then s.rstctlWrite who data
  else if a = Reg.SYS_FAULT ∨ a = Reg.SYS_BOOTSTAT then if who.lining then s.plainWrite a data hw else s
  else if a = Reg.SYS_BPWR then s.bpwrWrite data
  else if a = Reg.SYS_APLL then s.apllWrite data hw
  else if a = Reg.SYS_APHL ∨ a = Reg.SYS_APHH then (s.plainWrite a data hw).unlockAudio
  else if 0x10000020 ≤ a ∧ a < 0x10000030 then s.qdvfsWrite (Fin.ofNat 4 ((a - 0x10000020) / 4)) data hw
  else if 0x10000080 ≤ a ∧ a < 0x100000C0 ∧ a % 16 = 0 then s.pxctlWrite (Fin.ofNat 4 ((a - 0x10000080) / 16)) data
  else s.plainWrite a data hw

/-- A read of the SYS block. -/
def State.readSys (s : State) (who : Who) (a : Nat) (hw : Word) : State :=
  if a = Reg.SYS_DEVID then s.respondWord who devid
  else let r := s.plainRead a hw
       r.2.respondWord who r.1

end Sys2Proof.Machine
end

