-- ==== Sys2Proof/Machine/Timers.lean ====
section
/-! DEFINITION. Timer units (R451 to R461). Readings and choices: log 50. -/

namespace Sys2Proof.Machine

/-- A unit. -/
def State.unit (s : State) (u : Fin 32) : Tmr := s.tmr[u.val]

/-- A unit changed. -/
def State.setUnit (s : State) (u : Fin 32) (x : Tmr) : State := { s with tmr := s.tmr.set u.val x }

/-- A unit runs: EN is 1 and it is not frozen (R452, R459). -/
def State.frozen (s : State) (u : Fin 32) : Bool := s.flag (Reg.TMR_STAT u) Fld.TMR_STAT_FROZEN

/-- A unit takes ticks. -/
def State.ticks (s : State) (u : Fin 32) : Bool := s.flag (Reg.TMR_CTL u) Fld.TMR_CTL_EN && !s.frozen u

/-- The trigger mode of a unit (R458). -/
def State.trigMode (s : State) (u : Fin 32) : Nat := s.fld (Reg.TMR_TRIG u) Fld.TMR_TRIG_MODE

/-- Event k of a unit (R460), which can wake the device (R483). -/
def State.tmrEvent (s : State) (u : Fin 32) (k : Nat) : State :=
  let on := (s.reg (Reg.TMR_IEN u)).getLsbD k
  (if on then s.noteWake 16 else s).raiseIf on (1008 + 6 * u.val + k)

/-- A signal of a unit acts on its slaves at the next pc edge (R458): signal 0–3 of a channel, 4 the reload. -/
def State.tmrSignal (s : State) (u : Fin 32) (sig : Nat) : State :=
  let hit := (List.finRange 32).filter (fun (v : Fin 32) =>
    s.fld (Reg.TMR_TRIG v) Fld.TMR_TRIG_SRC == u.val && s.fld (Reg.TMR_TRIG v) Fld.TMR_TRIG_SIG == sig && 2 ≤ s.trigMode v)
  { s with tmrX := { s.tmrX with signals := s.tmrX.signals ++ hit.map (fun v => (v.val, s.trigMode v, s.fc / 3)) } }

/-- MODE of a channel. -/
def State.chMode (s : State) (u : Fin 32) (c : Fin 4) : Nat := Fld.TMR_CCTL_MODE.get (s.cctl u c)

/-- OUTMODE of a channel. -/
def State.chOut (s : State) (u : Fin 32) (c : Fin 4) : Nat := Fld.TMR_CCTL_OUTMODE.get (s.cctl u c)

/-- The reload actions without a period event (R452): compare channels are armed and PWM outputs take their reload level. -/
def State.reloadActions (s : State) (u : Fin 32) : State :=
  let x := s.unit u
  s.setUnit u { x with
    armed := Vector.ofFn (fun c => s.chMode u c == 1)
    out := Vector.ofFn (fun c => if s.chMode u c == 1 then (match s.chOut u c with | 4 => true | 5 => false | _ => x.out[c]) else x.out[c]) }

/-- A compare channel is to fire (R454). -/
def State.firing (s : State) (u : Fin 32) (c : Fin 4) : Bool :=
  s.ticks u && s.chMode u c == 1 && (s.unit u).armed[c] && (s.unit u).cmp[c] ≤ (s.unit u).cnt

/-- A compare channel fires (R454). -/
def State.fire (s : State) (u : Fin 32) (c : Fin 4) : State :=
  let x := s.unit u
  let out := match s.chOut u c with
    | 1 => true
    | 2 => false
    | 3 => !x.out[c]
    | 4 => false
    | 5 => true
    | _ => x.out[c]
  let s := s.setUnit u { x with armed := x.armed.set c false, out := x.out.set c out }
  let s := s.setFld (Reg.TMR_STAT u) Fld.TMR_STAT_CHF (s.fld (Reg.TMR_STAT u) Fld.TMR_STAT_CHF ||| 2 ^ c.val)
  (s.tmrEvent u c).tmrSignal u c

/-- COMPARE_FIRE (R454). -/
def execCompareFire (u : Fin 32) (ch : Fin 4) (s : State) : Out := if s.firing u ch then .next (s.fire u ch) else .next s

/-- Every channel that is to fire fires in the edge of a write (R453, R454). -/
def State.fireAll (s : State) (u : Fin 32) : State :=
  (List.finRange 4).foldl (fun s c => if s.firing u c then s.fire u c else s) s

/-- The fc between ticks of CLKSEL 0x0: PRE + 1 pc of 3 fc (R451). -/
def State.tickFc (s : State) (u : Fin 32) : Nat := 3 * (s.fld (Reg.TMR_CTL u) Fld.TMR_CTL_PRE + 1)

/-- Device time in ns as the follower copy of the peripheral domain shows it (R28; log 11). -/
def State.unitTime (s : State) : Nat := s.follower (4 * 2 ^ 32) / 2 ^ 32

/-- The quotient of device time that a unit with CLKSEL 0x2 counts (R451). -/
def State.quotient (s : State) (u : Fin 32) : Nat := s.unitTime / (s.reg (Reg.TMR_DTSTEP u)).toNat

/-- An edge of the selected kind: 0 rising, 1 falling, 2 both (R451, R455). -/
def edgeOf (kind : Nat) (old new : Bool) : Bool :=
  match kind with
  | 0 => !old && new
  | 1 => old && !new
  | _ => old != new

/-- An input function has an edge of the selected kind that its consumer has not taken. -/
def State.edgeHere (s : State) (kind g : Nat) : Bool := edgeOf kind (s.pins.inputs.getLsbD g) (s.inLevel g)

/-- The source of a unit gives a tick now (R451, R458): the prescaler, an external edge, a new quotient of device time. Gated ticks are
dropped or not counted, and a unit in clock mode takes none. -/
def State.sourceTick (s : State) (u : Fin 32) : Bool :=
  let x := s.unit u
  s.trigMode u != 3 && (s.trigMode u != 1 || x.gate) &&
  (match s.fld (Reg.TMR_CTL u) Fld.TMR_CTL_CLKSEL with
   | 1 => s.edgeHere (s.fld (Reg.TMR_CTL u) Fld.TMR_CTL_EDGE) (128 + u.val)
   | 2 => s.quotient u != x.quot
   | _ => x.due ≤ s.fc)

/-- A tick's source moves on: the prescaler restarts its count, the quotient is taken. -/
def State.tickTaken (s : State) (u : Fin 32) : State :=
  let x := s.unit u
  s.setUnit u { x with due := x.due + s.tickFc u, quot := s.quotient u }

/-- The source of a unit stands after its last tick that has passed: ticks in a freeze or in clock mode are lost, and the prescaler has
counted on (R451, R458, R459; log 67). -/
def State.resyncTicks (s : State) (u : Fin 32) : State :=
  let x := s.unit u
  let n := s.tickFc u
  s.setUnit u { x with due := if x.due ≤ s.fc then s.fc + (n - (s.fc - x.due) % n) else x.due,
                       quot := s.quotient u }

/-- A unit can take a tick: it runs and no compare of the last edge is still to fire (R453). -/
def State.canTick (s : State) (u : Fin 32) : Bool := s.ticks u && (List.finRange 4).all (fun c => !s.firing u c)

/-- The edge of a unit's clock input that gave a tick is taken (R451). -/
def State.clockEdge (s : State) (u : Fin 32) : State :=
  if s.fld (Reg.TMR_CTL u) Fld.TMR_CTL_CLKSEL = 1 then s.setInput (128 + u.val) (s.inLevel (128 + u.val)) else s

/-- A tick that does not reload (R452). -/
def State.countTick (s : State) (u : Fin 32) : State := s.setUnit u { s.unit u with cnt := (s.unit u).cnt + 1 }

/-- A reload (R453 step 3). -/
def State.reload (s : State) (u : Fin 32) : State :=
  let s := (s.setUnit u { s.unit u with cnt := 0 }).reloadActions u
  let s := (s.setFld (Reg.TMR_STAT u) Fld.TMR_STAT_PERF 1).tmrEvent u 4
  s.tmrSignal u 4

/-- TIMER_TICK (R452): a tick below the period. -/
def execTimerTick (u : Fin 32) (s : State) : Out :=
  if s.canTick u ∧ s.sourceTick u ∧ (s.unit u).cnt < (s.unit u).per then .next (((s.tickTaken u).countTick u).clockEdge u) else .next s

/-- TIMER_RELOAD (R453): a tick at or above the period. -/
def execTimerReload (u : Fin 32) (s : State) : Out :=
  if s.canTick u ∧ s.sourceTick u ∧ (s.unit u).per ≤ (s.unit u).cnt then .next (((s.tickTaken u).reload u).clockEdge u) else .next s

/-! ### Triggers (R458) -/

/-- A signal for a unit in a trigger mode is taken, at the pc edge after the one in which its master gave it (R458). -/
def State.takeSignal (s : State) (u : Fin 32) (mode : Nat) : Option State :=
  match s.tmrX.signals.find? (fun x => x.1 == u.val && x.2.1 == mode && x.2.2 + 1 == s.fc / 3) with
  | some x => some { s with tmrX := { s.tmrX with signals := s.tmrX.signals.erase x } }
  | none => none

/-- Signals whose pc edge has passed act no more (R458). -/
def State.dropSignals (s : State) : State :=
  { s with tmrX := { s.tmrX with signals := s.tmrX.signals.filter (fun x => s.fc / 3 ≤ x.2.2 + 1) } }

/-- TRIGGER_RESET (R453, R458): a tick of the same edge is dropped. The compares of the edge before fire first. -/
def execTriggerReset (u : Fin 32) (s : State) : Out :=
  if s.ticks u ∧ s.canTick u = false then .next s
  else match s.takeSignal u 2 with
  | some s => if s.ticks u ∧ s.trigMode u = 2 then
      let s := if s.sourceTick u then s.tickTaken u else s
      .next ((s.setUnit u { s.unit u with cnt := 0 }).reloadActions u) else .next s
  | none => .next s

/-- TRIGGER_CLOCK (R458): the signal is one tick. -/
def execTriggerClock (u : Fin 32) (s : State) : Out :=
  if s.ticks u ∧ s.canTick u = false then .next s
  else match s.takeSignal u 3 with
    | some s => if s.ticks u ∧ s.trigMode u = 3 then
        .next (if (s.unit u).per ≤ (s.unit u).cnt then s.reload u else s.countTick u) else .next s
    | none => .next s

/-- The effect of a write that sets EN (R452). -/
def State.enableUnit (s : State) (u : Fin 32) : State :=
  let s := s.setFld (Reg.TMR_CTL u) Fld.TMR_CTL_EN 1
  let s := s.reloadActions u
  (s.setUnit u { s.unit u with due := s.fc + s.tickFc u, left := none, quot := s.quotient u }).fireAll u

/-- TRIGGER_START (R458). -/
def execTriggerStart (u : Fin 32) (s : State) : Out :=
  match s.takeSignal u 4 with
  | some s => if s.frozen u = false ∧ s.trigMode u = 4 ∧ s.flag (Reg.TMR_CTL u) Fld.TMR_CTL_EN = false then .next (s.enableUnit u)
              else .next s
  | none => .next s

/-- The gate signal of a unit's master (R458): a channel's output level, or the master's EN. -/
def State.gateSignal (s : State) (u : Fin 32) : Bool :=
  let m : Fin 32 := Fin.ofNat 32 (s.fld (Reg.TMR_TRIG u) Fld.TMR_TRIG_SRC)
  let g := s.fld (Reg.TMR_TRIG u) Fld.TMR_TRIG_SIG
  if g < 4 then (s.unit m).out.getD g false else s.flag (Reg.TMR_CTL m) Fld.TMR_CTL_EN

/-- TRIGGER_GATE (R458): the gate follows the master's signal; the prescaler keeps its count while it is closed. -/
def execTriggerGate (u : Fin 32) (s : State) : Out :=
  let x := s.unit u
  let g := s.gateSignal u
  if s.trigMode u ≠ 1 ∨ s.frozen u = true ∨ x.gate = g then .next s
  else if g then .next (s.setUnit u { x with gate := true, due := s.fc + x.left.getD (s.tickFc u), left := none,
                                             quot := s.quotient u })
  else .next (s.setUnit u { x with gate := false, left := some (x.due - s.fc) })

/-! ### Capture (R455) -/

/-- CAPTURE (R455): a channel's input function, which is 0 where it names no pin (R464), comes to `level` at a pc edge; an edge of the kind CEDGE
selects records a value. The ball decides: where it does not show `level`, the event has not occurred. -/
def execCapture (u : Fin 32) (ch : Fin 4) (level : Bool) (s : State) : Out :=
  let g := 4 * u.val + ch.val
  let w := s.cctl u ch
  let edge := s.edgeHere (Fld.TMR_CCTL_CEDGE.get w) g
  if s.inLevel g ≠ level then .next s
  else
    let s := s.setInput g level
    if edge = false ∨ s.chMode u ch ≠ 2 ∨ s.frozen u = true then .next s
    else
      let x := s.unit u
      let v := if Fld.TMR_CCTL_CVAL.get w = 1 then (s.unitTime + 2 ^ 64 - 8) % 2 ^ 48 else x.cnt
      let a := Reg.TMR_STAT u
      let b := 2 ^ ch.val
      let s := s.setUnit u { x with cap := x.cap.set ch v }
      let again := (s.fld a Fld.TMR_STAT_CAPPEND).testBit ch
      let s := s.setFlds a [(Fld.TMR_STAT_CAPPEND, s.fld a Fld.TMR_STAT_CAPPEND ||| b), (Fld.TMR_STAT_CHF, s.fld a Fld.TMR_STAT_CHF ||| b)]
      let s := (s.tmrEvent u ch).tmrSignal u ch
      if again then .next ((s.setFld a Fld.TMR_STAT_COVR (s.fld a Fld.TMR_STAT_COVR ||| b)).tmrEvent u 5) else .next s

/-- An edge of an input function waits for the command that takes it: a capture, or a tick from TMRu_CLK (R451, R455, R459). -/
def State.edgeWaits (s : State) (g : Nat) : Bool :=
  if g < 128 then
    let u : Fin 32 := Fin.ofNat 32 (g / 4)
    let w := s.cctl u (g % 4)
    Fld.TMR_CCTL_MODE.get w == 2 && !s.frozen u && s.edgeHere (Fld.TMR_CCTL_CEDGE.get w) g
  else if g < 160 then
    let u : Fin 32 := Fin.ofNat 32 (g - 128)
    s.ticks u && s.fld (Reg.TMR_CTL u) Fld.TMR_CTL_CLKSEL == 1 && s.sourceTick u
  else false

/-- The edge detection of the input functions at a pc edge: every level is taken but one that waits for its command. -/
def State.takeInputs (s : State) : State :=
  { s with pins := { s.pins with inputs := (List.range 168).foldl (fun w g =>
      let v := if s.edgeWaits g then s.pins.inputs.getLsbD g else s.inLevel g
      if v then w ||| BitVec.ofNat 168 (2 ^ g) else w) 0 } }

/-- DEBUG_FREEZE (R459): the freeze follows the owner context's Halted state. -/
def execDebugFreeze (u : Fin 32) (s : State) : Out :=
  let own : Ctx := Fin.ofNat 128 (s.fld (Reg.TMR_OWN u) Fld.TMR_OWN_CTX)
  let want := s.flag (Reg.TMR_CTL u) Fld.TMR_CTL_FRZ && (s.ctx own).run == .halted
  if want = s.frozen u then .next s
  else
    let s := if want then s else s.resyncTicks u
    .next (s.setFld (Reg.TMR_STAT u) Fld.TMR_STAT_FROZEN (bit want))

/-! ### Writes (R451, R452, R454, R457) -/

/-- A write to TMR_CTLu. -/
def State.tmrControl (s : State) (u : Fin 32) (data hw : Word) : State :=
  let a := Reg.TMR_CTL u
  let old := s.reg a
  let s := s.plainWrite a data hw
  let new := s.reg a
  if Fld.TMR_CTL_EN.get old = 0 ∧ Fld.TMR_CTL_EN.get new = 1 then s.enableUnit u
  else if Fld.TMR_CTL_CLKSEL.get old ≠ Fld.TMR_CTL_CLKSEL.get new ∨ Fld.TMR_CTL_PRE.get old ≠ Fld.TMR_CTL_PRE.get new then
    s.setUnit u { s.unit u with due := s.fc + s.tickFc u, left := (s.unit u).left.map (fun _ => s.tickFc u),
                                quot := s.quotient u }
  else s

/-- TIMER_ENABLE (R452). -/
def execTimerEnable (_who : Who) (u : Fin 32) (data : Word) (s : State) : Out := .next (s.tmrControl u data 0)

/-- A write to TMR_CNTLu (R454, R457). -/
def State.cntWrite (s : State) (u : Fin 32) (data : Word) : State :=
  let x := s.unit u
  let n := data.toNat + x.stCnt * 2 ^ 32
  (s.setUnit u { x with cnt := n, armed := Vector.ofFn (fun c => s.chMode u c == 1 && n < x.cmp[c]) }).fireAll u

/-- CNTL_WRITE (R457). -/
def execCntlWrite (_who : Who) (u : Fin 32) (data : Word) (s : State) : Out := .next (s.cntWrite u data)

/-- A write to TMR_PERLu (R452, R457): a count at or above it reloads at the next tick. -/
def State.perWrite (s : State) (u : Fin 32) (data : Word) : State :=
  s.setUnit u { s.unit u with per := data.toNat + (s.unit u).stPer * 2 ^ 32 }

/-- PERL_WRITE (R452): the tick of this edge, where one falls in it, reloads at once. -/
def execPerlWrite (_who : Who) (u : Fin 32) (data : Word) (s : State) : Out := .next (s.perWrite u data)

/-- A write to TMR_CMPLcu (R454, R457): the channel is armed, and fires where the count has passed. -/
def State.cmpWrite (s : State) (u : Fin 32) (c : Fin 4) (data : Word) : State :=
  let x := s.unit u
  (s.setUnit u { x with cmp := x.cmp.set c (data.toNat + x.stCmp[c] * 2 ^ 32), armed := x.armed.set c (s.chMode u c == 1 || x.armed[c]) }).fireAll u

/-- CMPL_WRITE (R454). -/
def execCmplWrite (_who : Who) (u : Fin 32) (ch : Fin 4) (data : Word) (s : State) : Out := .next (s.cmpWrite u ch data)

/-- A write to TMR_CCTLcu (R454): one that sets MODE to 1 sets the output to 0 and arms the channel. -/
def State.cctlWrite (s : State) (u : Fin 32) (c : Fin 4) (data hw : Word) : State :=
  let old := s.chMode u c
  let s := s.plainWrite (Reg.TMR_CCTL u c) data hw
  if s.chMode u c = 1 ∧ old ≠ 1 then
    (s.setUnit u { s.unit u with out := (s.unit u).out.set c false, armed := (s.unit u).armed.set c true }).fireAll u
  else s

/-- CCTL_MODE_WRITE (R454). -/
def execCctlModeWrite (_who : Who) (u : Fin 32) (ch : Fin 4) (data : Word) (s : State) : Out := .next (s.cctlWrite u ch data 0)

/-- A write to TMR_DTSTEPu gives no tick (R451). -/
def State.dtstepWrite (s : State) (u : Fin 32) (data hw : Word) : State :=
  let s := s.plainWrite (Reg.TMR_DTSTEP u) data hw
  s.setUnit u { s.unit u with quot := s.quotient u }

/-- A write to TMR_TRIGu (R458): a unit that leaves gate mode counts on from where the gate left its prescaler, one that leaves clock
mode takes no tick that passed in it, and one that enters gate mode behind a closed gate stops its prescaler. -/
def State.trigWrite (s : State) (u : Fin 32) (data hw : Word) : State :=
  let old := s.trigMode u
  let s := s.plainWrite (Reg.TMR_TRIG u) data hw
  let new := s.trigMode u
  if old = new then s
  else
    let x := s.unit u
    let s := match old, x.left with
      | 1, some k => s.setUnit u { x with due := s.fc + k, left := none, quot := s.quotient u }
      | _, _ => if old = 3 then s.resyncTicks u else s
    if new = 1 ∧ x.gate = false then s.setUnit u { s.unit u with left := some ((s.unit u).due - s.fc) } else s

/-- A write lands in the TMR block. -/
def State.landTmr (s : State) (_who : Who) (a : Nat) (data hw : Word) : State :=
  let o := a - 0x10D00000
  if 0x2000 ≤ o then s
  else
    let u : Fin 32 := Fin.ofNat 32 (o / 0x100)
    let x := s.unit u
    let r := o % 0x100
    let hi := data.toNat % 2 ^ 16
    if r = 0x00 then s.tmrControl u data hw
    else if r = 0x08 then s.cntWrite u data
    else if r = 0x0C then s.setUnit u { x with stCnt := hi }
    else if r = 0x10 then s.perWrite u data
    else if r = 0x14 then s.setUnit u { x with stPer := hi }
    else if r = 0x1C then s.dtstepWrite u data hw
    else if r = 0x18 then s.trigWrite u data hw
    else if 0x40 ≤ r ∧ r < 0xC0 then
      let c : Fin 4 := Fin.ofNat 4 ((r - 0x40) / 0x20)
      if r % 0x20 = 0 then s.cctlWrite u c data hw
      else if r % 0x20 = 4 then s.cmpWrite u c data
      else if r % 0x20 = 8 then s.setUnit u { x with stCmp := x.stCmp.set c hi }
      else s
    else s.plainWrite a data hw

/-! ### Reads (R456, R457) -/

/-- The key of a reader's latch. -/
def latchKey (a : Nat) (who : Who) : Nat := a * 256 + who.id

/-- The high half at register `a` is latched for a reader. -/
def State.latchHigh (s : State) (who : Who) (a v : Nat) : State :=
  { s with tmrX := { s.tmrX with latches := Sparse.put (latchKey a who) (v / 2 ^ 32) s.tmrX.latches } }

/-- A read of TMR_CNTLu (R457). -/
def State.cntRead (s : State) (who : Who) (u : Fin 32) : State :=
  let v := (s.unit u).cnt
  (s.latchHigh who (Reg.TMR_CNTH u) v).respondWord who (BitVec.ofNat 32 v)

/-- CNTL_READ (R457). -/
def execCntlRead (who : Who) (u : Fin 32) (s : State) : Out := .next (s.cntRead who u)

/-- A read of TMR_CAPLcu (R456): CAPPEND clears. -/
def State.capRead (s : State) (who : Who) (u : Fin 32) (c : Fin 4) : State :=
  let v := (s.unit u).cap[c]
  let a := Reg.TMR_STAT u
  let p := s.fld a Fld.TMR_STAT_CAPPEND
  let s := s.setFld a Fld.TMR_STAT_CAPPEND (p - p / 2 ^ c.val % 2 * 2 ^ c.val)
  (s.latchHigh who (Reg.TMR_CAPH u c) v).respondWord who (BitVec.ofNat 32 v)

/-- CAPL_READ (R456). -/
def execCaplRead (who : Who) (u : Fin 32) (ch : Fin 4) (s : State) : Out := .next (s.capRead who u ch)

/-- A read of the TMR block. -/
def State.readTmr (s : State) (who : Who) (a : Nat) (hw : Word) : State :=
  let o := a - 0x10D00000
  let plain := let r := s.plainRead a hw
               r.2.respondWord who r.1
  if 0x2000 ≤ o then plain
  else
    let u : Fin 32 := Fin.ofNat 32 (o / 0x100)
    let x := s.unit u
    let r := o % 0x100
    let latched := (Sparse.get (latchKey a who) s.tmrX.latches).getD 0
    if r = 0x08 then s.cntRead who u
    else if r = 0x0C then s.respondWord who (BitVec.ofNat 32 latched)
    else if r = 0x10 then s.respondWord who (BitVec.ofNat 32 x.per)
    else if r = 0x14 then s.respondWord who (BitVec.ofNat 32 (x.per / 2 ^ 32))
    else if 0x40 ≤ r ∧ r < 0xC0 then
      let c : Fin 4 := Fin.ofNat 4 ((r - 0x40) / 0x20)
      match r % 0x20 with
      | 0 => s.respondWord who (Fld.TMR_CCTL_LEVEL.put (bit x.out[c]) (s.reg a))
      | 4 => s.respondWord who (BitVec.ofNat 32 x.cmp[c])
      | 8 => s.respondWord who (BitVec.ofNat 32 (x.cmp[c] / 2 ^ 32))
      | 0xC => s.capRead who u c
      | 0x10 => s.respondWord who (BitVec.ofNat 32 latched)
      | _ => plain
    else plain

end Sys2Proof.Machine
end

