-- ==== Sys2Proof/Machine/Land.lean ====
section
/-! DEFINITION. Register space: where a write lands and what a read returns, block by block (R5 to R8, R17, R39). Readings and choices: logs 6, 28. -/

namespace Sys2Proof.Machine

/-- A write lands in the FAB block (R22 to R24, R294): only one with the Lining bit set, and the old value holds for requests accepted
before the second fc after it. -/
def State.landFab (s : State) (who : Who) (a : Nat) (data hw : Word) : State :=
  if who.lining = false then s
  else
    let old := s.reg a
    let data := if a = Reg.FAB_IGRP 25 then data &&& 0xF else data
    let s := s.plainWrite a data hw
    let delayed := a = Reg.FAB_CTRL || (Reg.FAB_IGRP 0 ≤ a && a < Reg.FAB_APCTL) || (Reg.FAB_APOWN 0 ≤ a && a < Reg.FAB_APOWN 4)
    if delayed && s.reg a != old then
      { s with fab := { s.fab with fwOld := s.fab.fwOld.filter (fun o => s.fc < o.due) ++ [⟨a, old, s.fc + 2⟩] } }
    else s

/-- A read of a block with no reads of its own. -/
def State.readPlain (s : State) (who : Who) (a : Nat) (hw : Word) : State :=
  let r := s.plainRead a hw
  r.2.respondWord who r.1

/-- A write lands in register space. -/
def State.landWrite (s : State) (who : Who) (a : Nat) (data hw : Word) : State :=
  match blockIndex a with
  | 0 => s.landSys who a data hw
  | 1 => s.landEvc who a data hw
  | 2 => s.landPsq who a data hw
  | 3 => s.landMem who a data hw
  | 4 => s.landFab who a data hw
  | 5 => s.landShu who a data hw
  | 6 => s.landPrs who a data hw
  | 11 => s.landSpl who a data hw
  | 12 => s.landSeam who a data hw
  | 13 => s.landTmr who a data hw
  | 14 => s.landPin who a data hw
  | 15 => s.landSelm who a data hw
  | 16 => s.landDbg who a data hw
  | 17 => s.landHyc who a data hw
  | _ => s.landDp who a data hw

/-- A read of register space, answered to its initiator. -/
def State.readReg (s : State) (who : Who) (a : Nat) (hw : Word) : State :=
  match blockIndex a with
  | 0 => s.readSys who a hw
  | 1 => s.readEvc who a hw
  | 2 => s.readPsq who a hw
  | 3 => s.readPlain who a hw
  | 4 => s.readPlain who a hw
  | 5 => s.readPlain who a hw
  | 6 => s.readPlain who a hw
  | 11 => s.readSpl who a hw
  | 12 => s.readSeam who a hw
  | 13 => s.readTmr who a hw
  | 14 => s.readPin who a hw
  | 15 => s.readSelm who a hw
  | 16 => s.readDbg who a hw
  | 17 => s.readHyc who a hw
  | _ => s.readDp who a hw

/-- The block of a register address holds accesses off (R39, R420, R491). -/
def State.regHeld (s : State) (a : Nat) : Bool := blockIndex a != 4 && s.fab.clearing.contains (blockOf (blockIndex a))

/-- An allowed register access waits for its block's clearing. -/
def State.holdAccess (s : State) (who : Who) (a : Nat) (data : Option Word) : State :=
  { s with fab := { s.fab with held := s.fab.held ++ [(blockOf (blockIndex a), who, a, data)] } }

/-- An allowed register write of an initiator, answered. -/
def State.regWrite (s : State) (who : Who) (a : Nat) (data : Word) : State :=
  if s.regHeld a then s.holdAccess who a (some data) else (s.landWrite who a data 0).respond who .done

/-- An allowed register read of an initiator. -/
def State.regRead (s : State) (who : Who) (a : Nat) : State :=
  if s.regHeld a then s.holdAccess who a none else s.readReg who a 0

/-- An engine that asked for a register has its answer (R18), where its read has been performed. -/
def State.gotRead (s : State) (who : Who) (a : Nat) : State :=
  if !who.isEngine || s.regHeld a || s.gotten who a != some none then s
  else { s with fab := { s.fab with got := s.fab.got.map (fun g =>
    if g.1 == who.id && g.2.1 == a then (g.1, g.2.1, Sparse.get who.id s.fab.resp) else g) } }

/-- The word that an initiator's last register read returned. -/
def State.lastWord (s : State) (who : Who) : Word :=
  match Sparse.get who.id s.fab.resp with
  | some (.data b) => BitVec.ofNat 32 (leNat b)
  | _ => 0

/-! ### Register rows -/

/-- An address in register space, aligned (R5). -/
def regAddr (a : Nat) : Bool := 0x10000000 ≤ a && a < 0x11200000 && a % 4 == 0

/-- The block of a register address is suspended over a power-down, and its accesses complete after it (R255). -/
def State.evcAsleep (s : State) (a : Nat) : Bool := blockIndex a == 1 && s.evc.suspended

/-- REGISTER_WRITE (R6): a write lands; `hwSet` are the status bits that hardware sets in the same cycle (R8). One to the suspended event
controller is held (R255). -/
def execRegisterWrite (who : Who) (addr : Nat) (data hwSet : Word) (s : State) : Out :=
  .next (if !regAddr addr then s
    else if s.evcAsleep addr then s.onRing who addr (some data) else s.landWrite who addr data hwSet)

/-- RC_FIELD_READ (R6): a read; `hwSet` are the status bits that hardware sets in the same cycle (R8). One of the suspended event controller is
held (R255). -/
def execRcFieldRead (who : Who) (addr : Nat) (hwSet : Word) (s : State) : Out :=
  .next (if !regAddr addr then s
    else if s.evcAsleep addr then s.onRing who addr none else s.readReg who addr hwSet)

/-- BLOCK_CLEARING_END (R39, R256, R491): the held accesses complete, and claims that the reset voided are answered with 0x7FF. -/
def execBlockClearingEnd (b : Block) (s : State) : Out :=
  if s.fab.clearing.contains b then
    let mine := s.fab.held.filter (fun h => h.1 = b)
    let s := { s with fab := { s.fab with clearing := s.fab.clearing.erase b, held := s.fab.held.filter (fun h => h.1 ≠ b) } }
    let m := s.fld Reg.SYS_RSTCTL Fld.SYS_RSTCTL_BRST
    let s := s.setFld Reg.SYS_RSTCTL Fld.SYS_RSTCTL_BRST (m - m / 2 ^ b.index % 2 * 2 ^ b.index)
    let s := if b = .evc then s.answerVoided else s
    .next (mine.foldl (fun s h => match h.2.2.2 with
      | some d => s.regWrite h.2.1 h.2.2.1 d
      | none => (s.regRead h.2.1 h.2.2.1).gotRead h.2.1 h.2.2.1) s)
  else .next s

end Sys2Proof.Machine
end

