-- ==== Sys2Proof/Machine/RegPort.lean ====
section
/-! DEFINITION. Accesses of a context to memory and to device registers (R5, R147, R148, R180, R198), loads and stores. Readings and choices: log 27. -/

namespace Sys2Proof.Machine

/-- An access of a context to a register waits: its block clears or is suspended (R39, R255, R484). -/
def State.regWaits (s : State) (a : Nat) : Bool := s.regHeld a || s.portHeld a

/-- An allowed load of one register by a context: a load of EVC_CLAIM is a claim, which may wait in the claim queue (R245, R246); an
uncorrectable word of a block's table is the cause 0x21 (R233). -/
def State.regLoad (s : State) (c : Ctx) (pa : Nat) : Port (List Byte) :=
  if pa = Reg.EVC_CLAIM then
    match s.claimLoad c with
    | (some n, s) => .ok (leBytes 4 n) s
    | (none, s) => .wait (s.portWait c)
  else if s.regWaits pa then .wait (s.ctxHeld c .read pa 4)
  else
    let s := s.readReg (s.whoOf c) pa 0
    if Sparse.get c.val s.fab.resp = some .uncorrectable then .cause { code := 0x21, addr := BitVec.ofNat 64 (pa / 64 * 64) } s
    else .ok (leBytes 4 (s.lastWord (s.whoOf c)).toNat) s

/-- Some part of an access lies in device register space. -/
def State.inRegisters (s : State) (l : List (Part × Nat × MType)) : Bool := l.any (fun v => s.region v.2.1 = .devReg)

/-- A split access with a part in device register space breaks R5: the firewall refuses its first refusable part, and no part is
performed (R148, R198). -/
def State.refuseSplit (s : State) (c : Ctx) (acc : Access) (k : ReqKind) : List (Part × Nat × MType) → Port Unit
  | [] => .ok () s
  | (p, pa, ty) :: t =>
    let n := if s.region pa = .devReg && p.len == 4 then 8 else p.len
    if s.isCached pa ty k.isWrite then s.refuseSplit c acc k t
    else match s.ctxRequest c k pa n with
      | (true, s) => .cause { code := 4, addr := p.va.zeroExtend 64, wr := acc.isWrite, half := p.half } s
      | (false, s) => s.refuseSplit c acc k t

/-- The parts of an access translated, before those of `later` (R178). -/
def State.accXlate (s : State) (c : Ctx) (acc : Access) (va : VAddr) (n : Nat) (later : Later) : Port (List (Part × Nat × MType)) :=
  s.partsXlate c (s.ctx c).status.ring acc later (partsOf va n)

/-- A translated read by a context of memory or of one register (R5, R147, R198). -/
def State.readParts (s : State) (c : Ctx) (acc : Access) (l : List (Part × Nat × MType)) : Port (List Byte) :=
  if !s.inRegisters l then s.partsRead c acc l
  else match l with
    | [(p, pa, _)] =>
      (match s.ctxRequest c .read pa p.len with
       | (true, s) => .cause { code := 4, addr := p.va.zeroExtend 64 } s
       | (false, s) => s.regLoad c pa)
    | _ => (s.refuseSplit c acc .read l).bind (fun _ s => .ok [] s)

/-- A translated write by a context of memory or of one register. `before` is what the instruction itself does to the context; a register
write lands after it. -/
def State.writeParts (s : State) (c : Ctx) (acc : Access) (d : List Byte) (before : State → State) (l : List (Part × Nat × MType)) :
    Port Unit :=
  if !s.inRegisters l then
    (s.partsReady c acc d l).bind (fun _ s => .ok () (l.foldl (fun s v => s.partWrite c d v) (before s)))
  else match l with
    | [(p, pa, _)] =>
      (match s.ctxRequest c (.write d) pa p.len with
       | (true, s) => .cause { code := 4, addr := p.va.zeroExtend 64, wr := true } s
       | (false, s) =>
         if s.regWaits pa then .wait (s.ctxHeld c (.write d) pa p.len)
         else .ok () ((before s).landWrite (s.whoOf c) pa (BitVec.ofNat 32 (leNat d)) 0))
    | _ => s.refuseSplit c acc (.write d) l

/-- A read by a context (R5, R147, R198). -/
def State.accRead (s : State) (c : Ctx) (acc : Access) (va : VAddr) (n : Nat) : Port (List Byte) :=
  (s.accXlate c acc va n []).bind (fun l s => s.readParts c acc l)

/-- A write by a context (R5, R147, R198). -/
def State.accWrite (s : State) (c : Ctx) (acc : Access) (va : VAddr) (d : List Byte) (before : State → State) : Port Unit :=
  (s.accXlate c acc va d.length []).bind (fun l s => s.writeParts c acc d before l)

/-- The effective address of a load or store (R147). -/
def State.effAddr (s : State) (c : Ctx) (rs1 : Gpr) (imm : BitVec 16) : VAddr := toVa (s.rg c rs1 + simm imm)

/-- A load of `n` bytes (R147, R148). -/
def State.load (s : State) (c : Ctx) (rd rs1 : Gpr) (imm : BitVec 16) (n : Nat) (f : Nat → Dword) : State :=
  s.instr c .plain none (fun s =>
    let va := s.effAddr c rs1 imm
    (s.accRead c .load va n).finish c (fun b s => (s.wg c rd (f (leNat b))).done c (1 + splitCost va n)))

/-- A store of the low `n` bytes of a register (R147, R148). -/
def State.store (s : State) (c : Ctx) (rs2 rs1 : Gpr) (imm : BitVec 16) (n : Nat) : State :=
  s.instr c .plain none (fun s =>
    let va := s.effAddr c rs1 imm
    (s.accWrite c .store va (leBytes n (s.rg c rs2).toNat) (fun s => s.done c (1 + splitCost va n))).finish c (fun _ s => s))

/-- The low `w` bits of a number as a signed doubleword. -/
def sext (w n : Nat) : Dword := (BitVec.ofNat w n).signExtend 64

/-- LB (R147). -/
def execLb (c : Ctx) (rd rs1 : Gpr) (imm : BitVec 16) (s : State) : Out := .next (s.load c rd rs1 imm 1 (sext 8))

/-- LH (R147). -/
def execLh (c : Ctx) (rd rs1 : Gpr) (imm : BitVec 16) (s : State) : Out := .next (s.load c rd rs1 imm 2 (sext 16))

/-- LW (R147). -/
def execLw (c : Ctx) (rd rs1 : Gpr) (imm : BitVec 16) (s : State) : Out := .next (s.load c rd rs1 imm 4 (sext 32))

/-- LD (R147). -/
def execLd (c : Ctx) (rd rs1 : Gpr) (imm : BitVec 16) (s : State) : Out := .next (s.load c rd rs1 imm 8 (BitVec.ofNat 64))

/-- LBU (R147). -/
def execLbu (c : Ctx) (rd rs1 : Gpr) (imm : BitVec 16) (s : State) : Out := .next (s.load c rd rs1 imm 1 (BitVec.ofNat 64))

/-- LHU (R147). -/
def execLhu (c : Ctx) (rd rs1 : Gpr) (imm : BitVec 16) (s : State) : Out := .next (s.load c rd rs1 imm 2 (BitVec.ofNat 64))

/-- LWU (R147). -/
def execLwu (c : Ctx) (rd rs1 : Gpr) (imm : BitVec 16) (s : State) : Out := .next (s.load c rd rs1 imm 4 (BitVec.ofNat 64))

/-- LP24 (R147): six bytes, bits 63:48 of the result 0. -/
def execLp24 (c : Ctx) (rd rs1 : Gpr) (imm : BitVec 16) (s : State) : Out := .next (s.load c rd rs1 imm 6 (BitVec.ofNat 64))

/-- SB (R147). -/
def execSb (c : Ctx) (rs2 rs1 : Gpr) (imm : BitVec 16) (s : State) : Out := .next (s.store c rs2 rs1 imm 1)

/-- SH (R147). -/
def execSh (c : Ctx) (rs2 rs1 : Gpr) (imm : BitVec 16) (s : State) : Out := .next (s.store c rs2 rs1 imm 2)

/-- SW (R147). -/
def execSw (c : Ctx) (rs2 rs1 : Gpr) (imm : BitVec 16) (s : State) : Out := .next (s.store c rs2 rs1 imm 4)

/-- SD (R147). -/
def execSd (c : Ctx) (rs2 rs1 : Gpr) (imm : BitVec 16) (s : State) : Out := .next (s.store c rs2 rs1 imm 8)

/-- SP24 (R147). -/
def execSp24 (c : Ctx) (rs2 rs1 : Gpr) (imm : BitVec 16) (s : State) : Out := .next (s.store c rs2 rs1 imm 6)

end Sys2Proof.Machine
end

