-- ==== Sys2Proof/Machine/Atomic.lean ====
section
/-! DEFINITION. Atomic operations (R160, R161) and fences (R162). Every access of a context is performed as its instruction completes,
so the orderings that ORD and the fences ask for hold at once. Readings and choices: logs 10, 59, 60. -/

namespace Sys2Proof.Machine

/-- A line that its quad holds is held uniquely in a core's data cache: no other quad and no other core of the quad holds it. -/
def State.heldUniquely (s : State) (k : Fin 16) (ln : Nat) : Bool :=
  (s.core k).l1d.contains ln && allQuads.all (fun q => q == quadOf k || !s.l2Has q ln) &&
  (coresOf (quadOf k)).all (fun j => j == k || !(s.core j).l1d.contains ln)

/-- An atomic operation at a translated address (R161): on a line held uniquely in the core's data cache, for which the context waits
without a grant, or as one request at its target; device register space refuses it. It answers the old value. -/
def State.atomicAt (s : State) (c : Ctx) (op : AmOp) (n : Nat) (b : Dword) (v : Part × Nat × MType) : Port Nat :=
  let (p, pa, ty) := v
  if s.isCached pa ty true then
    (s.lineReady c pa n .atomic false p.va).bind (fun _ s =>
      if !s.heldUniquely (coreOf c) (lineOf pa) then .wait (s.await c (.fill pa p.va .atomic false))
      else
        let old := leNat (s.quadBytes (quadOf (coreOf c)) pa n)
        match op.store n old b.toNat with
        | some d => .ok old (s.writeLine (s.whoOf c) (coreOf c) pa d)
        | none => .ok old (s.useData (coreOf c) (lineOf pa)))
  else match s.ctxRequest c (.atomic op b) pa n with
    | (true, s) => .cause { code := 4, addr := p.va.zeroExtend 64, wr := true } s
    | (false, s) =>
      if s.memHeld pa then .wait (s.ctxHeld c (.atomic op b) pa n)
      else
        match ((s.comes ⟨s.whoOf c, s.ctxClass c, .atomic op b, pa, n, true⟩).uncached true pa).memRead c.val false pa n with
        | (none, s) => .cause { code := 0x21, addr := BitVec.ofNat 64 (pa / 64 * 64) } s
        | (some v, s) =>
          match op.store n (leNat v) b.toNat with
          | some d => .ok (leNat v) (s.memWrite c.val pa d).2
          | none => .ok (leNat v) s

/-- An atomic operation (R160): a misaligned one raises M before anything else of its data access (R178). -/
def State.atomic (s : State) (c : Ctx) (sz : Bool) (rd rs1 rs2 : Gpr) (op : AmOp) : State :=
  s.instr c .plain none (fun s =>
    let n := if sz then 8 else 4
    let va := toVa (s.rg c rs1)
    if va.toNat % n ≠ 0 then s.takeSync c { code := 7, addr := va.zeroExtend 64 }
    else
      let b := s.rg c rs2
      ((s.partXlate c (s.ctx c).status.ring .atomic ⟨va, 0, n, false⟩ []).bind (fun v s => s.atomicAt c op n b v)).finish c (fun old s =>
        (s.wg c rd (if sz then BitVec.ofNat 64 old else sext 32 old)).done c 2))

/-- AM_SWAP (R160). -/
def execAmSwap (c : Ctx) (_ord : BitVec 2) (sz : Bool) (rd rs1 rs2 : Gpr) (s : State) : Out := .next (s.atomic c sz rd rs1 rs2 .swap)

/-- AM_ADD (R160). -/
def execAmAdd (c : Ctx) (_ord : BitVec 2) (sz : Bool) (rd rs1 rs2 : Gpr) (s : State) : Out := .next (s.atomic c sz rd rs1 rs2 .add)

/-- AM_SUB (R160). -/
def execAmSub (c : Ctx) (_ord : BitVec 2) (sz : Bool) (rd rs1 rs2 : Gpr) (s : State) : Out := .next (s.atomic c sz rd rs1 rs2 .sub)

/-- AM_AND (R160). -/
def execAmAnd (c : Ctx) (_ord : BitVec 2) (sz : Bool) (rd rs1 rs2 : Gpr) (s : State) : Out := .next (s.atomic c sz rd rs1 rs2 .and)

/-- AM_OR (R160). -/
def execAmOr (c : Ctx) (_ord : BitVec 2) (sz : Bool) (rd rs1 rs2 : Gpr) (s : State) : Out := .next (s.atomic c sz rd rs1 rs2 .or)

/-- AM_XOR (R160). -/
def execAmXor (c : Ctx) (_ord : BitVec 2) (sz : Bool) (rd rs1 rs2 : Gpr) (s : State) : Out := .next (s.atomic c sz rd rs1 rs2 .xor)

/-- AM_MINS (R160). -/
def execAmMins (c : Ctx) (_ord : BitVec 2) (sz : Bool) (rd rs1 rs2 : Gpr) (s : State) : Out := .next (s.atomic c sz rd rs1 rs2 .mins)

/-- AM_MAXS (R160). -/
def execAmMaxs (c : Ctx) (_ord : BitVec 2) (sz : Bool) (rd rs1 rs2 : Gpr) (s : State) : Out := .next (s.atomic c sz rd rs1 rs2 .maxs)

/-- AM_MINU (R160). -/
def execAmMinu (c : Ctx) (_ord : BitVec 2) (sz : Bool) (rd rs1 rs2 : Gpr) (s : State) : Out := .next (s.atomic c sz rd rs1 rs2 .minu)

/-- AM_MAXU (R160). -/
def execAmMaxu (c : Ctx) (_ord : BitVec 2) (sz : Bool) (rd rs1 rs2 : Gpr) (s : State) : Out := .next (s.atomic c sz rd rs1 rs2 .maxu)

/-- AM_INCW (R160). -/
def execAmIncw (c : Ctx) (_ord : BitVec 2) (sz : Bool) (rd rs1 rs2 : Gpr) (s : State) : Out := .next (s.atomic c sz rd rs1 rs2 .incw)

/-- AM_CAS (R160): the value expected is g[rd] at issue. -/
def execAmCas (c : Ctx) (_ord : BitVec 2) (sz : Bool) (rd rs1 rs2 : Gpr) (s : State) : Out :=
  .next (s.atomic c sz rd rs1 rs2 (.cas (s.rg c rd)))

/-- A fence of `cost` slots (R162): every earlier access has been performed, and every earlier write has landed. -/
def State.fence (s : State) (c : Ctx) (cost : Nat) : State := s.instr c .plain none (fun s => s.done c cost)

/-- FENCE (R162). -/
def execFence (c : Ctx) (s : State) : Out := .next (s.fence c 1)

/-- FENCE_S (R162). -/
def execFenceS (c : Ctx) (s : State) : Out := .next (s.fence c 1)

/-- FENCE_L (R162). -/
def execFenceL (c : Ctx) (s : State) : Out := .next (s.fence c 1)

/-- FENCE_A (R162, R220). -/
def execFenceA (c : Ctx) (s : State) : Out := .next (s.fence c 1)

/-- IFENCE (R96, R162): the state holds no fetched instruction, so nothing is left to discard (log 20). -/
def execIfence (c : Ctx) (s : State) : Out := .next (s.fence c 3)

end Sys2Proof.Machine
end

