-- ==== Sys2Proof/Machine/BlockRepeat.lean ====
section
/-! DEFINITION. Block-repeat instructions (R126, R127, R156 to R159). One command is one group of up to 64 bytes, after which events
can be taken; the last group completes the instruction. Readings and choices: logs 26, 27, 78. -/

namespace Sys2Proof.Machine

/-- The address registers in use advance by `k` bytes and g6 falls by `k` (R127). -/
def Context.advance (x : Context) (use4 use5 : Bool) (k : Nat) : Context :=
  let n := BitVec.ofNat 64 k
  let x := if use4 then x.wg 4 (x.rg 4 + n) else x
  let x := if use5 then x.wg 5 (x.rg 5 + n) else x
  x.wg 6 (x.rg 6 - n)

/-- A block-repeat instruction completes with new flags and the slots of this issue (R158). -/
def State.brptDone (s : State) (c : Ctx) (fl : CFlags → CFlags) (cost : Nat) : State :=
  let x := s.ctx c
  (s.setCtx c { x with flags := fl x.flags, brpt := none }).done c cost

/-- What one kind of block-repeat instruction is: the address registers in use (R126), the slots of a chunk (R158), its flags when
g6 is exhausted, and what it does with a chunk of `m` bytes. `after` is the progress of the whole chunk, `hit` ends the instruction at
an element; the answer says whether it ended so. -/
structure Brpt where
  use4 : Bool
  use5 : Bool
  price : Nat
  fin : CFlags → CFlags
  act : (m : Nat) → (after : State → State) → (hit : Nat → (CFlags → CFlags) → State → State) → State → Port Bool

/-- The `k` chunks that a group still has (R157). One that waits leaves the chunks before it performed and paid, and the instruction goes
on from it when it issues again; one that faults leaves the chunks before it performed. -/
def State.brptChunks (c : Ctx) (b : Brpt) : Nat → Nat → State → State
  | 0, cost, s => s.setCtx c { s.ctx c with brpt := some 8, slots := (s.ctx c).slots + cost }
  | k + 1, cost, s =>
    let n := (s.rg c 6).toNat
    let m := min n 8
    let paid := cost + b.price
    let moved (j : Nat) (s : State) : State := s.setCtx c ((s.ctx c).advance b.use4 b.use5 j)
    let after (s : State) : State := if n = m then (moved m s).brptDone c b.fin paid else moved m s
    let hit (j : Nat) (fl : CFlags → CFlags) (s : State) : State := (moved j s).brptDone c fl paid
    match b.act m after hit s with
    | .ok stop s => if stop || n = m then s else State.brptChunks c b k paid s
    | .wait s => s.setCtx c { s.ctx c with brpt := some (k + 1), slots := (s.ctx c).slots + cost }
    | .cause x s => (s.setCtx c { s.ctx c with chunk := none }).takeSync c x

/-- A group of a block-repeat instruction: its leading slot is paid once in an issue (R158), and with g6 = 0 it completes at once
(R127). -/
def State.brptGroup (s : State) (c : Ctx) (b : Brpt) : State :=
  s.instr c .plain none (fun s =>
    let x := s.ctx c
    let lead := if x.brpt.isSome then 0 else 1
    if s.rg c 6 = 0 then s.brptDone c b.fin lead else State.brptChunks c b (x.brpt.getD 8) lead s)

/-- The parts of a chunk's two operands, at g4 and at g5, translated before either is accessed (R178): the second with access `acc`. -/
def State.bothXlate (s : State) (c : Ctx) (acc : Access) (m : Nat) : Port (List (Part × Nat × MType) × List (Part × Nat × MType)) :=
  let a := toVa (s.rg c 4)
  let b := toVa (s.rg c 5)
  (s.accXlate c .load a m ((partsOf b m).map (fun p => (p.va, acc, p.half)))).bind (fun l s =>
    (s.accXlate c acc b m []).bind (fun r s => .ok (l, r) s))

/-- A chunk's first operand read: one that was read before, and whose second operand had to wait, is not read again (R159). -/
def State.chunkRead (s : State) (c : Ctx) (l : List (Part × Nat × MType)) : Port (List Byte) :=
  match (s.ctx c).chunk with
  | some b => .ok b s
  | none => (s.readParts c .load l).bind (fun b s => .ok b (s.setCtx c { s.ctx c with chunk := some b }))

/-- A chunk has been dealt with. -/
def State.chunkDone (s : State) (c : Ctx) : State := s.setCtx c { s.ctx c with chunk := none }

/-- MOVE (R157, R159): each chunk is read wholly before it is written. -/
def execMoveB (c : Ctx) (s : State) : Out :=
  .next (s.brptGroup c
    { use4 := true, use5 := true, price := 2, fin := id,
      act := fun m after _ s =>
        let after (s : State) : State := after (s.chunkDone c)
        (s.bothXlate c .store m).bind (fun v s =>
          (s.chunkRead c v.1).bind (fun b s => (s.writeParts c .store b after v.2).bind (fun _ s => .ok false s))) })

/-- The element of g7 repeated (R156). -/
def fillBytes (e m : Nat) (v : Dword) : List Byte := (List.range m).map (fun i => BitVec.ofNat 8 (v.toNat / 256 ^ (i % e)))

/-- FILL (R157). -/
def execFill (c : Ctx) (es : BitVec 2) (s : State) : Out :=
  .next (s.brptGroup c
    { use4 := false, use5 := true, price := 1, fin := id,
      act := fun m after _ s =>
        (s.accWrite c .store (toVa (s.rg c 5)) (fillBytes (2 ^ es.toNat) m (s.rg c 7)) after).bind (fun _ s => .ok false s) })

/-- The elements of a chunk, whole ones only, each with its offset. -/
def elements (e : Nat) (b : List Byte) : List (Nat × Nat) :=
  (List.range (b.length / e)).map (fun i => (e * i, leNat ((b.drop (e * i)).take e)))

/-- CMP (R157). A last chunk is read whole, bytes that fill no element included, and can fault on them (DESIGN CHOICE, log 78). -/
def execCmp (c : Ctx) (es : BitVec 2) (s : State) : Out :=
  .next (s.brptGroup c
    { use4 := true, use5 := true, price := 2, fin := cmpFlags false true false,
      act := fun m after hit s =>
        (s.bothXlate c .load m).bind (fun v s =>
          (s.chunkRead c v.1).bind (fun a s => (s.readParts c .load v.2).bind (fun b s =>
            let s := s.chunkDone c
            match ((elements (2 ^ es.toNat) a).zip (elements (2 ^ es.toNat) b)).find? (fun p => p.1.2 != p.2.2) with
            | some p => .ok true (hit p.1.1 (subFlags 64 p.1.2 p.2.2 0) s)
            | none => .ok false (after s)))) })

/-- SCAN (R157). A last chunk is read whole, bytes that fill no element included, and can fault on them (DESIGN CHOICE, log 78). -/
def execScan (c : Ctx) (es : BitVec 2) (s : State) : Out :=
  let e := 2 ^ es.toNat
  .next (s.brptGroup c
    { use4 := true, use5 := false, price := 1, fin := cmpFlags false false false,
      act := fun m after hit s =>
        (s.accRead c .load (toVa (s.rg c 4)) m).bind (fun a s =>
          match (elements e a).find? (fun p => p.2 == (s.rg c 7).toNat % 2 ^ (8 * e)) with
          | some p => .ok true (hit p.1 (cmpFlags false true false) s)
          | none => .ok false (after s)) })

end Sys2Proof.Machine
end

