-- ==== Sys2Proof/Machine/Branch.lean ====
section
/-! DEFINITION. Control transfers of a Hymota context (R85 to R91, R124, R125, R153, R154): branches and their annulled slots, the
target buffer, the return stack, and the hardware loop. -/

namespace Sys2Proof.Machine

/-- The cost of an indirect transfer to `t`: 1 on a hit with the actual target, else 3 (R90, R91, R153). -/
def State.indirectCost (s : State) (c : Ctx) (t : VAddr) : Nat :=
  if s.tbOff c then 3
  else if (s.core (coreOf c)).tbuf.any (fun e => e.matches (s.ctx c) c && e.target == t) then 1 else 3

/-- The target buffer after an indirect transfer (R89): the actual target in the matching entry, which becomes the most recently
used of 32. -/
def State.tbWrite (s : State) (c : Ctx) (t : VAddr) : State :=
  if s.tbOff c then s else
  let x := s.ctx c
  let k := s.core (coreOf c)
  s.setCore (coreOf c) { k with
    tbuf := (⟨x.pc, x.asid, x.status.ring, c.val % 8, t⟩ :: k.tbuf.filter (fun e => !e.matches x c)).take 32 }

/-- A conditional branch (R85 to R87, R91): taken to its target, or not, and then its slot annulled where A is 1. Backward branches
are predicted taken, and a misprediction costs two slots. -/
def State.branch (s : State) (c : Ctx) (annul : Bool) (taken : Bool) (t : VAddr) (conditional : Bool) : State :=
  let x := s.ctx c
  let predicted : Bool := t.toNat ≤ x.pc.toNat
  let cost := if conditional && predicted != taken then 3 else 1
  s.setCtx c (x.complete cost true (annul && !taken) (if taken then some t else none))

/-- A compare-and-branch instruction (R153). -/
def State.cmpBranch (s : State) (c : Ctx) (annul : Bool) (rs1 rs2 : Gpr) (disp : BitVec 15) (p : Dword → Dword → Bool) : State :=
  s.instr c .branch none (fun s =>
    let x := s.ctx c
    s.branch c annul (p (x.rg rs1) (x.rg rs2)) (relTarget x.pc disp) true)

/-- BEQ (R153). -/
def execBeq (c : Ctx) (annul : Bool) (rs1 rs2 : Gpr) (disp : BitVec 15) (s : State) : Out :=
  .next (s.cmpBranch c annul rs1 rs2 disp (fun a b => a == b))

/-- BNE (R153). -/
def execBne (c : Ctx) (annul : Bool) (rs1 rs2 : Gpr) (disp : BitVec 15) (s : State) : Out :=
  .next (s.cmpBranch c annul rs1 rs2 disp (fun a b => a != b))

/-- BLT (R153). -/
def execBlt (c : Ctx) (annul : Bool) (rs1 rs2 : Gpr) (disp : BitVec 15) (s : State) : Out :=
  .next (s.cmpBranch c annul rs1 rs2 disp (fun a b => a.slt b))

/-- BGE (R153). -/
def execBge (c : Ctx) (annul : Bool) (rs1 rs2 : Gpr) (disp : BitVec 15) (s : State) : Out :=
  .next (s.cmpBranch c annul rs1 rs2 disp (fun a b => !a.slt b))

/-- BLTU (R153). -/
def execBltu (c : Ctx) (annul : Bool) (rs1 rs2 : Gpr) (disp : BitVec 15) (s : State) : Out :=
  .next (s.cmpBranch c annul rs1 rs2 disp (fun a b => a.ult b))

/-- BGEU (R153). -/
def execBgeu (c : Ctx) (annul : Bool) (rs1 rs2 : Gpr) (disp : BitVec 15) (s : State) : Out :=
  .next (s.cmpBranch c annul rs1 rs2 disp (fun a b => !a.ult b))

/-- BF (R134, R153): condition 0xF is an unconditional branch, and A then has no effect. -/
def execBf (c : Ctx) (cond : BitVec 4) (annul : Bool) (disp : BitVec 21) (s : State) : Out :=
  .next (s.instr c .branch none (fun s =>
    let x := s.ctx c
    s.branch c annul (condHolds cond x.flags) (relTarget x.pc disp) (cond ≠ 15)))

/-- J (R153). -/
def execJump (c : Ctx) (disp : BitVec 26) (s : State) : Out :=
  .next (s.instr c .branch none (fun s => s.branch c false true (relTarget (s.ctx c).pc disp) false))

/-- A push of the return stack, then a transfer to `t` (R124): an overflow or a fault of the push leaves rsp unchanged. -/
def State.pushAndGo (s : State) (c : Ctx) (t : VAddr) (cost : Nat) (indirect : Bool) : State :=
  let x := s.ctx c
  if (x.rsp.toNat : Int) - 8 < x.rsbase.toNat then s.takeSync c { code := 0xA, addr := 0 }
  else
    let ret := x.pc + 8
    (s.portWrite c x.status.ring .push (x.rsp - 8) (leBytes 8 ret.toNat)).finish c (fun _ s =>
      let s := if indirect then s.tbWrite c t else s
      let x := s.ctx c
      s.setCtx c { x.complete cost true false (some t) with rsp := x.rsp - 8, latch := some ret })

/-- CALL (R124, R153). -/
def execCall (c : Ctx) (disp : BitVec 26) (s : State) : Out :=
  .next (s.instr c .branch none (fun s => s.pushAndGo c (relTarget (s.ctx c).pc disp) 1 false))

/-- JR (R88 to R91, R153). -/
def execJr (c : Ctx) (rs1 : Gpr) (s : State) : Out :=
  .next (s.instr c .indirect none (fun s =>
    let t := regTarget (s.rg c rs1)
    let cost := s.indirectCost c t
    let s := s.tbWrite c t
    s.setCtx c ((s.ctx c).complete cost true false (some t))))

/-- CALLR (R124, R153). -/
def execCallr (c : Ctx) (rs1 : Gpr) (s : State) : Out :=
  .next (s.instr c .indirect none (fun s =>
    let t := regTarget (s.rg c rs1)
    s.pushAndGo c t (s.indirectCost c t) true))

/-- RET (R124, R125, R153): the target is the latch; an empty latch waits for its refill, or underflows where the stack is empty.
The latch is empty after the pop until its refill. -/
def execRet (c : Ctx) (s : State) : Out :=
  .next (s.instr c .indirect none (fun s =>
    let x := s.ctx c
    if x.rstop.toNat ≤ x.rsp.toNat then s.takeSync c { code := 0xB, addr := 0 }
    else match x.latch with
      | none => s.setCtx c { x with wait := .latch }
      | some t =>
        let t := regTarget (t.zeroExtend 64)
        let cost := s.indirectCost c t
        let s := s.tbWrite c t
        s.setCtx c { (s.ctx c).complete cost true false (some t) with rsp := x.rsp + 8, latch := none }))

/-- LATCH_REFILL (R125, R153): a refill that cannot be performed leaves the latch empty and raises nothing, unless a RET waits for it:
that RET takes the fault as its own. -/
def execLatchRefill (c : Ctx) (s : State) : Out :=
  let x := s.ctx c
  if x.run ≠ .active ∨ x.entry.isSome ∨ x.latch.isSome ∨ (x.wait ≠ .none ∧ x.wait ≠ .latch) then .next s
  else
    match (s.setCtx c { x with wait := .none }).refill c with
    | .ok _ s => .next s
    | .wait s => .next s
    | .cause k s' => if x.wait = .latch then .next (s'.takeSync c k) else .next s

/-- LOOP (R133, R154). One that lies at le of an active loop takes the loop decision with the old lc, ls and le, and then loads the new
values (DESIGN CHOICE, log 75). -/
def execHwLoop (c : Ctx) (rs1 : Gpr) (len : BitVec 16) (s : State) : Out :=
  .next (s.instr c .plain none (fun s =>
    let x := s.ctx c
    s.setCtx c { x.complete 1 false false none with
      lc := x.rg rs1, ls := x.pc + 4, le := x.pc + (len.zeroExtend 48 <<< 2) }))

end Sys2Proof.Machine
end

