-- ==== Sys2Proof/Machine/P24.lean ====
section
/-! DEFINITION. Packed 24-bit arithmetic (R129, R149). -/

namespace Sys2Proof.Machine

/-- Lane `i` of a register (R128). -/
def p24Lane (i : Nat) (a : Dword) : Nat := a.toNat / 2 ^ (24 * i) % 2 ^ 24

/-- Two lanes joined; bits [63:48] are 0 (R128). -/
def lanes (l0 l1 : Nat) : Dword := BitVec.ofNat 64 (l0 % 2 ^ 24 + l1 % 2 ^ 24 * 2 ^ 24)

/-- One audio lane: the exact result clamped to 24 signed bits, and whether it was (R129). -/
def audioLane (r : Int) : Nat × Bool :=
  let v := clampInt (-8388608) 8388607 r
  ((v % 2 ^ 24).toNat, v != r)

/-- One pixel lane: each component clamped to 0–255 on its own (R129). -/
def pixelLane (f : Int → Int → Int) (x y : Nat) : Nat × Bool :=
  let comp (i : Nat) : Int := f (x / 2 ^ (8 * i) % 256 : Nat) (y / 2 ^ (8 * i) % 256 : Nat)
  let out (i : Nat) : Int := clampInt 0 255 (comp i)
  ((out 0).toNat + (out 1).toNat * 256 + (out 2).toNat * 65536, out 0 != comp 0 || out 1 != comp 1 || out 2 != comp 2)

/-- A lane in its form. -/
def formLane (px : Bool) (fa fp : Int → Int → Int) (x y : Nat) : Nat × Bool :=
  if px then pixelLane fp x y else audioLane (fa (signed 24 x) (signed 24 y))

/-- A packed instruction on both lanes, whose functions may take the context's amount; SAT is set by a clamp (R129, R149). -/
def State.packed (s : State) (c : Ctx) (cost : Nat) (px : Bool) (rd : Gpr) (a b : Context → Dword)
    (fa fp : Context → Int → Int → Int) : State :=
  let res (x : Context) (i : Nat) : Nat × Bool := formLane px (fa x) (fp x) (p24Lane i (a x)) (p24Lane i (b x))
  s.computeF c cost rd (fun x => lanes (res x 0).1 (res x 1).1) (fun x => satFlags ((res x 0).2 || (res x 1).2) x.flags)

/-- A packed instruction with the same shape in both forms. -/
def State.packed2 (s : State) (c : Ctx) (cost : Nat) (px : Bool) (rd rs1 rs2 : Gpr) (fa fp : Int → Int → Int) : State :=
  s.packed c cost px rd (fun x => x.rg rs1) (fun x => x.rg rs2) (fun _ => fa) (fun _ => fp)

/-- The amount of PSRA and PSLS: min(b[4:0], 23). -/
def laneAmount (b : Dword) : Nat := min (b.toNat % 32) 23

/-- PADD (R149). -/
def execPadd (c : Ctx) (px : Bool) (rd rs1 rs2 : Gpr) (s : State) : Out :=
  .next (s.packed2 c 1 px rd rs1 rs2 (fun x y => x + y) (fun x y => x + y))

/-- PSUB (R149). -/
def execPsub (c : Ctx) (px : Bool) (rd rs1 rs2 : Gpr) (s : State) : Out :=
  .next (s.packed2 c 1 px rd rs1 rs2 (fun x y => x - y) (fun x y => x - y))

/-- PMUL (R149): Q23 with rounding, or x × y / 255 to nearest. -/
def execPmul (c : Ctx) (px : Bool) (rd rs1 rs2 : Gpr) (s : State) : Out :=
  .next (s.packed2 c 2 px rd rs1 rs2 (fun x y => (x * y + 2 ^ 22) / 2 ^ 23)
    (fun x y => let p := x * y + 128; (p + p / 256) / 256))

/-- PMIN (R149). -/
def execPmin (c : Ctx) (px : Bool) (rd rs1 rs2 : Gpr) (s : State) : Out :=
  .next (s.packed2 c 1 px rd rs1 rs2 (fun x y => if x < y then x else y) (fun x y => if x < y then x else y))

/-- PMAX (R149). -/
def execPmax (c : Ctx) (px : Bool) (rd rs1 rs2 : Gpr) (s : State) : Out :=
  .next (s.packed2 c 1 px rd rs1 rs2 (fun x y => if x < y then y else x) (fun x y => if x < y then y else x))

/-- PAVG (R149). -/
def execPavg (c : Ctx) (px : Bool) (rd rs1 rs2 : Gpr) (s : State) : Out :=
  .next (s.packed2 c 1 px rd rs1 rs2 (fun x y => (x + y + 1) / 2) (fun x y => (x + y + 1) / 2))

/-- PABS (R149). -/
def execPabs (c : Ctx) (rd rs1 : Gpr) (s : State) : Out :=
  .next (s.packed2 c 1 false rd rs1 rs1 (fun x _ => if x < 0 then -x else x) (fun x _ => x))

/-- PNEG (R149). -/
def execPneg (c : Ctx) (rd rs1 : Gpr) (s : State) : Out :=
  .next (s.packed2 c 1 false rd rs1 rs1 (fun x _ => -x) (fun x _ => x))

/-- PSRA (R149). -/
def execPsra (c : Ctx) (rd rs1 rs2 : Gpr) (s : State) : Out :=
  .next (s.packed c 1 false rd (fun x => x.rg rs1) (fun x => x.rg rs2)
    (fun x v _ => v / 2 ^ laneAmount (x.rg rs2)) (fun _ v _ => v))

/-- PSLS (R149). -/
def execPsls (c : Ctx) (rd rs1 rs2 : Gpr) (s : State) : Out :=
  .next (s.packed c 1 false rd (fun x => x.rg rs1) (fun x => x.rg rs2)
    (fun x v _ => v * 2 ^ laneAmount (x.rg rs2)) (fun _ v _ => v))

/-- PSWAP (R149): the same in both forms. -/
def execPswap (c : Ctx) (_px : Bool) (rd rs1 : Gpr) (s : State) : Out :=
  .next (s.compute c 1 rd (fun x => lanes (p24Lane 1 (x.rg rs1)) (p24Lane 0 (x.rg rs1))))

/-- PDUP (R149): the same in both forms. -/
def execPdup (c : Ctx) (_px : Bool) (rd rs1 : Gpr) (s : State) : Out :=
  .next (s.compute c 1 rd (fun x => lanes (p24Lane 0 (x.rg rs1)) (p24Lane 0 (x.rg rs1))))

/-- X4P (R149). -/
def execX4p (c : Ctx) (rd rs1 : Gpr) (s : State) : Out :=
  .next (s.compute c 1 rd (fun x => lanes (x.rg rs1).toNat ((x.rg rs1).toNat / 2 ^ 32)))

/-- A lane widened to 32 bits: sign-extended in the audio form, zero-extended in the pixel form (R149). -/
def widenLane (px : Bool) (v : Nat) : Nat := if px then v else ((signed 24 v) % 2 ^ 32).toNat

/-- P4X (R149). -/
def execP4x (c : Ctx) (px : Bool) (rd rs1 : Gpr) (s : State) : Out :=
  .next (s.compute c 1 rd (fun x =>
    BitVec.ofNat 64 (widenLane px (p24Lane 0 (x.rg rs1)) + widenLane px (p24Lane 1 (x.rg rs1)) * 2 ^ 32)))

end Sys2Proof.Machine
end

