-- ==== Sys2Proof/Machine/PinPort.lean ====
section
/-! DEFINITION. The private pin port of a core (R164, R165, R467). Readings and choices: log 51. -/

namespace Sys2Proof.Machine

/-- The bits of a core's port that have a pin mapped (R467). -/
def State.portMask (s : State) (k : Fin 16) : Word :=
  if s.flag (Reg.PIN_PPCTL k) Fld.PIN_PPCTL_EN && !(s.lockstep && k == 15) then s.reg (Reg.PIN_PPMSK k) else 0

/-- The first pin of the port that a core's private port reaches (R467). -/
def State.portFirst (s : State) (k : Fin 16) : Nat := 32 * s.fld (Reg.PIN_PPCTL k) Fld.PIN_PPCTL_PORT

/-- A PINX instruction that the PIN block does not permit raises P (R467). -/
def State.pinDenied (s : State) (c : Ctx) : Option Cause :=
  let w := Reg.PIN_PPCTL (coreOf c)
  let t := (s.ctx c).status
  if (t.lvl || t.ring.toNat ≤ s.fld w Fld.PIN_PPCTL_RING) && s.fld w Fld.PIN_PPCTL_CTX / 2 ^ (c.val % 8) % 2 = 1 then none
  else some { code := 5, addr := 0 }

/-- A PINX instruction that reads the port. -/
def State.pinRead (s : State) (c : Ctx) (rd : Gpr) (f : State → Fin 16 → Word) : State :=
  s.instr c .plain (s.pinDenied c) (fun s =>
    (s.wg c rd ((f s (coreOf c) &&& s.portMask (coreOf c)).zeroExtend 64)).done c 1)

/-- A PINX instruction that writes the output register: a bit with no pin mapped keeps its value. -/
def State.pinWrite (s : State) (c : Ctx) (rs1 : Gpr) (f : Word → Word → Word) : State :=
  s.instr c .plain (s.pinDenied c) (fun s =>
    let k := coreOf c
    let m := s.portMask k
    let x := s.core k
    (s.setCore k { x with pinOut := (x.pinOut &&& ~~~m) ||| (f x.pinOut ((s.rg c rs1).truncate 32) &&& m) }).done c 1)

/-- PIN_IN (R164, R467): the ball levels of the mapped pins. -/
def execPinIn (c : Ctx) (rd : Gpr) (s : State) : Out :=
  .next (s.pinRead c rd (fun s k => BitVec.ofNat 32 ((List.range 32).foldl (fun w i =>
    if (s.portMask k).getLsbD i && s.ballLevel (s.portFirst k + i) then w + 2 ^ i else w) 0)))

/-- PIN_OUT (R164). -/
def execPinOut (c : Ctx) (rs1 : Gpr) (s : State) : Out := .next (s.pinWrite c rs1 (fun _ a => a))

/-- PIN_SET (R164). -/
def execPinSet (c : Ctx) (rs1 : Gpr) (s : State) : Out := .next (s.pinWrite c rs1 (fun o a => o ||| a))

/-- PIN_CLR (R164). -/
def execPinClr (c : Ctx) (rs1 : Gpr) (s : State) : Out := .next (s.pinWrite c rs1 (fun o a => o &&& ~~~a))

/-- PIN_TGL (R164). -/
def execPinTgl (c : Ctx) (rs1 : Gpr) (s : State) : Out := .next (s.pinWrite c rs1 (fun o a => o ^^^ a))

/-- PIN_OE (R164). -/
def execPinOe (c : Ctx) (rs1 : Gpr) (s : State) : Out :=
  .next (s.instr c .plain (s.pinDenied c) (fun s =>
    let k := coreOf c
    let m := s.portMask k
    let x := s.core k
    (s.setCore k { x with pinOe := (x.pinOe &&& ~~~m) ||| ((s.rg c rs1).truncate 32 &&& m) }).done c 1))

/-- PIN_RDO (R164). -/
def execPinRdo (c : Ctx) (rd : Gpr) (s : State) : Out := .next (s.pinRead c rd (fun s k => (s.core k).pinOut))

/-- PIN_RDE (R164). -/
def execPinRde (c : Ctx) (rd : Gpr) (s : State) : Out := .next (s.pinRead c rd (fun s k => (s.core k).pinOe))

end Sys2Proof.Machine
end

