-- ==== Sys2Proof/Machine/Shuttle.lean ====
section
/-! DEFINITION. Shuttle transfers (R335 to R347): reads ahead, arrivals, the writing of units in stream order at the shuttle ports, and ends. Readings and choices: log 69. -/

namespace Sys2Proof.Machine

/-- The source pieces (address, length) of the unit at stream offset `o` (R339 to R341). -/
def Xfer.from (x : Xfer) (o : Nat) : List (Nat × Nat) :=
  match x.mode with
  | 1 => let j := o / x.esz
         [(x.src + j % x.chans * x.stride + j / x.chans * x.esz, x.esz)]
  | 4 => (List.range x.planes).map (fun b => (x.src + b * x.stride + o / x.planes, 1))
  | _ => [(x.src + o, x.unit)]

/-- Bit `k` of bytes, least significant first. -/
def bitOf (l : List Byte) (k : Nat) : Bool := (l.getD (k / 8) 0).getLsbD (k % 8)

/-- A byte from its bits, least significant first. -/
def byteOf (f : Nat → Bool) : Byte := BitVec.ofNat 8 ((List.range 8).foldl (fun w i => w + bit (f i) * 2 ^ i) 0)

/-- The destination pieces of that unit, given its source bytes (R339 to R341). -/
def Xfer.into (x : Xfer) (o : Nat) (d : List Byte) : List (Nat × List Byte) :=
  match x.mode with
  | 2 => let j := o / x.esz
         [(x.dst + j % x.chans * x.stride + j / x.chans * x.esz, d)]
  | 3 => (List.range x.planes).map (fun b =>
      (x.dst + b * x.stride + o / x.planes, [byteOf (fun p => bitOf d (p * x.planes + b))]))
  | 4 => [(x.dst + o, (List.range x.planes).map (fun y => byteOf (fun i =>
      let k := 8 * y + i
      bitOf d (8 * (k % x.planes) + k / x.planes))))]
  | _ => [(x.dst + o, d)]

/-- The source lies in register space, and is read register by register (R337). -/
def Xfer.srcRegs (x : Xfer) : Bool := inRegs x.src x.cnt && x.mode == 0

/-- The destination lies in register space. -/
def Xfer.dstRegs (x : Xfer) : Bool := inRegs x.dst x.cnt && x.mode == 0

/-- The keys of the reads that bring a source piece: whole lines, or registers (R336, R337). -/
def Xfer.keysOf (x : Xfer) (p : Nat × Nat) : List Nat :=
  if x.srcRegs then [p.1 / 4 * 4]
  else (List.range ((p.1 % 64 + p.2 + 63) / 64)).map (fun i => p.1 / 64 * 64 + 64 * i)

/-- The keys that the next units need, in stream order, as far as the buffer can reach. -/
def Xfer.wanted (x : Xfer) : List Nat :=
  (List.range 1100).flatMap (fun i =>
    let o := x.pos + i * x.unit
    if o < x.cnt then (x.from o).flatMap (fun p => x.keysOf p) else [])

/-- A source piece from the data held. -/
def heldBytes (held : List (Nat × List Byte)) (regs : Bool) (a n : Nat) : Option (List Byte) :=
  (List.range n).mapM (fun i =>
    let k := if regs then (a + i) / 4 * 4 else (a + i) / 64 * 64
    (held.find? (fun h => h.1 == k)).map (fun h => h.2.getD (a + i - k) 0))

/-- The source bytes of the unit at `o`, where all have arrived. -/
def Xfer.unitBytes (x : Xfer) (held : List (Nat × List Byte)) (o : Nat) : Option (List Byte) :=
  ((x.from o).mapM (fun p => heldBytes held x.srcRegs p.1 p.2)).map List.flatten

/-- A transfer stops with an error (R347). -/
def State.shuStops (s : State) (n : Fin 64) (cause addr : Nat) : State :=
  let s := s.setAddr (Reg.SHU_EADR n) (Reg.SHU_EADRH n) addr
  ((s.shuClear n).setShuState n 0).shuFault n cause

/-- The pieces of a unit's writes that lie within one line each. -/
def linePieces (l : List (Nat × List Byte)) : List (Nat × List Byte) :=
  l.flatMap (fun p => (lineSplit (p.2.length / 64 + 2) p.1 p.2.length).map (fun w => (w.1, (p.2.drop (w.1 - p.1)).take w.2)))

/-- The bytes that one request of a LINEAR transfer writes at POS: up to the end of the destination line, or one register. -/
def Xfer.linearRun (x : Xfer) (held : List (Nat × List Byte)) : List Byte :=
  let a := x.dst + x.pos
  let room := if x.dstRegs then 4 else 64 - a % 64
  let n := min room (x.cnt - x.pos)
  let ready := ((List.range n).takeWhile (fun i => (heldBytes held x.srcRegs (x.src + x.pos + i) 1).isSome)).length
  if x.dstRegs && ready < 4 then [] else (heldBytes held x.srcRegs (x.src + x.pos) ready).getD []

/-- The writes of the unit at POS, or of a run of LINEAR units, whose data have arrived (R336, R339). -/
def Xfer.unitWrites (x : Xfer) (held : List (Nat × List Byte)) : List (Nat × List Byte) :=
  if x.cnt ≤ x.pos then []
  else if x.mode = 0 then (if (x.linearRun held).isEmpty then [] else linePieces (x.into x.pos (x.linearRun held)))
  else match x.unitBytes held x.pos with
    | some d => linePieces (x.into x.pos d)
    | none => []

/-- The stream bytes that the unit at POS, or the run, counts. -/
def Xfer.unitCount (x : Xfer) (held : List (Nat × List Byte)) : Nat := if x.mode = 0 then (x.linearRun held).length else x.unit

/-- The writes that a channel has still to issue at POS, once those of the transfer before have landed (R336, R345). -/
def State.shuPieces (s : State) (n : Fin 64) : List (Nat × List Byte) :=
  let b := s.shu n
  if (s.shuState n ≠ 1 ∧ s.shuState n ≠ 2) ∨ (b.after = true ∧ s.shuWaiting n = true) then []
  else if b.out.isEmpty then (s.xfer n).unitWrites b.held else b.out

/-- The key of a channel's next read, and the channel that has asked for it (R335, R336): at most 16 lines or registers are held or asked
for; a line that the next unit does not need makes room where the next unit lacks one (log 49). None: it asks for nothing. -/
def State.shuNext (s : State) (n : Fin 64) : Option (Nat × Shu) :=
  if s.shuState n ≠ 1 then none
  else
    let x := s.xfer n
    let b := s.shu n
    let has (k : Nat) : Bool := b.asked.contains k || b.held.any (fun h => h.1 == k)
    match x.wanted.find? (fun k => !has k) with
    | none => none
    | some k =>
      if b.asked.length + b.held.length < 16 then some (k, { b with asked := b.asked ++ [k] })
      else
        let need := (x.from x.pos).flatMap (fun p => x.keysOf p)
        if need.contains k && b.asked.isEmpty then
          (b.held.find? (fun h => !need.contains h.1)).map (fun h => (k, { b with asked := [k], held := b.held.erase h }))
        else none

/-- The rank of a channel's class at its port (R335): RT1, BE, BK. -/
def State.shuRank (s : State) (n : Fin 64) : Fin 3 :=
  match s.classOf (.shuttle n) with
  | .rt1 => 0
  | .bk => 2
  | _ => 1

/-- The channels of a port that have a write or a read to issue (R335). -/
def State.shuReady (s : State) (p : Fin 2) : List (Fin 64) :=
  (List.range 32).map (fun i => Fin.ofNat 64 (32 * p.val + i)) |>.filter (fun n => !(s.shuPieces n).isEmpty || (s.shuNext n).isSome)

/-- The channel that a port serves among the ready ones (R335): a BK channel passed over in 7 consecutive fc; else the first class that
has one, its channels in turn. -/
def ShuPort.choose (x : ShuPort) (rank : Fin 64 → Fin 3) (ready : List (Fin 64)) : Option (Fin 64) :=
  match ready.find? (fun n => rank n = 2 && x.passed.any (fun p => p.1 = n.val && 7 ≤ p.2)) with
  | some n => some n
  | none => ([0, 1, 2] : List (Fin 3)).findSome? (fun r =>
      let mine := ready.filter (fun n => rank n = r)
      match mine.find? (fun n => x.turns[r.val] < n.val % 32) with
      | some n => some n
      | none => mine.head?)

/-- The port after it has served a channel in an fc: the BK channels passed over count on (R335). -/
def ShuPort.served (x : ShuPort) (rank : Fin 64 → Fin 3) (ready : List (Fin 64)) (n : Fin 64) (fc : Nat) : ShuPort :=
  let before (m : Nat) : Nat :=
    if x.used.any (fun u => u + 1 = fc) then ((x.passed.find? (fun p => p.1 = m)).map Prod.snd).getD 0 else 0
  { used := some fc, turns := x.turns.set (rank n).val (n.val % 32)
    passed := (ready.filter (fun m => rank m = 2 && m != n)).map (fun m => (m.val, before m.val + 1)) }

/-- A request of a channel, in its class and with its coherence (R335). -/
def State.shuRequest (s : State) (n : Fin 64) (k : ReqKind) (a m : Nat) : Request :=
  ⟨.shuttle n, s.classOf (.shuttle n), k, a, m, s.flag (Reg.SHU_CTRL n) Fld.SHU_CTRL_COH⟩

/-- A channel asks for a line or a register, checked by the firewall as it does so (R22, R336, R337, R347). -/
def State.shuIssueRead (s : State) (n : Fin 64) (k : Nat) (b : Shu) : State :=
  let regs := (s.xfer n).srcRegs
  let r := s.shuRequest n .read k (if regs then 4 else 64)
  match s.firewall r with
  | .refused c g => (s.recordRefusal r c g).shuStops n 1 k
  | .allowed => if regs then (s.setShu n b).askRegister (.shuttle n) k else (s.setShu n b).keepAccepted r

/-- A write of a channel goes to its target: to a register over the ring (R18), to memory at once in its turn, or into the target's queue where that
cannot serve it now (R222, R484, R489). A word that is not written over an error is no error of the channel (R233, R347). -/
def State.shuPut (s : State) (n : Fin 64) (a : Nat) (d : List Byte) : State :=
  let r := s.shuRequest n (.write d) a d.length
  match s.targetOf a with
  | some t => if s.memHeld a then (s.dropAccepted r).toMemory t r else (s.engineWrite (.shuttle n) r.coh a d).2
  | none => (s.engineWrite (.shuttle n) r.coh a d).2

/-- A channel issues the first of the writes of its unit (R336): the firewall checks them all before the first of them, and a refused unit is
not written (R347); POS counts the unit with its last write (R343). -/
def State.shuIssueWrite (s : State) (n : Fin 64) : State :=
  let x := s.xfer n
  let b := s.shu n
  let l := s.shuPieces n
  let bad := if b.out.isEmpty then l.findSome? (fun p => match s.firewall (s.shuRequest n (.write p.2) p.1 p.2.length) with
      | .refused c g => some (p, c, g)
      | .allowed => none) else none
  match bad, l with
  | some (p, c, g), _ => (s.recordRefusal (s.shuRequest n (.write p.2) p.1 p.2.length) c g).shuStops n 2 p.1
  | none, [] => s
  | none, (a, d) :: t =>
    let s := if b.out.isEmpty then t.foldl (fun s p => s.keepAccepted (s.shuRequest n (.write p.2) p.1 p.2.length)) s else s
    let s := s.shuPut n a d
    if t.isEmpty then
      let s := s.setReg (Reg.SHU_POS n) (BitVec.ofNat 32 (x.pos + x.unitCount b.held))
      let w := (s.xfer n).wanted
      s.setShu n { s.shu n with out := [], after := false, held := b.held.filter (fun h => w.contains h.1) }
    else s.setShu n { s.shu n with out := t, after := false }

/-- A channel's turn at its port (R335), which issues one request in each fc: its next write where data are here for one, else its next
read (DESIGN CHOICE, log 69). -/
def State.shuTurn (s : State) (n : Fin 64) : State :=
  let p : Fin 2 := Fin.ofNat 2 (n.val / 32)
  let x := s.shuPorts[p.val]
  let ready := s.shuReady p
  if x.used ≠ some s.fc ∧ x.choose s.shuRank ready = some n then
    let t := { s with shuPorts := s.shuPorts.set p.val (x.served s.shuRank ready n s.fc) }
    if (s.shuPieces n).isEmpty then
      match s.shuNext n with
      | some (k, b) => t.shuIssueRead n k b
      | none => t
    else t.shuIssueWrite n
  else s

/-- A channel in a mode issues its next request. -/
def State.shuAsk (s : State) (n : Fin 64) (mode : Nat) : State := if (s.xfer n).mode = mode then s.shuTurn n else s

/-- SHU_LINEAR (R339). -/
def execShuLinear (n : Fin 64) (s : State) : Out := .next (s.shuAsk n 0)

/-- SHU_INTERLEAVE (R340). -/
def execShuInterleave (n : Fin 64) (s : State) : Out := .next (s.shuAsk n 1)

/-- SHU_DEINTERLEAVE (R340). -/
def execShuDeinterleave (n : Fin 64) (s : State) : Out := .next (s.shuAsk n 2)

/-- SHU_SPLIT (R341). -/
def execShuSplit (n : Fin 64) (s : State) : Out := .next (s.shuAsk n 3)

/-- SHU_MERGE (R341). -/
def execShuMerge (n : Fin 64) (s : State) : Out := .next (s.shuAsk n 4)

/-- What has come of a channel's oldest read: a line of memory, or a register's word (R18, R336, R337). -/
def State.shuRead (s : State) (n : Fin 64) (x : Xfer) (k : Nat) : EngRead × State :=
  s.engineRead (.shuttle n) x.coh k (if x.srcRegs then 4 else 64)

/-- SHU_READ_RESPONSE (R336, R337, R347): the oldest read arrives, and what is ready takes its turn at the port. -/
def execShuReadResponse (n : Fin 64) (upsets : Upsets) (s : State) : Out :=
  match (s.shu n).asked with
  | [] => .next s
  | k :: rest =>
    match (s.strike upsets).shuRead n (s.xfer n) k with
    | (.held, s) => .next s
    | (.refused _ _, s) => .next (s.shuStops n 1 k)
    | (.uncorrectable _, s) => .next (s.shuStops n 3 k)
    | (.bytes b, s) =>
      .next (((s.useWord (.shuttle n) k).setShu n { s.shu n with asked := rest, held := (s.shu n).held ++ [(k, b)] }).shuTurn n)

/-- SHU_PAUSED (R343): every byte read has been written. -/
def execShuPaused (n : Fin 64) (s : State) : Out :=
  if s.shuState n = 2 ∧ (s.shu n).asked = [] ∧ (s.shu n).out = [] ∧ (s.xfer n).unitWrites (s.shu n).held = [] then
    .next ((s.shuClear n).setShuState n 3)
  else .next s

/-- SHU_DONE (R344): with ARRIVE, every write has landed. -/
def execShuDone (n : Fin 64) (s : State) : Out :=
  let x := s.xfer n
  let arrive := s.flag (Reg.SHU_CTRL n) Fld.SHU_CTRL_ARRIVE
  if s.shuState n = 1 ∧ x.cnt ≤ x.pos ∧ (arrive = true → s.shuWaiting n = false) then
    let was := s.flag (Reg.SHU_STAT n) Fld.SHU_STAT_DONE
    let s := s.shuClear n
    let s := s.setShu n { s.shu n with doneFc := some (s.fc, was) }
    let s := (s.setShuState n 0).setFld (Reg.SHU_STAT n) Fld.SHU_STAT_DONE 1
    .next ((s.psqSignal (.shut n)).raise (256 + 2 * n.val))
  else .next s

/-- SHU_ABORT_COMPLETE (R345). -/
def execShuAbortComplete (n : Fin 64) (s : State) : Out :=
  if s.shuState n = 4 then
    let s := ((s.shuClear n).setShuState n 0).setFld (Reg.SHU_STAT n) Fld.SHU_STAT_ABORTED 1
    .next ((s.psqSignal (.shut n)).raise (256 + 2 * n.val))
  else .next s

end Sys2Proof.Machine
end

