-- ==== Sys2Proof/Machine/Requests.lean ====
section
/-! DEFINITION. Requests that arrive at the fabric as such (R11 to R14, R19, R21 to R24, R106, R222, R489, R533). Readings and choices: logs 19, 21,
57, 72. -/

namespace Sys2Proof.Machine

/-- Contexts' requests are coherent (R213); those of display pipes never are (R221). -/
def Request.cohOk (r : Request) : Bool :=
  match r.who with
  | .ctx _ _ => r.coh
  | .pipe _ => !r.coh
  | _ => true

/-- A request is well formed (R11). -/
def Request.ok (r : Request) : Bool :=
  0 < r.len && r.addr % 64 + r.len ≤ 64 && r.addr < 2 ^ 40 && r.cohOk &&
  match r.kind with
  | .read => true
  | .write d => d.length == r.len
  | .fullLine d => d.length == 64 && r.len == 64
  | .atomic _ _ => (r.len == 4 || r.len == 8) && r.addr % r.len == 0

/-- An initiator may issue a request: it is well formed, carries the initiator's class (R14), carries the Lining bit only from a context that
runs in the Lining level (R12), and comes from no context that lockstep takes away (R106). -/
def State.mayIssue (s : State) (r : Request) : Bool :=
  r.ok && r.cls == s.classOf r.who &&
  match r.who with
  | .ctx c l => (!l || (s.ctx c).status.lvl) && !s.lockedOut c.val
  | _ => true

/-- A request writes. -/
def Request.writes (r : Request) : Bool :=
  match r.kind with
  | .read => false
  | _ => true

/-- The fabric signals an access error to the initiator of a refused request (R21). A context that is not running an instruction of its own
takes no exception (log 21). -/
def State.signalError (s : State) (r : Request) : State :=
  match r.who with
  | .ctx c _ =>
    if (s.ctx c).run = .active && (s.ctx c).wait = .none then
      s.takeSync c { code := 4, addr := BitVec.ofNat 64 r.addr, wr := r.writes }
    else s
  | .shuttle n => s.shuStops n (if r.writes then 2 else 1) r.addr
  | .presser => s.prsError (if r.writes then 5 else 4) r.addr
  | .pipe p =>
    if r.writes then s.abandonWriteback p
    else match (s.pipe p).fetch with
      | some w => s.setPipe p { s.pipe p with fetch := some { w with failed := true } }
      | none => s
  | .spool => s.streamError r.addr
  | .seam => s.dmaError r.addr
  | .mailbox => s.mailboxError r.addr
  | .debug => s

/-- A request is refused (R19, R21, R23): recorded, answered without data, and signalled to its initiator. -/
def State.refuse (s : State) (r : Request) (cause region : Nat) : State :=
  ((s.recordRefusal r cause region).respond r.who (.refused cause)).signalError r

/-- The block of a register address is suspended or held with the fabric's memory targets (R255, R484). -/
def State.ringHeld (s : State) (a : Nat) : Bool := s.portHeld a || (blockIndex a == 1 && s.evc.suspended)

/-- An earlier access of an initiator to the block of an address is still on the ring (R18). -/
def State.ringBefore (s : State) (who : Who) (a : Nat) : Bool :=
  s.fab.ring.any (fun q => q.1.id == who.id && blockIndex q.2.1 == blockIndex a)

/-- An allowed register access of an initiator: it waits on the ring for a suspended block, and behind the initiator's earlier accesses to the
block (R18). -/
def State.toRegister (s : State) (who : Who) (a : Nat) (data : Option Word) : State :=
  if s.ringHeld a || s.ringBefore who a then s.onRing who a data
  else match data with
    | some d => s.regWrite who a d
    | none => (s.regRead who a).gotRead who a

/-- The accesses that wait on the register ring reach their blocks, in order (R18). -/
def State.deliverRing (s : State) : State :=
  s.fab.ring.foldl (fun s q => s.toRegister q.1 q.2.1 q.2.2) { s with fab := { s.fab with ring := [] } }

/-- An allowed request goes to its target (R18, R222): register space by the ring, memory through the queue of its class, which a full
queue or standby holds at its port. -/
def State.toTarget (s : State) (r : Request) : State :=
  match s.targetOf r.addr with
  | none => match r.kind with
    | .read => s.toRegister r.who r.addr none
    | .write d => s.toRegister r.who r.addr (some (BitVec.ofNat 32 (leNat d)))
    | _ => s
  | some t => s.toMemory t r

/-- A request at the firewall (R19). -/
def State.request (s : State) (r : Request) : State :=
  match s.firewall r with
  | .refused c g => s.refuse r c g
  | .allowed => s.toTarget r

/-- FABRIC_REQUEST (R19, R23): refused, and recorded, or accepted towards its target. -/
def execFabricRequest (r : Request) (s : State) : Out :=
  .next (if s.mayIssue r && s.sys.boot != .held then s.request r else s)

/-- DBGACC_UPDATE (R533): nothing is issued while an access is outstanding, or in a device reset (R490). The two low bits of ADDR are dropped for the aligned access
(DESIGN CHOICE, log 88). -/
def execDbgaccUpdate (dr : BitVec 73) (s : State) : Out :=
  if s.dbg.tapOutstanding.isSome ∨ s.sys.boot = .held then .next { s with dbg := s.dbg.scanAcc dr }
  else
    let a := dr.toNat / 2 ^ 32 % 2 ^ 40
    let k : ReqKind := if dr.getLsbD 72 then .write (leBytes 4 dr.toNat) else .read
    let s := { s with dbg := { s.dbg.scanAcc dr with tapOutstanding := some dr, tapRefused := false } }
    .next (s.request ⟨.debug, .be, k, a / 4 * 4, 4, true⟩)

/-- An uncorrectable word in the data of a read is signalled to the engine that asked for it, as one in its own accesses is (R233, R301, R327, R347,
R361). -/
def State.signalBad (s : State) (r : Request) : State :=
  if r.writes || Sparse.get r.who.id s.fab.resp != some .uncorrectable then s
  else match r.who with
    | .presser => s.prsError 6 r.addr
    | .shuttle n => s.shuStops n 3 r.addr
    | .pipe p => match (s.pipe p).fetch with
      | some w => s.setPipe p { s.pipe p with fetch := some { w with failed := true } }
      | none => s
    | .spool => s.streamError r.addr
    | .seam => s.dmaError r.addr
    | _ => s

/-- A target serves one request (R13, R222, R229), and what it finds is signalled; then the requests held at ports that have room go on. -/
def State.targetServes (s : State) (t : Nat) (choose : Arb → Option TClass) (grant : Arb → TClass → Arb) : State :=
  let a := s.arb t
  let s := s.serveTarget t choose grant
  let s := match (choose a).bind (fun c => (a.queue c).head?) with
    | some r => s.signalBad r
    | none => s
  s.admitPort

/-- FABRIC_MEMORY_RESPONSE (R13, R222, R524): a bank or a store serves one request. -/
def execFabricMemoryResponse (t : Fin 37) (upsets : Upsets) (s : State) : Out :=
  if s.sys.standby = 0 ∧ s.targetClearing t = false then
    .next ((s.strike upsets).targetServes t Arb.bankChoice Arb.bankGrant)
  else .next s

/-- DDR_READ_RESPONSE (R229): a channel that has trained serves one request in a slot of its frame. -/
def execDdrReadResponse (ch : Fin 4) (slot : Fin 64) (upsets : Upsets) (s : State) : Out :=
  if s.sys.standby = 0 ∧ s.fld Reg.MEM_STAT Fld.MEM_STAT_CHRDY / 2 ^ ch.val % 2 = 1 then
    let s := (s.strike upsets).atSlot ch slot
    .next (s.targetServes (40 + ch.val) (fun a => s.ddrChoice ch a slot) Arb.drop)
  else .next s

/-- CHANNEL_TRAINED (R489): CHRDY, or a failure that is recorded and refuses the requests held for the channel. -/
def execChannelTrained (n : Fin 4) (ok : Bool) (s : State) : Out :=
  if s.ddr[n.val].training = false then .next s
  else
    let mine (s : State) (r : Request) : Bool := s.targetOf r.addr == some (40 + n.val)
    let held := (s.arb (40 + n.val)).all ++ s.fab.port.filter (mine s)
    let other := s.fab.port.filter (fun r => !mine s r)
    let s := s.setDdr n { s.ddr[n.val] with training := false, failed := !ok }
    if ok then .next (s.setFld Reg.MEM_STAT Fld.MEM_STAT_CHRDY (s.fld Reg.MEM_STAT Fld.MEM_STAT_CHRDY ||| 2 ^ n.val))
    else
      let s := (s.machineCheck n 3).setArb (40 + n.val) Arb.reset
      .next (held.foldl (fun s r => s.refuse r 1 0) { s with fab := { s.fab with port := other } })

end Sys2Proof.Machine
end

