-- ==== Sys2Proof/Machine/PsqDispatch.lean ====
section
/-! DEFINITION. The dispatching entries of pattern lanes (R47 to R55). Readings and choices: logs 71, 86. -/

namespace Sys2Proof.Machine

/-- The initiator of the pattern port: the owner context, with the Lining bit clear (R11, R50). -/
def State.psqWho (s : State) : Who := .ctx (Fin.ofNat 128 (s.fld Reg.PSQ_OWNER Fld.PSQ_OWNER_CTX)) false

/-- The port has issued its write of this fc, and the lane goes on where the write has not stopped it. -/
def State.dispatched (s : State) (l : Fin 16) : State :=
  let s := { s with psq := { s.psq with portFc := some s.fc } }
  if s.laneState l = 2 then s.laneNext l 0 else s

/-- A running lane's entry whose OP is `op` is dispatched where it is due and its turn has come (R53); inside the hem it records cause 2
and counts as complete (R47), at its evaluation and not at its due time (DESIGN CHOICE, log 87), and an uncorrectable one records cause 7
(R61). -/
def State.dispatch (s : State) (l : Fin 16) (op : Nat) (act : State → State) : State :=
  s.evaluate l (· == op) (fun s =>
    if s.inHem l then (s.laneError l 2).laneNext l 0
    else if s.portServes l then act s else s)

/-- A dispatch that is refused with a cause counts as complete (R50); it takes the port's turn of its fc (DESIGN CHOICE, log 86). -/
def State.refusedDispatch (s : State) (l : Fin 16) (cause : Nat) : State := (s.laneError l cause).dispatched l

/-- The write of a dispatch (R48, R50): a refused one records cause 6, and an allowed one is accepted (R22) and waits at the port for a block
that holds accesses off (R39, R484). Under lockstep no write is issued in the name of a context that lockstep takes away (R106); the entry
ends as a refused one (DESIGN CHOICE, log 87). -/
def State.portIssue (s : State) (l : Fin 16) (addr : Nat) (data : Word) (mark : State → State) : State :=
  let r : Request := ⟨s.psqWho, .be, .write (leBytes 4 data.toNat), addr, 4, true⟩
  if s.lockedOut s.psqWho.id then s.refusedDispatch l 6
  else match s.verdict r with
  | .refused c g => (s.recordRefusal r c g).refusedDispatch l 6
  | .allowed =>
    if s.ringHeld addr || s.regHeld addr then s.keepAccepted r
    else ((mark (s.dropAccepted r)).landWrite s.psqWho addr data 0).dispatched l

/-- PSQ_WAKE (R48, R51, R52). -/
def execPsqWake (l : Fin 16) (s : State) : Out :=
  .next (s.dispatch l 0x10 (fun s =>
    let c : Ctx := Fin.ofNat 128 (s.entryWord l 0 % 128)
    let close := s.entryClose l
    s.portIssue l Reg.EVC_DOORBELL (Fld.EVC_DOORBELL_CTX.put c 0) (fun s =>
      let s := s.addClosing l (.wake c) false
      { s with psq := { s.psq with waked := s.psq.waked ++ [⟨l.val, c, close⟩] } })))

/-- PSQ_SHUT (R48, R50). -/
def execPsqShut (l : Fin 16) (s : State) : Out :=
  .next (s.dispatch l 0x11 (fun s =>
    let n : Fin 64 := Fin.ofNat 64 (s.entryWord l 0 % 64)
    if s.shuState n ≠ 0 then s.refusedDispatch l 5
    else s.portIssue l (Reg.SHU_CMD n) 1 (fun s => s.addClosing l (.shut n) false)))

/-- PSQ_PRESS (R48, R50, R317). -/
def execPsqPress (l : Fin 16) (s : State) : Out :=
  .next (s.dispatch l 0x12 (fun s =>
    let a := s.entryWord l 2 + s.entryWord l 3 % 256 * 2 ^ 32
    if s.fld Reg.PRS_STAT Fld.PRS_STAT_STATE ≠ 0 then s.refusedDispatch l 5
    else s.portIssue l Reg.PRS_START (BitVec.ofNat 32 (a / 256)) (fun s => s.addClosing l .press false)))

/-- PSQ_GATE (R48, R386): it completes when the write has landed. -/
def execPsqGate (l : Fin 16) (s : State) : Out :=
  .next (s.dispatch l 0x13 (fun s =>
    s.portIssue l (Reg.SEAM_GSET (s.entryWord l 0 % 8)) (BitVec.ofNat 32 (s.entryWord l 2 % 65536)) (fun s => s.addClosing l .write true)))

/-- PSQ_MIX (R48, R370): a load that the spool refuses ends at once. -/
def execPsqMix (l : Fin 16) (s : State) : Out :=
  .next (s.dispatch l 0x14 (fun s =>
    let a := s.entryWord l 2 + s.entryWord l 3 % 256 * 2 ^ 32
    s.portIssue l Reg.SPL_PLOAD (BitVec.ofNat 32 (a / 256))
      (fun s => s.addClosing l .mix (s.flag Reg.SPL_STAT Fld.SPL_STAT_LPEND))))

/-- PSQ_WREG (R48): it completes when the write has landed. -/
def execPsqWreg (l : Fin 16) (s : State) : Out :=
  .next (s.dispatch l 0x15 (fun s =>
    s.portIssue l (0x10000000 + 4 * (s.entryWord l 0 % 2 ^ 23)) (BitVec.ofNat 32 (s.entryWord l 2)) (fun s => s.addClosing l .write true)))

/-- PSQ_RAISE (R48, R53): it needs no port, and completes at dispatch. -/
def execPsqRaise (l : Fin 16) (s : State) : Out :=
  .next (s.evaluate l (· == 0x16) (fun s =>
    if s.inHem l then (s.laneError l 2).laneNext l 0
    else if s.entryDue l && !s.entryHeld l then (s.laneEvent l 7).laneNext l 0
    else s))

end Sys2Proof.Machine
end

