-- ==== Sys2Proof/Machine/Dispatch.lean ====
section
/-! DEFINITION. The meaning of each command, one arm per constructor of Instr. -/

namespace Sys2Proof.Machine

/-- What a command does to everything but the queue. -/
def exec (i : Instr) (s : State) : Host.Outcome State Fault Refusal :=
  match i with
  | .fabricRequest r => Sys2Proof.Machine.execFabricRequest r s
  | .fabricMemoryResponse t upsets => Sys2Proof.Machine.execFabricMemoryResponse t upsets s
  | .ddrReadResponse ch slot upsets => Sys2Proof.Machine.execDdrReadResponse ch slot upsets s
  | .registerWrite who addr data hwSet => Sys2Proof.Machine.execRegisterWrite who addr data hwSet s
  | .blockClearingEnd b => Sys2Proof.Machine.execBlockClearingEnd b s
  | .dtadjWrite who data => Sys2Proof.Machine.execDtadjWrite who data s
  | .dtinclWrite who data => Sys2Proof.Machine.execDtinclWrite who data s
  | .dtstepRequest who data => Sys2Proof.Machine.execDtstepRequest who data s
  | .dtstepAct => Sys2Proof.Machine.execDtstepAct s
  | .dtfRead who => Sys2Proof.Machine.execDtfRead who s
  | .periodStart l upsets => Sys2Proof.Machine.execPeriodStart l upsets s
  | .psqNop l => Sys2Proof.Machine.execPsqNop l s
  | .psqEnd l => Sys2Proof.Machine.execPsqEnd l s
  | .psqHalt l => Sys2Proof.Machine.execPsqHalt l s
  | .psqSel l => Sys2Proof.Machine.execPsqSel l s
  | .psqRep l => Sys2Proof.Machine.execPsqRep l s
  | .psqUnimplementedOp l => Sys2Proof.Machine.execPsqUnimplementedOp l s
  | .psqWake l => Sys2Proof.Machine.execPsqWake l s
  | .psqShut l => Sys2Proof.Machine.execPsqShut l s
  | .psqPress l => Sys2Proof.Machine.execPsqPress l s
  | .psqGate l => Sys2Proof.Machine.execPsqGate l s
  | .psqMix l => Sys2Proof.Machine.execPsqMix l s
  | .psqWreg l => Sys2Proof.Machine.execPsqWreg l s
  | .psqRaise l => Sys2Proof.Machine.execPsqRaise l s
  | .completionRecognised l k => Sys2Proof.Machine.execCompletionRecognised l k s
  | .jdoneWrite who data => Sys2Proof.Machine.execJdoneWrite who data s
  | .swapFlip who data => Sys2Proof.Machine.execSwapFlip who data s
  | .laneStart who l => Sys2Proof.Machine.execLaneStart who l s
  | .laneStop who l => Sys2Proof.Machine.execLaneStop who l s
  | .laneFinish who l => Sys2Proof.Machine.execLaneFinish who l s
  | .laneStopped l => Sys2Proof.Machine.execLaneStopped l s
  | .wheelWrite who k data => Sys2Proof.Machine.execWheelWrite who k data s
  | .wheelApplied k => Sys2Proof.Machine.execWheelApplied k s
  | .cctlWrite who c data => Sys2Proof.Machine.execCctlWrite who c data s
  | .targetBufferFlush who k => Sys2Proof.Machine.execTargetBufferFlush who k s
  | .contextStart who c => Sys2Proof.Machine.execContextStart who c s
  | .contextKill who c => Sys2Proof.Machine.execContextKill who c s
  | .killComplete c => Sys2Proof.Machine.execKillComplete c s
  | .lockstepMismatch kind => Sys2Proof.Machine.execLockstepMismatch kind s
  | .haltRequest who w data => Sys2Proof.Machine.execHaltRequest who w data s
  | .contextHalt c => Sys2Proof.Machine.execContextHalt c s
  | .contextResume who w data => Sys2Proof.Machine.execContextResume who w data s
  | .dbgRdatlRead who => Sys2Proof.Machine.execDbgRdatlRead who s
  | .dbgRdatlWrite who data => Sys2Proof.Machine.execDbgRdatlWrite who data s
  | .tapBypass code => Sys2Proof.Machine.execTapBypass code s
  | .tapIdcode => Sys2Proof.Machine.execTapIdcode s
  | .dbgaccUpdate dr => Sys2Proof.Machine.execDbgaccUpdate dr s
  | .dbgaccCapture => Sys2Proof.Machine.execDbgaccCapture s
  | .add c sf rd rs1 rs2 => Sys2Proof.Machine.execAdd c sf rd rs1 rs2 s
  | .sub c sf rd rs1 rs2 => Sys2Proof.Machine.execSub c sf rd rs1 rs2 s
  | .addc c sf rd rs1 rs2 => Sys2Proof.Machine.execAddc c sf rd rs1 rs2 s
  | .subc c sf rd rs1 rs2 => Sys2Proof.Machine.execSubc c sf rd rs1 rs2 s
  | .andR c sf rd rs1 rs2 => Sys2Proof.Machine.execAndR c sf rd rs1 rs2 s
  | .orR c sf rd rs1 rs2 => Sys2Proof.Machine.execOrR c sf rd rs1 rs2 s
  | .xorR c sf rd rs1 rs2 => Sys2Proof.Machine.execXorR c sf rd rs1 rs2 s
  | .andn c sf rd rs1 rs2 => Sys2Proof.Machine.execAndn c sf rd rs1 rs2 s
  | .orn c sf rd rs1 rs2 => Sys2Proof.Machine.execOrn c sf rd rs1 rs2 s
  | .slt c rd rs1 rs2 => Sys2Proof.Machine.execSlt c rd rs1 rs2 s
  | .sltu c rd rs1 rs2 => Sys2Proof.Machine.execSltu c rd rs1 rs2 s
  | .minS c rd rs1 rs2 => Sys2Proof.Machine.execMinS c rd rs1 rs2 s
  | .maxS c rd rs1 rs2 => Sys2Proof.Machine.execMaxS c rd rs1 rs2 s
  | .minu c rd rs1 rs2 => Sys2Proof.Machine.execMinu c rd rs1 rs2 s
  | .maxu c rd rs1 rs2 => Sys2Proof.Machine.execMaxu c rd rs1 rs2 s
  | .addw c sf rd rs1 rs2 => Sys2Proof.Machine.execAddw c sf rd rs1 rs2 s
  | .subw c sf rd rs1 rs2 => Sys2Proof.Machine.execSubw c sf rd rs1 rs2 s
  | .sextb c rd rs1 => Sys2Proof.Machine.execSextb c rd rs1 s
  | .sexth c rd rs1 => Sys2Proof.Machine.execSexth c rd rs1 s
  | .sextw c rd rs1 => Sys2Proof.Machine.execSextw c rd rs1 s
  | .zextb c rd rs1 => Sys2Proof.Machine.execZextb c rd rs1 s
  | .zexth c rd rs1 => Sys2Proof.Machine.execZexth c rd rs1 s
  | .zextw c rd rs1 => Sys2Proof.Machine.execZextw c rd rs1 s
  | .clz c rd rs1 => Sys2Proof.Machine.execClz c rd rs1 s
  | .ctz c rd rs1 => Sys2Proof.Machine.execCtz c rd rs1 s
  | .popc c rd rs1 => Sys2Proof.Machine.execPopc c rd rs1 s
  | .bswap c rd rs1 => Sys2Proof.Machine.execBswap c rd rs1 s
  | .cpick c cond rd rs1 rs2 => Sys2Proof.Machine.execCpick c cond rd rs1 rs2 s
  | .addi c rd rs1 imm => Sys2Proof.Machine.execAddi c rd rs1 imm s
  | .andi c rd rs1 imm => Sys2Proof.Machine.execAndi c rd rs1 imm s
  | .ori c rd rs1 imm => Sys2Proof.Machine.execOri c rd rs1 imm s
  | .xori c rd rs1 imm => Sys2Proof.Machine.execXori c rd rs1 imm s
  | .slti c rd rs1 imm => Sys2Proof.Machine.execSlti c rd rs1 imm s
  | .sltiu c rd rs1 imm => Sys2Proof.Machine.execSltiu c rd rs1 imm s
  | .lui c rd imm => Sys2Proof.Machine.execLui c rd imm s
  | .auipc c rd imm => Sys2Proof.Machine.execAuipc c rd imm s
  | .mulLo c rd rs1 rs2 => Sys2Proof.Machine.execMulLo c rd rs1 rs2 s
  | .mulHs c rd rs1 rs2 => Sys2Proof.Machine.execMulHs c rd rs1 rs2 s
  | .mulHu c rd rs1 rs2 => Sys2Proof.Machine.execMulHu c rd rs1 rs2 s
  | .mulHx c rd rs1 rs2 => Sys2Proof.Machine.execMulHx c rd rs1 rs2 s
  | .mulW c rd rs1 rs2 => Sys2Proof.Machine.execMulW c rd rs1 rs2 s
  | .quoS c rd rs1 rs2 => Sys2Proof.Machine.execQuoS c rd rs1 rs2 s
  | .quoU c rd rs1 rs2 => Sys2Proof.Machine.execQuoU c rd rs1 rs2 s
  | .rmdS c rd rs1 rs2 => Sys2Proof.Machine.execRmdS c rd rs1 rs2 s
  | .rmdU c rd rs1 rs2 => Sys2Proof.Machine.execRmdU c rd rs1 rs2 s
  | .quoSw c rd rs1 rs2 => Sys2Proof.Machine.execQuoSw c rd rs1 rs2 s
  | .quoUw c rd rs1 rs2 => Sys2Proof.Machine.execQuoUw c rd rs1 rs2 s
  | .rmdSw c rd rs1 rs2 => Sys2Proof.Machine.execRmdSw c rd rs1 rs2 s
  | .rmdUw c rd rs1 rs2 => Sys2Proof.Machine.execRmdUw c rd rs1 rs2 s
  | .sll c rd rs1 amt => Sys2Proof.Machine.execSll c rd rs1 amt s
  | .srl c rd rs1 amt => Sys2Proof.Machine.execSrl c rd rs1 amt s
  | .sra c rd rs1 amt => Sys2Proof.Machine.execSra c rd rs1 amt s
  | .ror c rd rs1 amt => Sys2Proof.Machine.execRor c rd rs1 amt s
  | .sllw c rd rs1 amt => Sys2Proof.Machine.execSllw c rd rs1 amt s
  | .srlw c rd rs1 amt => Sys2Proof.Machine.execSrlw c rd rs1 amt s
  | .sraw c rd rs1 amt => Sys2Proof.Machine.execSraw c rd rs1 amt s
  | .lb c rd rs1 imm => Sys2Proof.Machine.execLb c rd rs1 imm s
  | .lh c rd rs1 imm => Sys2Proof.Machine.execLh c rd rs1 imm s
  | .lw c rd rs1 imm => Sys2Proof.Machine.execLw c rd rs1 imm s
  | .ld c rd rs1 imm => Sys2Proof.Machine.execLd c rd rs1 imm s
  | .lbu c rd rs1 imm => Sys2Proof.Machine.execLbu c rd rs1 imm s
  | .lhu c rd rs1 imm => Sys2Proof.Machine.execLhu c rd rs1 imm s
  | .lwu c rd rs1 imm => Sys2Proof.Machine.execLwu c rd rs1 imm s
  | .lp24 c rd rs1 imm => Sys2Proof.Machine.execLp24 c rd rs1 imm s
  | .sb c rs2 rs1 imm => Sys2Proof.Machine.execSb c rs2 rs1 imm s
  | .sh c rs2 rs1 imm => Sys2Proof.Machine.execSh c rs2 rs1 imm s
  | .sw c rs2 rs1 imm => Sys2Proof.Machine.execSw c rs2 rs1 imm s
  | .sd c rs2 rs1 imm => Sys2Proof.Machine.execSd c rs2 rs1 imm s
  | .sp24 c rs2 rs1 imm => Sys2Proof.Machine.execSp24 c rs2 rs1 imm s
  | .padd c px rd rs1 rs2 => Sys2Proof.Machine.execPadd c px rd rs1 rs2 s
  | .psub c px rd rs1 rs2 => Sys2Proof.Machine.execPsub c px rd rs1 rs2 s
  | .pmul c px rd rs1 rs2 => Sys2Proof.Machine.execPmul c px rd rs1 rs2 s
  | .pmin c px rd rs1 rs2 => Sys2Proof.Machine.execPmin c px rd rs1 rs2 s
  | .pmax c px rd rs1 rs2 => Sys2Proof.Machine.execPmax c px rd rs1 rs2 s
  | .pavg c px rd rs1 rs2 => Sys2Proof.Machine.execPavg c px rd rs1 rs2 s
  | .pabs c rd rs1 => Sys2Proof.Machine.execPabs c rd rs1 s
  | .pneg c rd rs1 => Sys2Proof.Machine.execPneg c rd rs1 s
  | .psra c rd rs1 rs2 => Sys2Proof.Machine.execPsra c rd rs1 rs2 s
  | .psls c rd rs1 rs2 => Sys2Proof.Machine.execPsls c rd rs1 rs2 s
  | .pswap c px rd rs1 => Sys2Proof.Machine.execPswap c px rd rs1 s
  | .pdup c px rd rs1 => Sys2Proof.Machine.execPdup c px rd rs1 s
  | .x4p c rd rs1 => Sys2Proof.Machine.execX4p c rd rs1 s
  | .p4x c px rd rs1 => Sys2Proof.Machine.execP4x c px rd rs1 s
  | .fadd c dbl rd rs1 rs2 => Sys2Proof.Machine.execFadd c dbl rd rs1 rs2 s
  | .fsub c dbl rd rs1 rs2 => Sys2Proof.Machine.execFsub c dbl rd rs1 rs2 s
  | .fmul c dbl rd rs1 rs2 => Sys2Proof.Machine.execFmul c dbl rd rs1 rs2 s
  | .fdiv c dbl rd rs1 rs2 => Sys2Proof.Machine.execFdiv c dbl rd rs1 rs2 s
  | .fsqrt c dbl rd rs1 => Sys2Proof.Machine.execFsqrt c dbl rd rs1 s
  | .fmac c dbl rd rs1 rs2 => Sys2Proof.Machine.execFmac c dbl rd rs1 rs2 s
  | .fmin c dbl rd rs1 rs2 => Sys2Proof.Machine.execFmin c dbl rd rs1 rs2 s
  | .fmax c dbl rd rs1 rs2 => Sys2Proof.Machine.execFmax c dbl rd rs1 rs2 s
  | .fneg c dbl rd rs1 => Sys2Proof.Machine.execFneg c dbl rd rs1 s
  | .fabs c dbl rd rs1 => Sys2Proof.Machine.execFabs c dbl rd rs1 s
  | .feq c dbl rd rs1 rs2 => Sys2Proof.Machine.execFeq c dbl rd rs1 rs2 s
  | .flt c dbl rd rs1 rs2 => Sys2Proof.Machine.execFlt c dbl rd rs1 rs2 s
  | .fle c dbl rd rs1 rs2 => Sys2Proof.Machine.execFle c dbl rd rs1 rs2 s
  | .fcmp c dbl rs1 rs2 => Sys2Proof.Machine.execFcmp c dbl rs1 rs2 s
  | .fclass c dbl rd rs1 => Sys2Proof.Machine.execFclass c dbl rd rs1 s
  | .cvt c src dst rd rs1 => Sys2Proof.Machine.execCvt c src dst rd rs1 s
  | .beq c annul rs1 rs2 disp => Sys2Proof.Machine.execBeq c annul rs1 rs2 disp s
  | .bne c annul rs1 rs2 disp => Sys2Proof.Machine.execBne c annul rs1 rs2 disp s
  | .blt c annul rs1 rs2 disp => Sys2Proof.Machine.execBlt c annul rs1 rs2 disp s
  | .bge c annul rs1 rs2 disp => Sys2Proof.Machine.execBge c annul rs1 rs2 disp s
  | .bltu c annul rs1 rs2 disp => Sys2Proof.Machine.execBltu c annul rs1 rs2 disp s
  | .bgeu c annul rs1 rs2 disp => Sys2Proof.Machine.execBgeu c annul rs1 rs2 disp s
  | .bf c cond annul disp => Sys2Proof.Machine.execBf c cond annul disp s
  | .jump c disp => Sys2Proof.Machine.execJump c disp s
  | .call c disp => Sys2Proof.Machine.execCall c disp s
  | .jr c rs1 => Sys2Proof.Machine.execJr c rs1 s
  | .callr c rs1 => Sys2Proof.Machine.execCallr c rs1 s
  | .ret c => Sys2Proof.Machine.execRet c s
  | .hwLoop c rs1 len => Sys2Proof.Machine.execHwLoop c rs1 len s
  | .moveB c => Sys2Proof.Machine.execMoveB c s
  | .fill c es => Sys2Proof.Machine.execFill c es s
  | .cmp c es => Sys2Proof.Machine.execCmp c es s
  | .scan c es => Sys2Proof.Machine.execScan c es s
  | .amSwap c ord sz rd rs1 rs2 => Sys2Proof.Machine.execAmSwap c ord sz rd rs1 rs2 s
  | .amAdd c ord sz rd rs1 rs2 => Sys2Proof.Machine.execAmAdd c ord sz rd rs1 rs2 s
  | .amSub c ord sz rd rs1 rs2 => Sys2Proof.Machine.execAmSub c ord sz rd rs1 rs2 s
  | .amAnd c ord sz rd rs1 rs2 => Sys2Proof.Machine.execAmAnd c ord sz rd rs1 rs2 s
  | .amOr c ord sz rd rs1 rs2 => Sys2Proof.Machine.execAmOr c ord sz rd rs1 rs2 s
  | .amXor c ord sz rd rs1 rs2 => Sys2Proof.Machine.execAmXor c ord sz rd rs1 rs2 s
  | .amMins c ord sz rd rs1 rs2 => Sys2Proof.Machine.execAmMins c ord sz rd rs1 rs2 s
  | .amMaxs c ord sz rd rs1 rs2 => Sys2Proof.Machine.execAmMaxs c ord sz rd rs1 rs2 s
  | .amMinu c ord sz rd rs1 rs2 => Sys2Proof.Machine.execAmMinu c ord sz rd rs1 rs2 s
  | .amMaxu c ord sz rd rs1 rs2 => Sys2Proof.Machine.execAmMaxu c ord sz rd rs1 rs2 s
  | .amIncw c ord sz rd rs1 rs2 => Sys2Proof.Machine.execAmIncw c ord sz rd rs1 rs2 s
  | .amCas c ord sz rd rs1 rs2 => Sys2Proof.Machine.execAmCas c ord sz rd rs1 rs2 s
  | .fence c => Sys2Proof.Machine.execFence c s
  | .fenceS c => Sys2Proof.Machine.execFenceS c s
  | .fenceL c => Sys2Proof.Machine.execFenceL c s
  | .fenceA c => Sys2Proof.Machine.execFenceA c s
  | .ifence c => Sys2Proof.Machine.execIfence c s
  | .rdc c rd num => Sys2Proof.Machine.execRdc c rd num s
  | .wrc c rs2 num => Sys2Proof.Machine.execWrc c rs2 num s
  | .modeShadowEnd c => Sys2Proof.Machine.execModeShadowEnd c s
  | .emulationTrap c word => Sys2Proof.Machine.execEmulationTrap c word s
  | .pinIn c rd => Sys2Proof.Machine.execPinIn c rd s
  | .pinOut c rs1 => Sys2Proof.Machine.execPinOut c rs1 s
  | .pinSet c rs1 => Sys2Proof.Machine.execPinSet c rs1 s
  | .pinClr c rs1 => Sys2Proof.Machine.execPinClr c rs1 s
  | .pinTgl c rs1 => Sys2Proof.Machine.execPinTgl c rs1 s
  | .pinOe c rs1 => Sys2Proof.Machine.execPinOe c rs1 s
  | .pinRdo c rd => Sys2Proof.Machine.execPinRdo c rd s
  | .pinRde c rd => Sys2Proof.Machine.execPinRde c rd s
  | .gate c rs1 => Sys2Proof.Machine.execGate c rs1 s
  | .eret c => Sys2Proof.Machine.execEret c s
  | .stop c => Sys2Proof.Machine.execStop c s
  | .sleep c => Sys2Proof.Machine.execSleep c s
  | .tack c rs1 => Sys2Proof.Machine.execTack c rs1 s
  | .untack c => Sys2Proof.Machine.execUntack c s
  | .brk c => Sys2Proof.Machine.execBrk c s
  | .tlbiVa c rs1 rs2 => Sys2Proof.Machine.execTlbiVa c rs1 rs2 s
  | .tlbiAs c rs2 => Sys2Proof.Machine.execTlbiAs c rs2 s
  | .tlbiAll c => Sys2Proof.Machine.execTlbiAll c s
  | .dcCln c rs1 => Sys2Proof.Machine.execDcCln c rs1 s
  | .dcInv c rs1 => Sys2Proof.Machine.execDcInv c rs1 s
  | .dcCi c rs1 => Sys2Proof.Machine.execDcCi c rs1 s
  | .dcZero c rs1 => Sys2Proof.Machine.execDcZero c rs1 s
  | .lineFillComplete c upsets => Sys2Proof.Machine.execLineFillComplete c upsets s
  | .tableWalk c upsets => Sys2Proof.Machine.execTableWalk c upsets s
  | .latchRefill c => Sys2Proof.Machine.execLatchRefill c s
  | .exceptionEntry c => Sys2Proof.Machine.execExceptionEntry c s
  | .eventEntry c => Sys2Proof.Machine.execEventEntry c s
  | .entryFrameAccepted c => Sys2Proof.Machine.execEntryFrameAccepted c s
  | .liningEntry c => Sys2Proof.Machine.execLiningEntry c s
  | .liningCausePending c cause => Sys2Proof.Machine.execLiningCausePending c cause s
  | .tackExpiry c => Sys2Proof.Machine.execTackExpiry c s
  | .rsvWrite who n data => Sys2Proof.Machine.execRsvWrite who n data s
  | .rsvApply n => Sys2Proof.Machine.execRsvApply n s
  | .ddrScrubRead n upsets => Sys2Proof.Machine.execDdrScrubRead n upsets s
  | .fmScrubRead upsets => Sys2Proof.Machine.execFmScrubRead upsets s
  | .ddrMachineCheck n kind => Sys2Proof.Machine.execDdrMachineCheck n kind s
  | .dramszWrite who data => Sys2Proof.Machine.execDramszWrite who data s
  | .channelTrained n ok => Sys2Proof.Machine.execChannelTrained n ok s
  | .eventOccurrence n => Sys2Proof.Machine.execEventOccurrence n s
  | .groupDeadline g => Sys2Proof.Machine.execGroupDeadline g s
  | .evcDoorbell who data => Sys2Proof.Machine.execEvcDoorbell who data s
  | .eventClaim sixth => Sys2Proof.Machine.execEventClaim sixth s
  | .evcClaimRead who => Sys2Proof.Machine.execEvcClaimRead who s
  | .evcComplete who data => Sys2Proof.Machine.execEvcComplete who data s
  | .sourceRelease c => Sys2Proof.Machine.execSourceRelease c s
  | .scfgWrite who n data => Sys2Proof.Machine.execScfgWrite who n data s
  | .tgt3Write who n data => Sys2Proof.Machine.execTgt3Write who n data s
  | .groupConfigWrite who g time data => Sys2Proof.Machine.execGroupConfigWrite who g time data s
  | .wakeEvent n => Sys2Proof.Machine.execWakeEvent n s
  | .frameLatch p upsets => Sys2Proof.Machine.execFrameLatch p upsets s
  | .commitGo who p data => Sys2Proof.Machine.execCommitGo who p data s
  | .pipeEnable who p data => Sys2Proof.Machine.execPipeEnable who p data s
  | .frameEnd p => Sys2Proof.Machine.execFrameEnd p s
  | .lineMatch p => Sys2Proof.Machine.execLineMatch p s
  | .lineFetchStart p => Sys2Proof.Machine.execLineFetchStart p s
  | .planeFetchResponse p upsets => Sys2Proof.Machine.execPlaneFetchResponse p upsets s
  | .budgetOverrun p => Sys2Proof.Machine.execBudgetOverrun p s
  | .composeStart p => Sys2Proof.Machine.execComposeStart p s
  | .outselWrite who p data => Sys2Proof.Machine.execOutselWrite who p data s
  | .linkTrain who p data => Sys2Proof.Machine.execLinkTrain who p data s
  | .linkTrainEnd p answers => Sys2Proof.Machine.execLinkTrainEnd p answers s
  | .auxTransaction who p data => Sys2Proof.Machine.execAuxTransaction who p data s
  | .auxDone p reply count bytes => Sys2Proof.Machine.execAuxDone p reply count bytes s
  | .hpdPlug p => Sys2Proof.Machine.execHpdPlug p s
  | .hpdUnplug p => Sys2Proof.Machine.execHpdUnplug p s
  | .irqHpd p => Sys2Proof.Machine.execIrqHpd p s
  | .writebackDone p overflow => Sys2Proof.Machine.execWritebackDone p overflow s
  | .rrKick who p data => Sys2Proof.Machine.execRrKick who p data s
  | .llEnd p => Sys2Proof.Machine.execLlEnd p s
  | .llWait p => Sys2Proof.Machine.execLlWait p s
  | .llWreg p => Sys2Proof.Machine.execLlWreg p s
  | .llWregt p => Sys2Proof.Machine.execLlWregt p s
  | .llRep p => Sys2Proof.Machine.execLlRep p s
  | .llRaise p => Sys2Proof.Machine.execLlRaise p s
  | .prsStart who data upsets => Sys2Proof.Machine.execPrsStart who data upsets s
  | .prsCopy upsets => Sys2Proof.Machine.execPrsCopy upsets s
  | .prsFill upsets => Sys2Proof.Machine.execPrsFill upsets s
  | .prsCkey upsets => Sys2Proof.Machine.execPrsCkey upsets s
  | .prsBlend upsets => Sys2Proof.Machine.execPrsBlend upsets s
  | .prsRop upsets => Sys2Proof.Machine.execPrsRop upsets s
  | .prsRopf upsets => Sys2Proof.Machine.execPrsRopf upsets s
  | .prsRowLanded upsets => Sys2Proof.Machine.execPrsRowLanded upsets s
  | .prsAbort who data => Sys2Proof.Machine.execPrsAbort who data s
  | .prsAbortComplete => Sys2Proof.Machine.execPrsAbortComplete s
  | .shuGo who n => Sys2Proof.Machine.execShuGo who n s
  | .shuPause who n => Sys2Proof.Machine.execShuPause who n s
  | .shuResume who n => Sys2Proof.Machine.execShuResume who n s
  | .shuAbort who n => Sys2Proof.Machine.execShuAbort who n s
  | .shuLinear n => Sys2Proof.Machine.execShuLinear n s
  | .shuInterleave n => Sys2Proof.Machine.execShuInterleave n s
  | .shuDeinterleave n => Sys2Proof.Machine.execShuDeinterleave n s
  | .shuSplit n => Sys2Proof.Machine.execShuSplit n s
  | .shuMerge n => Sys2Proof.Machine.execShuMerge n s
  | .shuReadResponse n upsets => Sys2Proof.Machine.execShuReadResponse n upsets s
  | .shuPaused n => Sys2Proof.Machine.execShuPaused n s
  | .shuDone n => Sys2Proof.Machine.execShuDone n s
  | .shuAbortComplete n => Sys2Proof.Machine.execShuAbortComplete n s
  | .sampleTick upsets => Sys2Proof.Machine.execSampleTick upsets s
  | .voiceKeyOn who v off => Sys2Proof.Machine.execVoiceKeyOn who v off s
  | .voiceKeyOff who v => Sys2Proof.Machine.execVoiceKeyOff who v s
  | .mixEnd => Sys2Proof.Machine.execMixEnd s
  | .mixClr => Sys2Proof.Machine.execMixClr s
  | .mixMix => Sys2Proof.Machine.execMixMix s
  | .mixMixa => Sys2Proof.Machine.execMixMixa s
  | .mixOut => Sys2Proof.Machine.execMixOut s
  | .mixNop => Sys2Proof.Machine.execMixNop s
  | .tdmReceiveFrame p slots => Sys2Proof.Machine.execTdmReceiveFrame p slots s
  | .streamEnable who writer n data => Sys2Proof.Machine.execStreamEnable who writer n data s
  | .writerFrameLanded w upsets => Sys2Proof.Machine.execWriterFrameLanded w upsets s
  | .programLoad who data => Sys2Proof.Machine.execProgramLoad who data s
  | .programLoadEnd upsets => Sys2Proof.Machine.execProgramLoadEnd upsets s
  | .splGainWrite who g data => Sys2Proof.Machine.execSplGainWrite who g data s
  | .splAbort who data => Sys2Proof.Machine.execSplAbort who data s
  | .splTslRead who => Sys2Proof.Machine.execSplTslRead who s
  | .frameReceive p frame ago upsets => Sys2Proof.Machine.execFrameReceive p frame ago upsets s
  | .frameSelect p => Sys2Proof.Machine.execFrameSelect p s
  | .frameTransmitEnd p ago => Sys2Proof.Machine.execFrameTransmitEnd p ago s
  | .gateSet who p data => Sys2Proof.Machine.execGateSet who p data s
  | .ageingScan upsets => Sys2Proof.Machine.execAgeingScan upsets s
  | .cbRecoveryReset c => Sys2Proof.Machine.execCbRecoveryReset c s
  | .pdelayReqSend p => Sys2Proof.Machine.execPdelayReqSend p s
  | .syncSend p => Sys2Proof.Machine.execSyncSend p s
  | .syncAccept => Sys2Proof.Machine.execSyncAccept s
  | .holdoverEnter => Sys2Proof.Machine.execHoldoverEnter s
  | .queueEnable who rx q data => Sys2Proof.Machine.execQueueEnable who rx q data s
  | .txDoorbell who data => Sys2Proof.Machine.execTxDoorbell who data s
  | .rxDoorbell who data => Sys2Proof.Machine.execRxDoorbell who data s
  | .txDescriptorFetch q upsets => Sys2Proof.Machine.execTxDescriptorFetch q upsets s
  | .rxCompletionLanded upsets => Sys2Proof.Machine.execRxCompletionLanded upsets s
  | .queueAbort who data => Sys2Proof.Machine.execQueueAbort who data s
  | .queueAbortComplete rx q => Sys2Proof.Machine.execQueueAbortComplete rx q s
  | .telegramInsert who k => Sys2Proof.Machine.execTelegramInsert who k s
  | .telegramDelete who k => Sys2Proof.Machine.execTelegramDelete who k s
  | .publish who data => Sys2Proof.Machine.execPublish who data s
  | .telegramBuild g upsets => Sys2Proof.Machine.execTelegramBuild g upsets s
  | .supervisionVisit upsets => Sys2Proof.Machine.execSupervisionVisit upsets s
  | .portStatusChange p link speed verified => Sys2Proof.Machine.execPortStatusChange p link speed verified s
  | .measurementSample streams => Sys2Proof.Machine.execMeasurementSample streams s
  | .modulatorFault ch ranged => Sys2Proof.Machine.execModulatorFault ch ranged s
  | .secondEnd => Sys2Proof.Machine.execSecondEnd s
  | .dataPeriodEnd verified => Sys2Proof.Machine.execDataPeriodEnd verified s
  | .timeMessage bytes => Sys2Proof.Machine.execTimeMessage bytes s
  | .ppsEdge after => Sys2Proof.Machine.execPpsEdge after s
  | .syncStateChange => Sys2Proof.Machine.execSyncStateChange s
  | .powerFail => Sys2Proof.Machine.execPowerFail s
  | .islandRestart => Sys2Proof.Machine.execIslandRestart s
  | .mailboxSend => Sys2Proof.Machine.execMailboxSend s
  | .readyRise => Sys2Proof.Machine.execReadyRise s
  | .readyFall => Sys2Proof.Machine.execReadyFall s
  | .mailboxMessageWrite => Sys2Proof.Machine.execMailboxMessageWrite s
  | .selmSlotLanded => Sys2Proof.Machine.execSelmSlotLanded s
  | .selmEnable who data => Sys2Proof.Machine.execSelmEnable who data s
  | .ilinkChange => Sys2Proof.Machine.execIlinkChange s
  | .cfgReadIdentity => Sys2Proof.Machine.execCfgReadIdentity s
  | .cfgWriteParameters block => Sys2Proof.Machine.execCfgWriteParameters block s
  | .cfgGenerateKey => Sys2Proof.Machine.execCfgGenerateKey s
  | .cfgDebugAccess => Sys2Proof.Machine.execCfgDebugAccess s
  | .seal => Sys2Proof.Machine.execSeal s
  | .unseal low => Sys2Proof.Machine.execUnseal low s
  | .timerTick u => Sys2Proof.Machine.execTimerTick u s
  | .timerReload u => Sys2Proof.Machine.execTimerReload u s
  | .compareFire u ch => Sys2Proof.Machine.execCompareFire u ch s
  | .capture u ch level => Sys2Proof.Machine.execCapture u ch level s
  | .triggerGate u => Sys2Proof.Machine.execTriggerGate u s
  | .triggerReset u => Sys2Proof.Machine.execTriggerReset u s
  | .triggerClock u => Sys2Proof.Machine.execTriggerClock u s
  | .triggerStart u => Sys2Proof.Machine.execTriggerStart u s
  | .timerEnable who u data => Sys2Proof.Machine.execTimerEnable who u data s
  | .cntlRead who u => Sys2Proof.Machine.execCntlRead who u s
  | .caplRead who u ch => Sys2Proof.Machine.execCaplRead who u ch s
  | .cntlWrite who u data => Sys2Proof.Machine.execCntlWrite who u data s
  | .perlWrite who u data => Sys2Proof.Machine.execPerlWrite who u data s
  | .cmplWrite who u ch data => Sys2Proof.Machine.execCmplWrite who u ch data s
  | .cctlModeWrite who u ch data => Sys2Proof.Machine.execCctlModeWrite who u ch data s
  | .debugFreeze u => Sys2Proof.Machine.execDebugFreeze u s
  | .pinDset who port data => Sys2Proof.Machine.execPinDset who port data s
  | .pinDclr who port data => Sys2Proof.Machine.execPinDclr who port data s
  | .pinDtgl who port data => Sys2Proof.Machine.execPinDtgl who port data s
  | .pinDriveChange who addr data => Sys2Proof.Machine.execPinDriveChange who addr data s
  | .iselWrite who g data => Sys2Proof.Machine.execIselWrite who g data s
  | .pinIrqOccurrence n level => Sys2Proof.Machine.execPinIrqOccurrence n level s
  | .irqcfgWrite who n data => Sys2Proof.Machine.execIrqcfgWrite who n data s
  | .blockPowerOff who b => Sys2Proof.Machine.execBlockPowerOff who b s
  | .blockPowerOn who b => Sys2Proof.Machine.execBlockPowerOn who b s
  | .blockPowerChangeDone b => Sys2Proof.Machine.execBlockPowerChangeDone b s
  | .dvfsRequest who q data => Sys2Proof.Machine.execDvfsRequest who q data s
  | .dvfsDividerChange q => Sys2Proof.Machine.execDvfsDividerChange q s
  | .dvfsSettleEnd q good => Sys2Proof.Machine.execDvfsSettleEnd q good s
  | .dvfsFault q => Sys2Proof.Machine.execDvfsFault q s
  | .standbyArm who data => Sys2Proof.Machine.execStandbyArm who data s
  | .standbyEntry steps => Sys2Proof.Machine.execStandbyEntry steps s
  | .wakeSource src => Sys2Proof.Machine.execWakeSource src s
  | .wakeComplete => Sys2Proof.Machine.execWakeComplete s
  | .pllLock n => Sys2Proof.Machine.execPllLock n s
  | .pllLockLost n => Sys2Proof.Machine.execPllLockLost n s
  | .pxctlWrite who n data => Sys2Proof.Machine.execPxctlWrite who n data s
  | .pwronRstN => Sys2Proof.Machine.execPwronRstN s
  | .sysRstN => Sys2Proof.Machine.execSysRstN s
  | .sysrst who => Sys2Proof.Machine.execSysrst who s
  | .brst who b => Sys2Proof.Machine.execBrst who b s
  | .resetRelease pulled => Sys2Proof.Machine.execResetRelease pulled s
  | .selRstN => Sys2Proof.Machine.execSelRstN s
  | .sysFaultWrite who data => Sys2Proof.Machine.execSysFaultWrite who data s
  | .bootStart => Sys2Proof.Machine.execBootStart s
  | .bootCopyCheck copy failure => Sys2Proof.Machine.execBootCopyCheck copy failure s
  | .rcFieldRead who addr hwSet => Sys2Proof.Machine.execRcFieldRead who addr hwSet s
  | .frameDone p => Sys2Proof.Machine.execFrameDone p s
  | .islandPowerLost => Sys2Proof.Machine.execIslandPowerLost s

end Sys2Proof.Machine
end

