-- ==== Sys2Proof/Machine/Tick.lean ====
section
/-! DEFINITION. One fabric cycle: what an idle step does (log 2). At its end the fc in which a lane's head fell due is noted (R53) and the
supervision scan tests its entry (R415). Device time advances (R29, R31), quads count core cycles at the frequency of their point (R78, R476) and
open tack windows count down (R194). Then the accesses that a target or a block held off are made again (R18, R222, R255, R484, R489). -/

namespace Sys2Proof.Machine

/-- A context's open tack window after `n` core cycles (R194). -/
def Context.tackRun (x : Context) (n : Nat) : Context :=
  if x.status.tack then { x with tackrem := BitVec.ofNat 13 (x.tackrem.toNat - n) } else x

/-- A quad counts the core cycles of one fabric cycle, where its clock runs. -/
def State.quadTick (s : State) (q : Fin 4) : State :=
  if s.pllRuns (2 + q.val) then
    let x := s.quad q
    let p := x.phase + ccRate x.point
    let n := p / 15
    let s := s.setQuad q { x with cycles := x.cycles + n, phase := p % 15, span := n }
    { s with ctxs := Vector.ofFn (fun (c : Ctx) => if quadOf (coreOf c) = q then (s.ctx c).tackRun n else s.ctx c) }
  else s

/-- A quad's assist and bias have reached those of the new point, 750 fc after they began to change (R477): a point that falls takes its voltage
code, and one that rises asks for the divider. -/
def State.biasTick (s : State) (q : Fin 4) : State :=
  let x := s.quad q
  match x.dvfs with
  | .biasing t up d =>
    if s.fc < d then s
    else if up then s.setQuad q { x with assist := t, dvfs := .divider t true, cross := x.crossing }
    else s.setQuad q { x with assist := t, qvid := BitVec.ofNat 3 t, dvfs := .settling t false }
  | _ => s

/-- What a pc edge does to pins, input functions and trigger signals (R458, R464, R468, R514). -/
def State.edgeTick (s : State) : State := if s.pcEdge then s.pinEdge.takeInputs.dropSignals else s

/-- What comes last in an fc (R53, R414, R415). -/
def State.endCycle (s : State) : State := s.noteDue.scanVisit

/-- The counts of one fabric cycle: device time, the fc, and the core cycles of each quad. The open error of the follower copies of device time is
drawn anew (R28; log 11). -/
def State.countCycle (s : State) : State :=
  let p := (s.psq.tick (s.fld Reg.PSQ_DTCTRL Fld.PSQ_DTCTRL_SLEW)).noted s.psq.time (s.fc + 1)
  let s := { s with psq := p, fc := s.fc + 1, free := s.free + 1 }
  allQuads.foldl (fun s q => (s.quadTick q).biasTick q) s

/-- The accesses that wait for a target or a block are made where nothing holds them any more (R18, R222, R484, R489), and
SEAM_TSTAT.BUSY falls in its fc (R406). -/
def State.resumeHeld (s : State) : State :=
  let s := s.deliverRing.admitPort.tgIdle
  let s := if s.prsWaits then s.prsFetch else s
  s.txResume.rxResume

/-- One fabric cycle; with the fabric clock stopped, nothing (R486). -/
def State.tick (s : State) : State :=
  if s.pllRuns 0 then s.endCycle.countCycle.edgeTick.resumeHeld else s

end Sys2Proof.Machine
end

