-- ==== Sys2Proof/Machine/Package.lean ====
section
/-! DEFINITION. The package: which signal each ball carries (R502 to R507), the levels of the balls in reset (R514), and the limits that
the manual gives in numbers (R476, R508 to R513, R515 to R522). Voltages in millivolts, currents in microamperes, times in
nanoseconds unless a name says otherwise. No command reads this file: it fixes what a ball is, not what the device does. Readings and choices: log 63. -/

namespace Sys2Proof.Machine

/-! ### Balls (R502) -/

/-- A supply or ground rail. -/
inductive Rail where
  | vss | vdd | vddQ (q : Fin 4) | vddPhy | vddqDdr | vdda | vddio | selVss | selVdd | selVddio
  deriving DecidableEq, Repr

/-- What a ball carries: a general-purpose pin (number 32 × port + bit, PA first), a bit of a quad's voltage code, its power-good input,
signal n of a DDR channel in the order of R506, one ball of a differential pair (`n` for its N ball), another named signal, or a rail. -/
inductive Signal where
  | pin (p : Fin 160)
  | qvid (q : Fin 4) (j : Fin 3)
  | qpg (q : Fin 4)
  | ddr (channel : Fin 4) (n : Fin 129)
  | pair (name : String) (n : Bool)
  | named (name : String)
  | rail (r : Rail)
  deriving DecidableEq, Repr

/-- The letters of the rows, in the order of their index k from 1 (R502). -/
def rowLetters : List String :=
  ["A", "B", "C", "D", "E", "F", "G", "H", "J", "K", "L", "M", "N", "P", "T", "U", "V", "W", "Y", "AA", "AB", "AC", "AD", "AE",
    "AF", "AG", "AH", "AJ", "AK", "AL", "AM", "AN", "AP", "AT", "AU", "AV", "AW", "AY", "BA", "BB", "BC"]

/-- The name of a ball: its row's letters and its column (R502). -/
def ballName (k col : Nat) : String := rowLetters.getD (k - 1) "" ++ toString col

/-- The name of signal n of DDR channel `ch` (R506). -/
def ddrName (ch : Nat) (n : Nat) : String :=
  "DDR" ++ toString ch ++ "_" ++
    (if n < 64 then "DQ" ++ toString n
     else if n < 72 then "CB" ++ toString (n - 64)
     else if n < 108 then "DQS" ++ toString ((n - 72) / 2) ++ (if n % 2 = 0 then "_T" else "_C")
     else if n < 122 then "CA" ++ toString (n - 108)
     else ["CS0_N", "CS1_N", "CK_T", "CK_C", "RESET_N", "ALERT_N", "ZQ"].getD (n - 122) "")

/-- The rails and signals in the corner at A1: rows A to D, columns 1 to 4 (R504). -/
def cornerBalls : List (List Signal) :=
  [[.named "SEL_XIN", .named "SEL_XOUT", .rail .selVss, .rail .selVdd],
   [.named "SEL_RST_N", .named "SEL_PFAIL_N", .named "SEL_UNSEAL_N", .rail .selVddio],
   [.named "SEL_PPS", .named "SEL_TOD", .named "SEL_CFGCK", .named "SEL_CFGIO"],
   [.named "SEL_MCLK0", .named "SEL_MCLK1", .rail .selVss, .rail .selVddio]]

/-- Column 4, rows E to M (R504). -/
def columnFour : List Signal :=
  [.named "SEL_SPI_CK", .named "SEL_SPI_CS_N", .named "SEL_SPI_IO0", .named "SEL_SPI_IO1", .named "SEL_SPI_IO2", .named "SEL_SPI_IO3",
    .rail .selVss, .rail .selVdd]

/-- Row D from column 5 (R504). -/
def rowD : List Signal :=
  ["REF_XIN", "REF_XOUT", "PWRON_RST_N", "SYS_RST_N", "FAULT_N", "DBG_TCK", "DBG_TMS", "DBG_TDI", "DBG_TDO", "DBG_TRST_N", "QSPI_CK",
    "QSPI_CS_N", "QSPI_IO0", "QSPI_IO1", "QSPI_IO2", "QSPI_IO3", "EMMC_CLK", "EMMC_CMD", "EMMC_DAT0", "EMMC_DAT1", "EMMC_DAT2",
    "EMMC_DAT3"].map .named

/-- The pairs in columns 40 and 41, by row index from 1 (R505). -/
def outerPairs : List String :=
  ["DP0_TX0", "DP0_TX1", "DP0_TX2", "DP0_TX3", "DP0_AUX", "DP1_TX0", "DP1_TX1", "DP1_TX2", "DP1_TX3", "DP1_AUX"] ++
  ["LVDS0_A_D0", "LVDS0_A_D1", "LVDS0_A_D2", "LVDS0_A_D3", "LVDS0_A_CLK", "LVDS0_B_D0", "LVDS0_B_D1", "LVDS0_B_D2", "LVDS0_B_D3",
    "LVDS0_B_CLK"] ++
  ["LVDS1_A_D0", "LVDS1_A_D1", "LVDS1_A_D2", "LVDS1_A_D3", "LVDS1_A_CLK", "LVDS1_B_D0", "LVDS1_B_D1", "LVDS1_B_D2", "LVDS1_B_D3",
    "LVDS1_B_CLK"] ++
  ["ETH0_TX", "ETH0_RX", "ETH1_TX", "ETH1_RX"]

/-- The signals in columns 38 and 39, by row index from 13 (R505). -/
def innerSignals : List (String × String) :=
  [("DP0_HPD", "DP1_HPD"), ("MGT_TXC", "MGT_TX_CTL"), ("MGT_TXD0", "MGT_TXD1"), ("MGT_TXD2", "MGT_TXD3"), ("MGT_RXC", "MGT_RX_CTL"),
    ("MGT_RXD0", "MGT_RXD1"), ("MGT_RXD2", "MGT_RXD3"), ("MGT_MDC", "MGT_MDIO")]

/-- The supply or ground of a ball that carries no signal (R507). -/
def supplyBall (k col : Nat) : Rail :=
  if 5 ≤ k ∧ k ≤ 25 ∧ 5 ≤ col ∧ col ≤ 36 then
    if (k + col) % 2 = 0 then .vss
    else if k ≤ 14 then .vddQ ⟨(col - 5) / 8 % 4, by omega⟩
    else if k ≤ 20 then .vdd
    else .vddqDdr
  else if 13 ≤ k ∧ k ≤ 25 ∧ col = 3 ∧ k % 2 = 1 then .vddio
  else if 13 ≤ k ∧ k ≤ 25 ∧ col = 4 ∧ k % 2 = 1 then .vdda
  else if 17 ≤ k ∧ k ≤ 25 ∧ col = 37 ∧ k % 2 = 1 then .vddPhy
  else .vss

/-- The signal of a ball of the serial columns 38 to 41 (R505). -/
def serialBall (k col : Nat) : Option Signal :=
  if 40 ≤ col then (outerPairs[k - 1]?).map (fun n => .pair n (col == 41))
  else if k ≤ 12 then some (.pair ("ETH" ++ toString ((k + 3) / 2) ++ (if k % 2 = 1 then "_TX" else "_RX")) (col == 39))
  else (innerSignals[k - 13]?).map (fun n => .named (if col = 38 then n.1 else n.2))

/-- The signal of a ball, where R503 to R506 name one. -/
def signalBall (k col : Nat) : Option Signal :=
  if 38 ≤ col then serialBall k col
  else if h : 26 ≤ k ∧ 5 ≤ col then
    let n := 33 * ((k - 26) % 4) + (col - 5)
    if hn : n < 129 then some (.ddr ⟨(41 - k) / 4 % 4, by omega⟩ ⟨n, hn⟩) else none
  else if h : k ≤ 3 ∧ 5 ≤ col ∧ col ≤ 36 ∧ 1 ≤ k then some (.pin ⟨32 * (k - 1) + (col - 5), by omega⟩)
  else if h : col ≤ 2 ∧ 5 ≤ k ∧ k ≤ 36 ∧ 1 ≤ col then some (.pin ⟨32 * (col + 2) + (k - 5), by omega⟩)
  else if k ≤ 4 ∧ col ≤ 4 then (cornerBalls.getD (k - 1) [])[col - 1]?
  else if 5 ≤ k ∧ k ≤ 12 ∧ col = 3 then some (.named ("SEL_MDAT" ++ toString (k - 5)))
  else if 5 ≤ k ∧ k ≤ 12 ∧ col = 4 then columnFour[k - 5]?
  else if k = 4 ∧ col ≤ 36 then rowD[col - 5]?
  else if h : col = 37 ∧ k ≤ 16 ∧ 1 ≤ k then
    if hj : (k - 1) % 4 < 3 then some (.qvid ⟨(k - 1) / 4, by omega⟩ ⟨(k - 1) % 4, hj⟩) else some (.qpg ⟨(k - 1) / 4, by omega⟩)
  else none

/-- What the ball in row k and column `col` carries, for the 41 × 41 balls of the array (R502 to R507). -/
def ball (k col : Nat) : Option Signal :=
  if 1 ≤ k ∧ k ≤ 41 ∧ 1 ≤ col ∧ col ≤ 41 then some ((signalBall k col).getD (.rail (supplyBall k col))) else none

/-! ### The balls in reset (R514) -/

/-- What the device does at a ball: an input with a pull (up, down or none), a driven level, an open drain that is released, or high
impedance. -/
inductive BallState where
  | input (pullUp : Option Bool)
  | driven (level : Bool)
  | released
  | highImpedance
  deriving DecidableEq, Repr

/-- The state of a ball while PWRON_RST_N or SYS_RST_N is low (R514); nothing where R514 states none. The QSPI and EMMC balls keep theirs after
the boot ROM's jump, and QPGq its pull-down at all times. -/
def ballInReset : Signal → Option BallState
  | .pin _ => some (.input (some false))
  | .qvid _ j => some (.driven ((2 : Nat).testBit j))
  | .qpg _ => some (.input (some false))
  | .pair _ _ => some .highImpedance
  | .named n =>
    if n = "PWRON_RST_N" then some (.input (some false))
    else if n = "SYS_RST_N" ∨ n = "DBG_TRST_N" then some (.input (some true))
    else if n = "FAULT_N" then some .released
    else if n = "QSPI_CS_N" ∨ n = "QSPI_IO2" ∨ n = "QSPI_IO3" then some (.driven true)
    else if n = "QSPI_CK" ∨ n = "EMMC_CLK" then some (.driven false)
    else if n ∈ ["QSPI_IO0", "QSPI_IO1", "EMMC_CMD", "EMMC_DAT0", "EMMC_DAT1", "EMMC_DAT2", "EMMC_DAT3"] then some (.input (some true))
    else none
  | .ddr _ _ => none
  | .rail _ => none

/-- What the device does at a dedicated ball that R514 gives a state in a reset: FAULT_N is driven low while a fault holds it (R493), the QSPI and EMMC balls
are the boot ROM's while it runs (nothing stated here of their levels), and otherwise keep that state. -/
def State.dedicatedBall (s : State) (n : String) : Option BallState :=
  if n = "FAULT_N" then some (if (s.reg Reg.SYS_FAULT &&& 0x80000007) = 0 then .released else .driven false)
  else match s.sys.boot with
    | .rom _ => if n = "PWRON_RST_N" ∨ n = "SYS_RST_N" ∨ n = "DBG_TRST_N" then ballInReset (.named n) else none
    | _ => ballInReset (.named n)

/-- The level that a quad drives at a ball of its voltage code (R476, R514). -/
def State.qvidLevel (s : State) (q : Fin 4) (j : Fin 3) : Bool := (s.quad q).qvid.getLsbD j

/-! ### Ratings in numbers -/

/-- The absolute maximum ratings of a rail (R508). -/
def Rail.maximumRating : Rail → Option (Int × Int)
  | .vddQ _ | .vdd | .vddPhy | .selVdd => some (-300, 1000)
  | .vddqDdr => some (-300, 1400)
  | .vdda => some (-300, 2100)
  | .vddio | .selVddio => some (-300, 3900)
  | .vss | .selVss => none

/-- The voltage that a quad's regulator gives for a code (R476). -/
def qvidVoltage (code : Nat) : Option Nat := [850, 750, 650, 600, 500][code]?

/-- What the SRAM of a quad's caches and TLBs is helped with (R476). -/
inductive SramAssist where
  | none | read | readWrite | retention
  deriving DecidableEq, Repr

/-- SRAM assist and body bias, in millivolts with forward positive, of a row of R476's table; row 4 is Stopped. -/
def assistRow : Nat → SramAssist × Int
  | 2 => (.read, 100)
  | 3 => (.readWrite, 150)
  | 4 => (.retention, -200)
  | _ => (.none, 0)

/-- SRAM assist and body bias that are in force in a quad (R476, R477). -/
def State.quadAssist (s : State) (q : Fin 4) : SramAssist × Int := assistRow (s.quad q).assist

/-- The core clock of a point in MHz, 6,000 MHz divided by 4, 5, 7.5 or 15 (R476). -/
def coreMHz (point : Nat) : Nat := [1500, 1200, 800, 400].getD point 0

/-- The operating conditions of a rail in microvolts, a quad's at the code it drives (R509). -/
def Rail.operating (code : Nat) : Rail → Option (Nat × Nat)
  | .vddQ _ => (qvidVoltage code).map (fun v => (v * 970, v * 1030))
  | .vdd => some (776000, 824000)
  | .vddPhy => some (825000, 875000)
  | .vddqDdr => some (1067000, 1133000)
  | .vdda => some (1710000, 1890000)
  | .vddio => some (3000000, 3600000)
  | .selVdd => some (760000, 840000)
  | .selVddio => some (2700000, 3600000)
  | .vss | .selVss => none

/-- The nominal voltage of a rail in microvolts, a quad's at the code it drives (R509). -/
def Rail.nominal (code : Nat) : Rail → Option Nat
  | .vddQ _ => (qvidVoltage code).map (fun v => v * 1000)
  | .vdd | .selVdd => some 800000
  | .vddPhy => some 850000
  | .vddqDdr => some 1100000
  | .vdda => some 1800000
  | .vddio | .selVddio => some 3300000
  | .vss | .selVss => none

/-- A rail's design current in milliamperes (R509). -/
def Rail.current : Rail → Option Nat
  | .vddQ _ => some 6000
  | .vdd => some 12000
  | .vddPhy => some 4000
  | .vddqDdr => some 3000
  | .vdda => some 1000
  | .vddio => some 500
  | .selVdd => some 300
  | .selVddio => some 50
  | .vss | .selVss => none

/-- A part's typical and maximum power in milliwatts, in the order of R511. -/
def powerTable : List (String × Nat × Nat) :=
  [("Core quads", 13000, 20000), ("Fabric, fabric memory, EVC, PSQ", 2000, 3000), ("DDR controllers and PHYs", 3000, 5600),
    ("Display pipes and outputs", 2400, 4000), ("Seam engine and ports", 2000, 3200), ("Presser and shuttles", 800, 1200),
    ("Spool, TMR, PIN, SYS and others", 800, 1000), ("Selvage island", 200, 300)]

/-- The main die's typical and maximum power in milliwatts: the sum of its parts (R511). -/
def mainDiePower : Nat × Nat := (((powerTable.take 7).map (fun r => r.2.1)).sum, ((powerTable.take 7).map (fun r => r.2.2)).sum)

/-- The power of a quad in Retain, in milliwatts (R511). -/
def retainedQuadPower : Nat := 40

/-- The bound of the power of a block that is off, in milliwatts (R511). -/
def offBlockPower : Nat := 5

/-- The main die's typical power in standby in milliwatts, with every fabric-memory bank retained and with none (R511). -/
def standbyPower : Nat × Nat := (900, 600)

/-- The greatest input of a PA–PE pin in millivolts, with VDDIO within R509 and with VDDIO below 3.0 V (R508). -/
def inputMaximum (supplied : Bool) : Nat := if supplied then 5500 else 3600

/-- The current in milliamperes that may be injected into a PA–PE pin whose VDDIO is below 3.0 V (R508). -/
def injectedMaximum : Nat := 2

/-- The storage temperature's limits in degrees, and the ESD limits in volts, human-body and charged-device (R508). -/
def storageLimits : (Int × Int) × (Nat × Nat) := ((-55, 150), (2000, 500))

/-- How long PWRON_RST_N is held low, in microseconds, once every rail is within R509 (R510). -/
def powerOnHold : Nat := 1000

/-- The level that an input of the 3.3 V balls reads at a voltage in millivolts; between the limits the spec gives none (R512). -/
def inputLevel (millivolts : Nat) : Option Bool := if 2000 ≤ millivolts then some true else if millivolts ≤ 800 then some false else none

/-- The least and greatest resistance of a pull, in ohms (R512). -/
def pullOhms : Nat × Nat := (35000, 65000)

/-- The output current and the output delays, in tenths of a nanosecond, of a drive code: fast, and with SLOW = 1 (R512). -/
def driveStrength (drv : Fin 4) : Nat × Nat × Nat :=
  [(2000, 60, 90), (4000, 40, 70), (8000, 30, 60), (12000, 25, 55)].getD drv.val (0, 0, 0)

/-- The output delay of a pin as it is set up, in tenths of a nanosecond (R512). -/
def State.pinDelay (s : State) (p : Fin 160) : Nat :=
  let d := driveStrength ⟨s.fld (Reg.PIN_CFG p) Fld.PIN_CFG_DRV % 4, Nat.mod_lt _ (by decide)⟩
  if s.flag (Reg.PIN_CFG p) Fld.PIN_CFG_SLOW then d.2.2 else d.2.1

/-- The current that a pin drives or sinks: an open-drain output sinks 12 mA whatever its drive code (R512, R513). -/
def State.pinCurrent (s : State) (p : Fin 160) : Nat :=
  if s.flag (Reg.PIN_CFG p) Fld.PIN_CFG_OD then 12000
  else (driveStrength ⟨s.fld (Reg.PIN_CFG p) Fld.PIN_CFG_DRV % 4, Nat.mod_lt _ (by decide)⟩).1

/-- A low pulse on a reset ball or on SEL_PFAIL_N: it acts from 1 µs on, never below 100 ns, and either way between (R519). -/
def pulseActs (ns : Nat) : Option Bool := if 1000 ≤ ns then some true else if ns < 100 then some false else none

/-- The least input hysteresis, the greatest drop of a high output below VDDIO and the greatest low output, in millivolts; the input leakage
in nanoamperes and the capacitance in picofarads; and the delay from a ball to its synchroniser in tenths of a nanosecond (R512). -/
def inputFigures : Nat × Nat × Nat × Nat × Nat × Nat := (200, 400, 400, 5000, 5, 15)

/-- What an input up to 5.5 V on a PA–PE pin draws at most, in nanoamperes (R513). -/
def tolerantInputCurrent : Nat := 10000

/-- The setup and hold of the straps at the rising reset edge, and how long SEL_RST_N stays low once the island's rails stand (R519). -/
def strapTiming : Nat × Nat × Nat := (1000, 1000, 100000)

/-- The boot loader's QSPI clock period, its chip select's lead and trail, its output delay and its input setup and hold (R516). -/
def qspiTiming : Nat × Nat × Nat × Nat × Nat := (40, 20, 5, 5, 2)

/-- The TDM port's output delay and its input setup and hold (R517). -/
def tdmTiming : Nat × Nat × Nat := (8, 6, 3)

/-- The least and greatest duty cycle of TDMn_BCLK and of the modulator clocks in percent (R517, R518). -/
def dutyCycle : Nat × Nat := (45, 55)

/-- The modulator interface's setup and hold (R518). -/
def modulatorTiming : Nat × Nat := (8, 2)

/-- Whether the transmit pairs of an Ethernet port are high impedance (R515). -/
def State.ethernetHighZ (s : State) (p : Fin 10) : Bool := !s.flag (Reg.SEAM_PCTL p) Fld.SEAM_PCTL_EN

/-- What a modulator's output delay, its isolator and both traces may take together, in tenths of a nanosecond, at a division of 400 MHz:
one clock period less 10 ns (R518). -/
def modulatorBudget (mdiv : Nat) : Nat := 25 * mdiv - 100

/-- The reference crystals' tolerance in parts per million: REF_XIN, and SEL_XIN (R520). -/
def crystalTolerance : Nat × Nat := (50, 20)

/-- The thermal resistances in hundredths of a degree per watt, junction to lid and junction to board, and the junction's limits (R521). -/
def thermal : Nat × Nat × Int × Int := (10, 250, -40, 125)

/-- The body's edge, its height, the ball pitch and the ball diameter in micrometres (R522). -/
def packageSize : Nat × Nat × Nat × Nat := (45000, 3600, 1000, 600)

/-- The distance of ball A1's centre from its two edges and the coplanarity in micrometres, and the mass in grams (R522). -/
def packageDetails : Nat × Nat × Nat := (2500, 200, 18)

end Sys2Proof.Machine
end

