-- ==== Sys2Proof/Safety.lean ====
section
/-! DEFINITION. What counts as a safe run, in the terms that claims use: when a command's instruction issues, what an instruction
leaves, what a command leaves alone, and the invariants of the state. -/

namespace Sys2Proof.Machine

/-! ### Invariants -/

/-- The tables of the state are in their canonical form: memory's addresses rise strictly and no entry equals what an unlisted address
reads as; the registers' addresses rise strictly, and so do those that the event controller keeps over a standby, within its block. -/
def State.wf (s : State) : Prop :=
  Memory.wf s.mem = true ∧ Sparse.rising s.dev = true ∧
  ∀ v, s.evc.saved = some v → Sparse.rising v.regs = true ∧ ∀ p ∈ v.regs, 0x10100000 ≤ p.1 ∧ p.1 < 0x10200000

/-- A context's g0 holds 0, and its instruction addresses are aligned (R109, R110): pc, npc, ls and le to 4 bytes, the vector base to 4 KiB
(R171), and the target of a gate call in progress to 4 bytes. -/
def Context.regular (x : Context) : Prop :=
  x.g[0] = 0 ∧ x.pc.toNat % 4 = 0 ∧ x.npc.toNat % 4 = 0 ∧ x.ls.toNat % 4 = 0 ∧ x.le.toNat % 4 = 0 ∧ x.vbase.toNat % 4096 = 0 ∧
  ∀ e t ring ie, x.entry = some e → e.kind = .gate t ring ie → t.toNat % 4 = 0

/-- A quad is at one of its four points, goes to one of them, and has been asked for one of them (R476, R477, R479). -/
def Quad.legal (x : Quad) : Prop :=
  x.point < 4 ∧ (∀ t, x.pendTarget = some t → t < 4) ∧
  match x.dvfs with
  | .idle => True
  | .divider t _ => t < 4
  | .biasing t _ _ => t < 4
  | .settling t _ => t < 4

/-- The keys of every sparse table beside memory and the registers. -/
def State.tableKeys (s : State) : List (List Nat) :=
  [s.ecc.map Prod.fst, s.fab.targets.map Prod.fst, s.fab.resp.map Prod.fst, s.evc.staged.map Prod.fst, s.evc.deadlines.map Prod.fst,
   s.psq.latches.map Prod.fst, s.dbg.latches.map Prod.fst, s.spl.latches.map Prod.fst, s.spl.rx.map Prod.fst, s.spl.mixa.map Prod.fst,
   s.seam.tx.map Prod.fst, s.seam.doneFc.map Prod.fst, s.seam.cb.map Prod.fst, s.seam.meters.map Prod.fst, s.seam.groups.map Prod.fst,
   s.seam.builds.map Prod.fst, s.seam.keyed.map Prod.fst, s.tmrX.latches.map Prod.fst, s.isl.otp.map Prod.fst, s.isl.flash.map Prod.fst,
   s.isl.sramErr.map Prod.fst] ++
  (s.evc.saved.toList.map (fun v => v.deadlines.map Prod.fst) ++ s.pipes.toList.map (fun p => p.active.map Prod.fst))

/-- The rest of the invariant: contexts and quads are as above; standby has six steps, and a wake sequence begins in standby alone (R481, R485); a
reset that is held governs the pins (R514); and the keys of every sparse table rise strictly, with no erased byte listed for the island's
flash and no blank one for its OTP. -/
def State.regular (s : State) : Prop :=
  (∀ c, (s.ctx c).regular) ∧ (∀ q, (s.quad q).legal) ∧ s.sys.standby ≤ 6 ∧ (s.sys.waking ≠ none → 0 < s.sys.standby) ∧
  (s.sys.boot = .held → s.pinsReset = true) ∧ (∀ l ∈ s.tableKeys, l.Pairwise (fun a b => a < b)) ∧
  (∀ p ∈ s.isl.flash, p.2 ≠ 0xFF) ∧ ∀ p ∈ s.isl.otp, p.2 ≠ 0

/-! ### When an instruction issues -/

/-- The state in which the instruction at pc acts: its fetch has been made, and its context has taken the slot (R80). -/
def State.fetched (s : State) (c : Ctx) : State := (s.fetch c).2.takeGrant c

/-- Only the order in which core `k` used its TLBs and its instruction cache differs. -/
def SameButFetch (s t : State) (k : Fin 16) : Prop :=
  t = s.setCore k { s.core k with itlb := (t.core k).itlb, tlb2 := (t.core k).tlb2, l1i := (t.core k).l1i }

/-- A fetch finds the instruction. -/
def Fetch.found : Fetch → Bool
  | .ok => true
  | _ => false

/-- No access of the context is held, and the fetch of the instruction at pc finds it, meets no erroneous word and waits behind no other
request: it leaves everything but the order in which its core used its TLBs and its instruction cache. -/
def State.fetchesQuietly (s : State) (c : Ctx) : Prop :=
  (s.ctx c).wait = .none ∧ (∀ q ∈ s.fab.accepted, q.1 ≠ c.val) ∧ (s.fetch c).1.found = true ∧ SameButFetch s (s.fetch c).2 (coreOf c)

/-- Context `c` issues an instruction that is no privileged one, and no cause of R178 stands before the instruction's own: it can
issue (R79), the slot offered is one that it may take (R80), no mode change, annulled slot, Lining cause or halt request comes first (R86,
R116, R187, R528), and the fetch finds the instruction. -/
def State.reaches (s : State) (c : Ctx) : Prop :=
  (s.ctx c).canIssue = true ∧ (s.ctx c).shadowDue = false ∧ s.mayTake c = true ∧ (s.ctx c).annul = false ∧ (s.ctx c).lpend = 0 ∧
  (s.ctx c).haltDue = false ∧ s.fetchesQuietly c

/-- As `reaches`, and the rules of delay slots and loop ends allow an instruction of kind `k` here (R85, R121). -/
def State.issues (s : State) (c : Ctx) (k : IKind) : Prop :=
  s.reaches c ∧ ((s.ctx c).slot = false ∨ k = .plain) ∧
  ((s.ctx c).pc ≠ (s.ctx c).le ∨ (s.ctx c).lc = 0 ∨ ((s.ctx c).slot = false ∧ k ≠ .branch ∧ k ≠ .indirect))

/-- The context may execute a privileged instruction (R112). -/
def State.mayPrivileged (s : State) (c : Ctx) : Prop := (s.ctx c).status.lvl = true ∨ (s.ctx c).status.ring = 0

/-- The context may read or write a control register whose ring column is `r`; 4 stands for L, the Lining level only (R112, R181). -/
def RingAllows (x : Context) (r : Nat) : Prop := x.status.lvl = true ∨ (r ≠ 4 ∧ x.status.ring.toNat ≤ r)

/-- The PIN block permits the context's PINX instructions (R467). -/
def State.mayPins (s : State) (c : Ctx) : Prop :=
  let w := Reg.PIN_PPCTL (coreOf c)
  ((s.ctx c).status.lvl = true ∨ (s.ctx c).status.ring.toNat ≤ s.fld w Fld.PIN_PPCTL_RING) ∧
    s.fld w Fld.PIN_PPCTL_CTX / 2 ^ (c.val % 8) % 2 = 1

/-- The context whose instruction a command is (R132 to R166); the other commands are no instructions. -/
def instrContext : Instr → Option Ctx
  | .add c _ _ _ _ | .sub c _ _ _ _ | .addc c _ _ _ _ | .subc c _ _ _ _ | .andR c _ _ _ _ | .orR c _ _ _ _ | .xorR c _ _ _ _
  | .andn c _ _ _ _ | .orn c _ _ _ _ | .slt c _ _ _ | .sltu c _ _ _ | .minS c _ _ _ | .maxS c _ _ _ | .minu c _ _ _ | .maxu c _ _ _
  | .addw c _ _ _ _ | .subw c _ _ _ _ | .sextb c _ _ | .sexth c _ _ | .sextw c _ _ | .zextb c _ _ | .zexth c _ _ | .zextw c _ _
  | .clz c _ _ | .ctz c _ _ | .popc c _ _ | .bswap c _ _ | .cpick c _ _ _ _ | .addi c _ _ _ | .andi c _ _ _ | .ori c _ _ _
  | .xori c _ _ _ | .slti c _ _ _ | .sltiu c _ _ _ | .lui c _ _ | .auipc c _ _ | .mulLo c _ _ _ | .mulHs c _ _ _ | .mulHu c _ _ _
  | .mulHx c _ _ _ | .mulW c _ _ _ | .quoS c _ _ _ | .quoU c _ _ _ | .rmdS c _ _ _ | .rmdU c _ _ _ | .quoSw c _ _ _ | .quoUw c _ _ _
  | .rmdSw c _ _ _ | .rmdUw c _ _ _ | .sll c _ _ _ | .srl c _ _ _ | .sra c _ _ _ | .ror c _ _ _ | .sllw c _ _ _ | .srlw c _ _ _
  | .sraw c _ _ _ | .lb c _ _ _ | .lh c _ _ _ | .lw c _ _ _ | .ld c _ _ _ | .lbu c _ _ _ | .lhu c _ _ _ | .lwu c _ _ _ | .lp24 c _ _ _
  | .sb c _ _ _ | .sh c _ _ _ | .sw c _ _ _ | .sd c _ _ _ | .sp24 c _ _ _ | .padd c _ _ _ _ | .psub c _ _ _ _ | .pmul c _ _ _ _
  | .pmin c _ _ _ _ | .pmax c _ _ _ _ | .pavg c _ _ _ _ | .pabs c _ _ | .pneg c _ _ | .psra c _ _ _ | .psls c _ _ _ | .pswap c _ _ _
  | .pdup c _ _ _ | .x4p c _ _ | .p4x c _ _ _ | .fadd c _ _ _ _ | .fsub c _ _ _ _ | .fmul c _ _ _ _ | .fdiv c _ _ _ _ | .fsqrt c _ _ _
  | .fmac c _ _ _ _ | .fmin c _ _ _ _ | .fmax c _ _ _ _ | .fneg c _ _ _ | .fabs c _ _ _ | .feq c _ _ _ _ | .flt c _ _ _ _
  | .fle c _ _ _ _ | .fcmp c _ _ _ | .fclass c _ _ _ | .cvt c _ _ _ _ | .beq c _ _ _ _ | .bne c _ _ _ _ | .blt c _ _ _ _ | .bge c _ _ _ _
  | .bltu c _ _ _ _ | .bgeu c _ _ _ _ | .bf c _ _ _ | .jump c _ | .call c _ | .jr c _ | .callr c _ | .ret c | .hwLoop c _ _ | .moveB c
  | .fill c _ | .cmp c _ | .scan c _ | .amSwap c _ _ _ _ _ | .amAdd c _ _ _ _ _ | .amSub c _ _ _ _ _ | .amAnd c _ _ _ _ _
  | .amOr c _ _ _ _ _ | .amXor c _ _ _ _ _ | .amMins c _ _ _ _ _ | .amMaxs c _ _ _ _ _ | .amMinu c _ _ _ _ _ | .amMaxu c _ _ _ _ _
  | .amIncw c _ _ _ _ _ | .amCas c _ _ _ _ _ | .fence c | .fenceS c | .fenceL c | .fenceA c | .ifence c | .rdc c _ _ | .wrc c _ _
  | .emulationTrap c _ | .pinIn c _ | .pinOut c _ | .pinSet c _ | .pinClr c _ | .pinTgl c _ | .pinOe c _ | .pinRdo c _ | .pinRde c _
  | .gate c _ | .eret c | .stop c | .sleep c | .tack c _ | .untack c | .brk c | .tlbiVa c _ _ | .tlbiAs c _ | .tlbiAll c | .dcCln c _
  | .dcInv c _ | .dcCi c _ | .dcZero c _ => some c
  | .fabricRequest _ | .fabricMemoryResponse _ _ | .ddrReadResponse _ _ _ | .registerWrite _ _ _ _ | .blockClearingEnd _
  | .dtadjWrite _ _ | .dtinclWrite _ _ | .dtstepRequest _ _ | .dtstepAct | .dtfRead _ | .periodStart _ _ | .psqNop _ | .psqEnd _
  | .psqHalt _ | .psqSel _ | .psqRep _ | .psqUnimplementedOp _ | .psqWake _ | .psqShut _ | .psqPress _ | .psqGate _ | .psqMix _
  | .psqWreg _ | .psqRaise _ | .completionRecognised _ _ | .jdoneWrite _ _ | .swapFlip _ _ | .laneStart _ _ | .laneStop _ _
  | .laneFinish _ _ | .laneStopped _ | .wheelWrite _ _ _ | .wheelApplied _ | .cctlWrite _ _ _ | .targetBufferFlush _ _
  | .contextStart _ _ | .contextKill _ _ | .killComplete _ | .lockstepMismatch _ | .haltRequest _ _ _ | .contextHalt _
  | .contextResume _ _ _ | .dbgRdatlRead _ | .dbgRdatlWrite _ _ | .tapBypass _ | .tapIdcode | .dbgaccUpdate _ | .dbgaccCapture
  | .modeShadowEnd _ | .lineFillComplete _ _ | .tableWalk _ _ | .latchRefill _ | .exceptionEntry _ | .eventEntry _
  | .entryFrameAccepted _ | .liningEntry _ | .liningCausePending _ _ | .tackExpiry _ | .rsvWrite _ _ _ | .rsvApply _ | .ddrScrubRead _ _
  | .fmScrubRead _ | .ddrMachineCheck _ _ | .dramszWrite _ _ | .channelTrained _ _ | .eventOccurrence _ | .groupDeadline _
  | .evcDoorbell _ _ | .eventClaim _ | .evcClaimRead _ | .evcComplete _ _ | .sourceRelease _ | .scfgWrite _ _ _ | .tgt3Write _ _ _
  | .groupConfigWrite _ _ _ _ | .wakeEvent _ | .frameLatch _ _ | .commitGo _ _ _ | .pipeEnable _ _ _ | .frameEnd _ | .lineMatch _
  | .lineFetchStart _ | .planeFetchResponse _ _ | .budgetOverrun _ | .composeStart _ | .outselWrite _ _ _ | .linkTrain _ _ _
  | .linkTrainEnd _ _ | .auxTransaction _ _ _ | .auxDone _ _ _ _ | .hpdPlug _ | .hpdUnplug _ | .irqHpd _ | .writebackDone _ _
  | .rrKick _ _ _ | .llEnd _ | .llWait _ | .llWreg _ | .llWregt _ | .llRep _ | .llRaise _ | .prsStart _ _ _ | .prsCopy _ | .prsFill _
  | .prsCkey _ | .prsBlend _ | .prsRop _ | .prsRopf _ | .prsRowLanded _ | .prsAbort _ _ | .prsAbortComplete | .shuGo _ _ | .shuPause _ _
  | .shuResume _ _ | .shuAbort _ _ | .shuLinear _ | .shuInterleave _ | .shuDeinterleave _ | .shuSplit _ | .shuMerge _
  | .shuReadResponse _ _ | .shuPaused _ | .shuDone _ | .shuAbortComplete _ | .sampleTick _ | .voiceKeyOn _ _ _ | .voiceKeyOff _ _
  | .mixEnd | .mixClr | .mixMix | .mixMixa | .mixOut | .mixNop | .tdmReceiveFrame _ _ | .streamEnable _ _ _ _ | .writerFrameLanded _ _
  | .programLoad _ _ | .programLoadEnd _ | .splGainWrite _ _ _ | .splAbort _ _ | .splTslRead _ | .frameReceive _ _ _ _ | .frameSelect _
  | .frameTransmitEnd _ _ | .gateSet _ _ _ | .ageingScan _ | .cbRecoveryReset _ | .pdelayReqSend _ | .syncSend _ | .syncAccept
  | .holdoverEnter | .queueEnable _ _ _ _ | .txDoorbell _ _ | .rxDoorbell _ _ | .txDescriptorFetch _ _ | .rxCompletionLanded _
  | .queueAbort _ _ | .queueAbortComplete _ _ | .telegramInsert _ _ | .telegramDelete _ _ | .publish _ _ | .telegramBuild _ _
  | .supervisionVisit _ | .portStatusChange _ _ _ _ | .measurementSample _ | .modulatorFault _ _ | .secondEnd | .dataPeriodEnd _
  | .timeMessage _ | .ppsEdge _ | .syncStateChange | .powerFail | .islandRestart | .mailboxSend | .readyRise | .readyFall
  | .mailboxMessageWrite | .selmSlotLanded | .selmEnable _ _ | .ilinkChange | .cfgReadIdentity | .cfgWriteParameters _ | .cfgGenerateKey
  | .cfgDebugAccess | .seal | .unseal _ | .timerTick _ | .timerReload _ | .compareFire _ _ | .capture _ _ _ | .triggerGate _
  | .triggerReset _ | .triggerClock _ | .triggerStart _ | .timerEnable _ _ _ | .cntlRead _ _ | .caplRead _ _ _ | .cntlWrite _ _ _
  | .perlWrite _ _ _ | .cmplWrite _ _ _ _ | .cctlModeWrite _ _ _ _ | .debugFreeze _ | .pinDset _ _ _ | .pinDclr _ _ _ | .pinDtgl _ _ _
  | .pinDriveChange _ _ _ | .iselWrite _ _ _ | .pinIrqOccurrence _ _ | .irqcfgWrite _ _ _ | .blockPowerOff _ _ | .blockPowerOn _ _
  | .blockPowerChangeDone _ | .dvfsRequest _ _ _ | .dvfsDividerChange _ | .dvfsSettleEnd _ _ | .dvfsFault _ | .standbyArm _ _
  | .standbyEntry _ | .wakeSource _ | .wakeComplete | .pllLock _ | .pllLockLost _ | .pxctlWrite _ _ _ | .pwronRstN | .sysRstN | .sysrst _
  | .brst _ _ | .resetRelease _ | .selRstN | .sysFaultWrite _ _ | .bootStart | .bootCopyCheck _ _ | .rcFieldRead _ _ _ | .frameDone _
  | .islandPowerLost => none

/-- A branch, jump, call or return, and GATE and ERET (R85). -/
def isTransfer : Instr → Bool
  | .beq _ _ _ _ _ => true
  | .bne _ _ _ _ _ => true
  | .blt _ _ _ _ _ => true
  | .bge _ _ _ _ _ => true
  | .bltu _ _ _ _ _ => true
  | .bgeu _ _ _ _ _ => true
  | .bf _ _ _ _ => true
  | .jump _ _ => true
  | .call _ _ => true
  | .jr _ _ => true
  | .callr _ _ => true
  | .ret _ => true
  | .gate _ _ => true
  | .eret _ => true
  | _ => false

/-- The context may execute the instruction (R112, R163, R166, R467): a privileged one, an access of a control register, a PINX instruction. A
reserved encoding is none that it may execute (R137). -/
def State.permits (s : State) (c : Ctx) : Instr → Prop
  | .rdc _ _ n => RingAllows (s.ctx c) ((readRing n.toNat).getD 4)
  | .wrc _ _ n => RingAllows (s.ctx c) ((writeRing n.toNat).getD 4)
  | .emulationTrap _ _ => False
  | .eret _ => s.mayPrivileged c
  | .stop _ => s.mayPrivileged c
  | .tack _ _ => s.mayPrivileged c
  | .untack _ => s.mayPrivileged c
  | .tlbiVa _ _ _ => s.mayPrivileged c
  | .tlbiAs _ _ => s.mayPrivileged c
  | .tlbiAll _ => s.mayPrivileged c
  | .dcCln _ _ => s.mayPrivileged c
  | .dcInv _ _ => s.mayPrivileged c
  | .dcCi _ _ => s.mayPrivileged c
  | .pinIn _ _ => s.mayPins c
  | .pinOut _ _ => s.mayPins c
  | .pinSet _ _ => s.mayPins c
  | .pinClr _ _ => s.mayPins c
  | .pinTgl _ _ => s.mayPins c
  | .pinOe _ _ => s.mayPins c
  | .pinRdo _ _ => s.mayPins c
  | .pinRde _ _ => s.mayPins c
  | _ => True

/-! ### What an instruction leaves -/

/-- pc, npc and lc after an instruction that is no transfer (R110, R121). -/
def Context.follows (x : Context) : VAddr × VAddr × Dword :=
  if x.slot = false ∧ x.pc = x.le ∧ x.lc ≠ 0 then
    if x.lc = 1 then (x.npc, x.npc + 4, 0) else (x.ls, x.ls + 4, x.lc - 1)
  else (x.npc, x.npc + 4, x.lc)

/-- An instruction that is no transfer has completed at `cost` slots: the pair has moved on, and the counts with it. -/
def Sequenced (x y : Context) (cost : Nat) : Prop :=
  (y.pc, y.npc, y.lc) = x.follows ∧ y.icount = x.icount + 1 ∧ y.slots = x.slots + cost ∧ y.slot = false ∧ y.annul = false ∧
  y.shadows = x.shadows.map Shadow.tick

/-- A branch, jump, call or return has completed at `cost` slots: its delay slot is next, annulled or not, and then `after`
(R85, R86, R110). -/
def Transferred (x y : Context) (cost : Nat) (after : VAddr) (annulled : Bool) : Prop :=
  y.pc = x.npc ∧ y.npc = after ∧ y.icount = x.icount + 1 ∧ y.slots = x.slots + cost ∧ y.slot = true ∧ y.annul = annulled ∧
  y.shadows = x.shadows.map Shadow.tick ∧ y.lc = x.lc

/-- No general register but `rd` has changed, and g0 still reads 0 (R109). -/
def WroteReg (x y : Context) (rd : Gpr) (v : Dword) : Prop :=
  ∀ r : Gpr, y.rg r = if r = 0 then 0 else if r = rd then v else x.rg r

/-- No general register has changed. -/
def SameRegs (x y : Context) : Prop := ∀ r : Gpr, y.rg r = x.rg r

/-- Outside what every completed instruction moves on, and the general registers and flags, a context is unchanged: its control,
exception, loop, stack and translation registers, its run state and its waits. -/
def SameRest (x y : Context) : Prop :=
  { y with g := x.g, flags := x.flags, pc := x.pc, npc := x.npc, lc := x.lc, icount := x.icount, slots := x.slots,
           slot := x.slot, annul := x.annul, shadows := x.shadows } = x

/-- Every context but `c` is unchanged. -/
def SameOthers (s t : State) (c : Ctx) : Prop := ∀ d, d ≠ c → t.ctx d = s.ctx d

/-- Nothing outside the contexts has changed but the order in which the context's core used its TLBs and its instruction cache, and the reclaim
pointer of a slot that it took (R80): no memory, no register of a block, no other cache, no other core. -/
def SameMachine (s t : State) (c : Ctx) : Prop :=
  let y := s.core (coreOf c)
  { t with ctxs := s.ctxs, cores := s.cores } = s ∧ (∀ k, k ≠ coreOf c → t.core k = s.core k) ∧
  { t.core (coreOf c) with itlb := y.itlb, tlb2 := y.tlb2, l1i := y.l1i } = (s.takeGrant c).core (coreOf c)

/-- An instruction has computed: `rd` holds `v`, the flags are `fl`, it cost `cost` slots, and all else is as it was. -/
def Computed (s t : State) (c : Ctx) (rd : Gpr) (v : Dword) (fl : CFlags) (cost : Nat) : Prop :=
  WroteReg (s.ctx c) (t.ctx c) rd v ∧ (t.ctx c).flags = fl ∧ Sequenced (s.ctx c) (t.ctx c) cost ∧
  SameRest (s.ctx c) (t.ctx c) ∧ SameOthers s t c ∧ SameMachine s t c

/-- A direct branch has completed (R85, R86, R110): the registers, the flags and all else are as they were, and after the delay slot the
context goes on at the target, or past the slot, which is annulled where the branch asks for it. -/
def Branched (s t : State) (c : Ctx) (taken annulBit : Bool) (target : VAddr) (cost : Nat) : Prop :=
  let x := s.ctx c
  let y := t.ctx c
  SameRegs x y ∧ y.flags = x.flags ∧
  Transferred x y cost (if taken then target else x.npc + 4) (annulBit && !taken) ∧
  SameRest x y ∧ SameOthers s t c ∧ SameMachine s t c

/-- The context finds `target` in the target buffer for the instruction at its pc (R88, R90). -/
def TargetHit (s : State) (c : Ctx) (target : VAddr) : Prop :=
  s.flag (Reg.HYC_CCTL c) Fld.HYC_CCTL_TBOFF = false ∧
  ∃ e ∈ (s.core (coreOf c)).tbuf, e.addr = (s.ctx c).pc ∧ e.asid = (s.ctx c).asid ∧ e.ring = (s.ctx c).status.ring ∧
    e.slot = c.val % 8 ∧ e.target = target

/-- The target buffer after an indirect transfer (R89, R90): its target in the entry of the four tags, used most recently, and at most 32
entries; a context with TBOFF = 1 leaves it alone. -/
def tbufAfter (s : State) (c : Ctx) (target : VAddr) : List TbEntry :=
  let l := (s.core (coreOf c)).tbuf
  let x := s.ctx c
  if s.flag (Reg.HYC_CCTL c) Fld.HYC_CCTL_TBOFF then l
  else (⟨x.pc, x.asid, x.status.ring, c.val % 8, target⟩ ::
    l.filter (fun e => !(e.addr == x.pc && e.asid == x.asid && e.ring == x.status.ring && e.slot == c.val % 8))).take 32

/-- The state with a core's target buffer replaced. -/
def State.withTbuf (s : State) (k : Fin 16) (l : List TbEntry) : State := s.setCore k { s.core k with tbuf := l }

/-! ### Memory and caches -/

/-- Only the order in which core `k` used its TLBs differs. -/
def SameButTlbs (s t : State) (k : Fin 16) : Prop :=
  t = s.setCore k { s.core k with itlb := (t.core k).itlb, dtlb := (t.core k).dtlb, tlb2 := (t.core k).tlb2 }

/-- An access of `n` bytes at `va` lies in one line and translates to `pa` in a cacheable page outside register space, for the
instruction that issues, and meets no erroneous word of a TLB (R148, R202, R204, R231). -/
def CacheAccess (s : State) (c : Ctx) (acc : Access) (va : VAddr) (n pa : Nat) : Prop :=
  va.toNat % 64 + n ≤ 64 ∧ va.toNat % 64 = pa % 64 ∧
  ((s.fetched c).xlate c (s.ctx c).status.ring va acc).1 = .ok pa .wb ∧
  SameButTlbs (s.fetched c) ((s.fetched c).xlate c (s.ctx c).status.ring va acc).2 (coreOf c) ∧
  s.region pa ≠ .devReg ∧ s.region pa ≠ .rom

/-- The quad of a context holds the line of `pa` as `l`, with no erroneous word. -/
def HeldClean (s : State) (c : Ctx) (pa : Nat) (l : CLine) : Prop :=
  s.l2Get (quadOf (coreOf c)) (lineOf pa) = some l ∧ l.errs = []

/-- No other quad holds a dirty copy of the line of `pa`. -/
def CleanElsewhere (s : State) (c : Ctx) (pa : Nat) : Prop :=
  ∀ q l, q ≠ quadOf (coreOf c) → s.l2Get q (lineOf pa) = some l → l.dirty = false

/-- Outside the contexts, the cores' caches and TLBs, the quads' caches and the snoop filter nothing has changed: no byte of memory, no register of a
block, no engine. -/
def SameOutsideCores (s t : State) : Prop :=
  { t with ctxs := s.ctxs, cores := s.cores, quads := s.quads, fab := { t.fab with snoop := s.fab.snoop } } = s

/-- Every quad holds what it held. -/
def SameLines (s t : State) : Prop := ∀ q ln, t.l2Get q ln = s.l2Get q ln

/-- The line of `pa` has taken the bytes `d` at `pa` in the quad of the context, every other quad's copy has left, and every other line
is as it was in every quad. -/
def LineWritten (s t : State) (c : Ctx) (pa : Nat) (d : List Byte) (l : CLine) : Prop :=
  (∃ l', t.l2Get (quadOf (coreOf c)) (lineOf pa) = some l' ∧ l'.dirty = true ∧
    l'.bytes = l.bytes.take (pa % 64) ++ d ++ l.bytes.drop (pa % 64 + d.length)) ∧
  (∀ q, q ≠ quadOf (coreOf c) → t.l2Get q (lineOf pa) = none) ∧
  (∀ q ln, ln ≠ lineOf pa → t.l2Get q ln = s.l2Get q ln)

/-- A load has completed at 1 slot: `rd` holds `v`, no byte of memory or of any cached line has changed, and all else is as it was. -/
def Loaded (s t : State) (c : Ctx) (rd : Gpr) (v : Dword) : Prop :=
  WroteReg (s.ctx c) (t.ctx c) rd v ∧ (t.ctx c).flags = (s.ctx c).flags ∧ Sequenced (s.ctx c) (t.ctx c) 1 ∧
  SameRest (s.ctx c) (t.ctx c) ∧ SameOthers s t c ∧ SameOutsideCores s t ∧ SameLines s t

/-- A store has completed at 1 slot: the line holds the bytes `d` at `pa`, no byte of memory, no other line, no general register and no
flag has changed, and all else is as it was. -/
def Stored (s t : State) (c : Ctx) (pa : Nat) (d : List Byte) (l : CLine) : Prop :=
  SameRegs (s.ctx c) (t.ctx c) ∧ (t.ctx c).flags = (s.ctx c).flags ∧ Sequenced (s.ctx c) (t.ctx c) 1 ∧
  SameRest (s.ctx c) (t.ctx c) ∧ SameOthers s t c ∧ SameOutsideCores s t ∧ LineWritten s t c pa d l

/-! ### Terms of the spec -/

/-- A signed number fits `w` bits. -/
def Fits (w : Nat) (i : Int) : Bool := -(2 ^ (w - 1) : Int) ≤ i && i < 2 ^ (w - 1)

/-- The flags after an instruction with the S field `sf` (R143): N, Z, C and V as given with S = 1, SAT and, with S = 0, all kept. -/
def flagsWith (sf : Bool) (old : CFlags) (n z c v : Bool) : CFlags := if sf then ⟨n, z, c, v, old.sat⟩ else old

/-- Lane `i` of a P24 value as a signed audio sample (R128, R129). -/
def audioPart (a : Dword) (i : Nat) : Int := (a.extractLsb' (24 * i) 24).toInt

/-- Component `j` of lane `i` of a P24 value in the pixel form (R129). -/
def pixelPart (a : Dword) (i j : Nat) : Int := ((a.extractLsb' (24 * i + 8 * j) 8).toNat : Int)

/-- A result clamped to 24 signed bits (R129). -/
def clampAudio (v : Int) : Int := max (-8388608) (min 8388607 v)

/-- A result clamped to 0–255 (R129). -/
def clampPixel (v : Int) : Int := max 0 (min 255 v)

/-- A packed instruction has computed in the audio form: `f i` is the exact result of lane `i` (R129). -/
def PackedAudio (s t : State) (c : Ctx) (rd : Gpr) (cost : Nat) (f : Nat → Int) : Prop :=
  let old := (s.ctx c).flags
  ∃ v, Computed s t c rd v { old with sat := old.sat || decide (clampAudio (f 0) ≠ f 0 ∨ clampAudio (f 1) ≠ f 1) } cost ∧
    v.toNat < 2 ^ 48 ∧ audioPart v 0 = clampAudio (f 0) ∧ audioPart v 1 = clampAudio (f 1)

/-- A packed instruction has computed in the pixel form: `f i j` is the exact result of component `j` of lane `i` (R129). -/
def PackedPixel (s t : State) (c : Ctx) (rd : Gpr) (cost : Nat) (f : Nat → Nat → Int) : Prop :=
  let old := (s.ctx c).flags
  ∃ v, Computed s t c rd v { old with sat := old.sat || (List.range 2).any (fun i => (List.range 3).any (fun j => clampPixel (f i j) != f i j)) } cost ∧
    v.toNat < 2 ^ 48 ∧ ∀ i j, i < 2 → j < 3 → pixelPart v i j = clampPixel (f i j)

/-- A floating-point instruction has computed: `rd` holds the encoding, the sticky flags are added to fpcsr, the condition flags are kept,
and all else is as it was (R118, R150). -/
def FpComputed (s t : State) (c : Ctx) (rd : Gpr) (r : Nat × Nat) (cost : Nat) : Prop :=
  WroteReg (s.ctx c) (t.ctx c) rd (BitVec.ofNat 64 r.1) ∧ (t.ctx c).flags = (s.ctx c).flags ∧
  Sequenced (s.ctx c) (t.ctx c) cost ∧
  SameRest { s.ctx c with fpcsr := (s.ctx c).fpcsr ||| BitVec.ofNat 9 r.2 } (t.ctx c) ∧ SameOthers s t c ∧ SameMachine s t c

/-! ### Floating-point results -/

/-- The value of a finite reading. -/
def FVal.rat : FVal → ℚ
  | .fin n m e => (if n then -1 else 1) * m * 2 ^ e
  | _ => 0

/-- The sign of a reading that is no NaN: true for a negative one. -/
def FVal.sign : FVal → Bool
  | .nan _ => false
  | .inf n => n
  | .fin n _ _ => n

/-- A zero. -/
def FVal.isZero : FVal → Bool
  | .fin _ m _ => m = 0
  | _ => false

/-- An infinity. -/
def FVal.isInf : FVal → Bool
  | .inf _ => true
  | _ => false

/-- The first of two readings lies below the second. -/
def FVal.below : FVal → FVal → Prop
  | .inf a, .inf b => a = true ∧ b = false
  | .inf a, .fin _ _ _ => a = true
  | .fin _ _ _, .inf b => b = false
  | .fin n m e, .fin n' m' e' => (FVal.fin n m e).rat < (FVal.fin n' m' e').rat
  | _, _ => False

/-- `k` is `x` rounded to an integer in the mode RM (R118): to nearest with ties to even, towards zero, towards +∞ or towards −∞. -/
def RoundedInt (rm : Nat) (x : ℝ) (k : Int) : Prop :=
  match rm with
  | 0 => 2 * |x - k| ≤ 1 ∧ (2 * |x - k| = 1 → k % 2 = 0)
  | 1 => |x - k| < 1 ∧ |(k : ℝ)| ≤ |x| ∧ 0 ≤ x * k
  | 2 => x ≤ k ∧ k < x + 1
  | _ => k ≤ x ∧ x < k + 1

/-- A result and its sticky flags are those of a real `x`, not zero, rounded once to a format in the mode RM (R118, R130): the multiple of the
last place's value 2^p that the mode gives, NX where it is not `x`; UF where it is tiny as well; where it lies beyond the largest
number, OF and NX with the infinity or the largest number that the mode gives. Whether a value that is tiny only before rounding sets UF is
open. -/
def RoundedFp (dbl : Bool) (rm : Nat) (x : ℝ) (r : Nat × Nat) : Prop :=
  let f := ffmt dbl
  let emin : Int := 1 - f.bias
  let neg : Bool := decide (x < 0)
  ∃ k p : Int, emin - f.mb ≤ p ∧ |x| < 2 ^ (p + f.mb + 1) ∧ (p = emin - f.mb ∨ 2 ^ (p + f.mb) ≤ |x|) ∧ RoundedInt rm (x / 2 ^ p) k ∧
    let y : ℝ := k * 2 ^ p
    (2 ^ ((f.bias : Int) + 1) ≤ |y| →
      r = (if rm = 0 ∨ (rm = 2 ∧ neg = false) ∨ (rm = 3 ∧ neg = true) then f.infBits neg else f.maxBits neg, fpOF + fpNX)) ∧
    (|y| < 2 ^ ((f.bias : Int) + 1) → r.1 < 2 ^ (f.eb + f.mb + 1) ∧
      (∃ m e, f.decode (BitVec.ofNat 64 r.1) = .fin neg m e ∧ (m : ℝ) * 2 ^ e = |y|) ∧
      (y = x → r.2 = 0) ∧ (y ≠ x → r.2 = fpNX ∨ r.2 = fpNX + fpUF) ∧ (y ≠ x → 2 ^ emin ≤ |x| → r.2 = fpNX) ∧
      (y ≠ x → |y| < 2 ^ emin → r.2 = fpNX + fpUF))

/-- A result is a real `x` rounded once, or where `x` is 0 the zero of the sign `zneg`. -/
def FpReal (dbl : Bool) (rm : Nat) (x : ℝ) (zneg : Bool) (r : Nat × Nat) : Prop :=
  (x = 0 → r = ((ffmt dbl).zeroBits zneg, 0)) ∧ (x ≠ 0 → RoundedFp dbl rm x r)

/-- The canonical NaN of R130. -/
def canonicalNaN (dbl : Bool) : Nat := if dbl then 0x7FF8000000000000 else 0x7FC00000

/-- The canonical NaN, with NV where `nv` says so. -/
def FpNaN (dbl nv : Bool) (r : Nat × Nat) : Prop := r = (canonicalNaN dbl, if nv then fpNV else 0)

/-- The sum of two operands by IEEE 754 (R130, R150): an exact zero is negative only where both are negative zeros or, of operands that are not
zeros of one sign, in the mode towards −∞. -/
def SumOf (dbl : Bool) (rm : Nat) (a b : FVal) (r : Nat × Nat) : Prop :=
  let f := ffmt dbl
  if a.isNan || b.isNan then FpNaN dbl (a.signalling || b.signalling) r
  else if a.isInf && b.isInf && a.sign != b.sign then FpNaN dbl true r
  else if a.isInf then r = (f.infBits a.sign, 0)
  else if b.isInf then r = (f.infBits b.sign, 0)
  else FpReal dbl rm (a.rat + b.rat : ℚ) (if a.isZero && b.isZero && a.sign == b.sign then a.sign else rm = 3) r

/-- The product of two operands by IEEE 754 (R130, R150). -/
def ProductOf (dbl : Bool) (rm : Nat) (a b : FVal) (r : Nat × Nat) : Prop :=
  let sign := a.sign != b.sign
  if a.isNan || b.isNan then FpNaN dbl (a.signalling || b.signalling) r
  else if (a.isInf && b.isZero) || (a.isZero && b.isInf) then FpNaN dbl true r
  else if a.isInf || b.isInf then r = ((ffmt dbl).infBits sign, 0)
  else FpReal dbl rm (a.rat * b.rat : ℚ) sign r

/-- The quotient of two operands by IEEE 754 (R130, R150): a number by a zero is an infinity with DZ. -/
def QuotientOf (dbl : Bool) (rm : Nat) (a b : FVal) (r : Nat × Nat) : Prop :=
  let f := ffmt dbl
  let sign := a.sign != b.sign
  if a.isNan || b.isNan then FpNaN dbl (a.signalling || b.signalling) r
  else if (a.isInf && b.isInf) || (a.isZero && b.isZero) then FpNaN dbl true r
  else if a.isInf then r = (f.infBits sign, 0)
  else if b.isInf then r = (f.zeroBits sign, 0)
  else if b.isZero then r = (f.infBits sign, fpDZ)
  else FpReal dbl rm (a.rat / b.rat : ℚ) sign r

/-- The square root of an operand by IEEE 754 (R130, R150). -/
def RootOf (dbl : Bool) (rm : Nat) (a : FVal) (r : Nat × Nat) : Prop :=
  if a.isNan then FpNaN dbl a.signalling r
  else if a.sign && !a.isZero then FpNaN dbl true r
  else if a.isInf then r = ((ffmt dbl).infBits false, 0)
  else FpReal dbl rm (Real.sqrt a.rat) a.sign r

/-- The fused sum of d and the product of a and b by IEEE 754, rounded once (R130, R150). Whether an infinity times a zero with a quiet NaN as the
addend sets NV is open. -/
def FusedOf (dbl : Bool) (rm : Nat) (a b d : FVal) (r : Nat × Nat) : Prop :=
  let f := ffmt dbl
  let sign := a.sign != b.sign
  let invalid := (a.isInf && b.isZero) || (a.isZero && b.isInf)
  if a.isNan || b.isNan then FpNaN dbl (a.signalling || b.signalling || d.signalling) r
  else if d.isNan && invalid && !d.signalling then FpNaN dbl false r ∨ FpNaN dbl true r
  else if d.isNan then FpNaN dbl d.signalling r
  else if invalid || ((a.isInf || b.isInf) && d.isInf && d.sign != sign) then FpNaN dbl true r
  else if a.isInf || b.isInf then r = (f.infBits sign, 0)
  else if d.isInf then r = (f.infBits d.sign, 0)
  else FpReal dbl rm (a.rat * b.rat + d.rat : ℚ)
    (if (a.isZero || b.isZero) && d.isZero && sign == d.sign then d.sign else rm = 3) r

/-- The lesser of two operands, or the greater (R151): −0 lies below +0, and a NaN gives the canonical one. -/
def LesserOf (dbl greater : Bool) (u v : Dword) (r : Nat × Nat) : Prop :=
  let f := ffmt dbl
  let a := f.decode u
  let b := f.decode v
  let low (w : Dword) : Nat := w.toNat % 2 ^ (f.eb + f.mb + 1)
  if a.isNan || b.isNan then FpNaN dbl (a.signalling || b.signalling) r
  else
    let aFirst : Prop := a.below b ∨ (¬ b.below a ∧ a.sign = true)
    (aFirst → r = (if greater then low v else low u, 0)) ∧ (¬ aFirst → r = (if greater then low u else low v, 0))

/-- An operand with another sign (R151), or the canonical NaN; no flag. -/
def SignedAs (dbl : Bool) (u : Dword) (sign : Bool) (r : Nat × Nat) : Prop :=
  let f := ffmt dbl
  if (f.decode u).isNan then FpNaN dbl false r
  else r = (u.toNat % 2 ^ (f.eb + f.mb) + (if sign then 2 ^ (f.eb + f.mb) else 0), 0)

/-- A comparison's 1 or 0 (R151): 0 for a NaN, with NV for any of them or for signalling ones only. -/
def TestOf (anyNan : Bool) (a b : FVal) (p : Prop) (r : Nat × Nat) : Prop :=
  if a.isNan || b.isNan then r = (0, if anyNan || a.signalling || b.signalling then fpNV else 0)
  else (p → r = (1, 0)) ∧ (¬ p → r = (0, 0))

/-- A conversion of R152: from a 32- or 64-bit integer, to one, or between the formats. A value beyond an integer's range gives the nearest bound. -/
def ConvertedOf (src dst rm : Nat) (u : Dword) (r : Nat × Nat) : Prop :=
  let v : Int := match src with
    | 0 => (u.truncate 32).toInt
    | 1 => ((u.truncate 32).toNat : Int)
    | 2 => u.toInt
    | _ => (u.toNat : Int)
  let a := (ffmt (src = 5)).decode u
  if src < 4 then FpReal (dst = 5) rm v false r
  else if 4 ≤ dst then
    if a.isNan then FpNaN (dst = 5) a.signalling r
    else if a.isInf then r = ((ffmt (dst = 5)).infBits a.sign, 0)
    else FpReal (dst = 5) rm (a.rat : ℚ) a.sign r
  else
    let lo : Int := match dst with
      | 0 => -2 ^ 31
      | 2 => -2 ^ 63
      | _ => 0
    let hi : Int := match dst with
      | 0 => 2 ^ 31 - 1
      | 1 => 2 ^ 32 - 1
      | 2 => 2 ^ 63 - 1
      | _ => 2 ^ 64 - 1
    let bits (k : Int) : Nat := (BitVec.ofInt 64 k).toNat
    if a.isNan then r = (0, fpNV)
    else if a.isInf then r = (bits (if a.sign then lo else hi), fpNV)
    else ∃ k, RoundedInt rm (a.rat : ℚ) k ∧
      (k < lo → r = (bits lo, fpNV)) ∧ (hi < k → r = (bits hi, fpNV)) ∧
      (lo ≤ k → k ≤ hi → (((k : ℚ) = a.rat → r = (bits k, 0)) ∧ ((k : ℚ) ≠ a.rat → r = (bits k, fpNX))))

/-! ### Blocks and their registers -/

/-- An address of the event controller's block (R17). -/
def inEvc (a : Nat) : Prop := 0x10100000 ≤ a ∧ a < 0x10200000

/-- Of the registers, only those of `l` may have changed, and the event controller is as `s` with the occurrences of `ev` signalled
leaves it (R239): every other register of every block reads as before. -/
def RegsAndEvents (s t : State) (l ev : List Nat) : Prop :=
  (∀ a, ¬ inEvc a → a ∉ l → t.reg a = s.reg a) ∧
  let u := ev.foldl State.raise s
  t.evc = u.evc ∧ ∀ a, inEvc a → a ∉ l → t.reg a = u.reg a

/-- Only registers and the event controller have changed: no memory, no context, no cache, no engine. -/
def OnlyRegs (s t : State) : Prop := { t with dev := s.dev, evc := s.evc } = s

/-- Two slots of a wheel are at least 4 apart for every pair that local context `j` owns (R82); `lo` and `hi` hold the owners of its
sixteen slots, four bits each (R78). -/
def WellSpaced (lo hi : Word) (j : Nat) : Prop :=
  let owner (p : Nat) : Nat := (lo.toNat + hi.toNat * 2 ^ 32) / 16 ^ p % 16
  ∀ p q, p < 16 → q < 16 → p ≠ q → owner p = j → owner q = j → 4 ≤ (q + 16 - p) % 16

end Sys2Proof.Machine
end

