-- ==== Sys2Proof/Certificates/Slice0/Obligations.lean ====
section
/-! DEFINITION. The statements for the provers. -/

open Sys2Proof Sys2Proof.Machine

/-- ADD, SUB, ADDC, SUBC, ADDW and SUBW give the wrapped result, set N, Z, C and V from it where S = 1, and change nothing else
(R142, R143).

AND, OR, XOR, ANDN and ORN give the bitwise result, set N and Z from it and clear C and V where S = 1, and change nothing else
(R142, R143).

SLT, SLTU, the minima and maxima and CPICK choose by the order of their operands, or by the condition, read as signed or unsigned
numbers, and change nothing else (R134, R142).

SEXTB to ZEXTW extend the low bits, CLZ, CTZ and POPC count bits, and BSWAP reverses the bytes; nothing else changes (R142). -/
def Obligations.AluResultsAndFlags : Prop :=
  (∀ (s : State) (c : Ctx) (sf : Bool) (rd rs1 rs2 : Gpr), s.issues c .plain →
    let x := s.ctx c
    let a := x.rg rs1
    let b := x.rg rs2
    let k := bit x.flags.c
    let aw := a.truncate 32
    let bw := b.truncate 32
    (∃ t, exec (.add c sf rd rs1 rs2) s = .next t ∧
      Computed s t c rd (a + b) (flagsWith sf x.flags (a + b).msb (a + b == 0) (2 ^ 64 ≤ a.toNat + b.toNat)
        (!Fits 64 (a.toInt + b.toInt))) 1) ∧
    (∃ t, exec (.sub c sf rd rs1 rs2) s = .next t ∧
      Computed s t c rd (a - b) (flagsWith sf x.flags (a - b).msb (a - b == 0) (a.toNat < b.toNat)
        (!Fits 64 (a.toInt - b.toInt))) 1) ∧
    (∃ t, exec (.addc c sf rd rs1 rs2) s = .next t ∧
      let r := a + b + BitVec.ofNat 64 k
      Computed s t c rd r (flagsWith sf x.flags r.msb (r == 0) (2 ^ 64 ≤ a.toNat + b.toNat + k)
        (!Fits 64 (a.toInt + b.toInt + k))) 1) ∧
    (∃ t, exec (.subc c sf rd rs1 rs2) s = .next t ∧
      let r := a - b - BitVec.ofNat 64 k
      Computed s t c rd r (flagsWith sf x.flags r.msb (r == 0) (a.toNat < b.toNat + k)
        (!Fits 64 (a.toInt - b.toInt - k))) 1) ∧
    (∃ t, exec (.addw c sf rd rs1 rs2) s = .next t ∧
      Computed s t c rd ((aw + bw).signExtend 64) (flagsWith sf x.flags (aw + bw).msb (aw + bw == 0)
        (2 ^ 32 ≤ aw.toNat + bw.toNat) (!Fits 32 (aw.toInt + bw.toInt))) 1) ∧
    (∃ t, exec (.subw c sf rd rs1 rs2) s = .next t ∧
      Computed s t c rd ((aw - bw).signExtend 64) (flagsWith sf x.flags (aw - bw).msb (aw - bw == 0)
        (aw.toNat < bw.toNat) (!Fits 32 (aw.toInt - bw.toInt))) 1)) ∧
  (∀ (s : State) (c : Ctx) (sf : Bool) (rd rs1 rs2 : Gpr), s.issues c .plain →
    let x := s.ctx c
    let a := x.rg rs1
    let b := x.rg rs2
    let fl (r : Dword) := flagsWith sf x.flags r.msb (r == 0) false false
    (∃ t, exec (.andR c sf rd rs1 rs2) s = .next t ∧ Computed s t c rd (a &&& b) (fl (a &&& b)) 1) ∧
    (∃ t, exec (.orR c sf rd rs1 rs2) s = .next t ∧ Computed s t c rd (a ||| b) (fl (a ||| b)) 1) ∧
    (∃ t, exec (.xorR c sf rd rs1 rs2) s = .next t ∧ Computed s t c rd (a ^^^ b) (fl (a ^^^ b)) 1) ∧
    (∃ t, exec (.andn c sf rd rs1 rs2) s = .next t ∧ Computed s t c rd (a &&& ~~~b) (fl (a &&& ~~~b)) 1) ∧
    (∃ t, exec (.orn c sf rd rs1 rs2) s = .next t ∧ Computed s t c rd (a ||| ~~~b) (fl (a ||| ~~~b)) 1)) ∧
  (∀ (s : State) (c : Ctx) (cond : BitVec 4) (rd rs1 rs2 : Gpr), s.issues c .plain →
    let x := s.ctx c
    let a := x.rg rs1
    let b := x.rg rs2
    let f := x.flags
    let taken : Bool := match cond.toNat with
      | 0 => f.z = true | 1 => f.z = false | 2 => f.c = true | 3 => f.c = false
      | 4 => f.c = true ∨ f.z = true | 5 => f.c = false ∧ f.z = false
      | 6 => f.n ≠ f.v | 7 => f.n = f.v | 8 => f.z = true ∨ f.n ≠ f.v | 9 => f.z = false ∧ f.n = f.v
      | 10 => f.n = true | 11 => f.n = false | 12 => f.v = true | 13 => f.v = false | 14 => f.sat = true | _ => true
    (∃ t, exec (.slt c rd rs1 rs2) s = .next t ∧ Computed s t c rd (if a.toInt < b.toInt then 1 else 0) f 1) ∧
    (∃ t, exec (.sltu c rd rs1 rs2) s = .next t ∧ Computed s t c rd (if a.toNat < b.toNat then 1 else 0) f 1) ∧
    (∃ t v, exec (.minS c rd rs1 rs2) s = .next t ∧ Computed s t c rd v f 1 ∧ v.toInt = min a.toInt b.toInt) ∧
    (∃ t v, exec (.maxS c rd rs1 rs2) s = .next t ∧ Computed s t c rd v f 1 ∧ v.toInt = max a.toInt b.toInt) ∧
    (∃ t v, exec (.minu c rd rs1 rs2) s = .next t ∧ Computed s t c rd v f 1 ∧ v.toNat = min a.toNat b.toNat) ∧
    (∃ t v, exec (.maxu c rd rs1 rs2) s = .next t ∧ Computed s t c rd v f 1 ∧ v.toNat = max a.toNat b.toNat) ∧
    (∃ t, exec (.cpick c cond rd rs1 rs2) s = .next t ∧ Computed s t c rd (if taken then a else b) f 1)) ∧
  (∀ (s : State) (c : Ctx) (rd rs1 : Gpr), s.issues c .plain →
    let x := s.ctx c
    let a := x.rg rs1
    let f := x.flags
    (∃ t, exec (.sextb c rd rs1) s = .next t ∧ Computed s t c rd ((a.truncate 8).signExtend 64) f 1) ∧
    (∃ t, exec (.sexth c rd rs1) s = .next t ∧ Computed s t c rd ((a.truncate 16).signExtend 64) f 1) ∧
    (∃ t, exec (.sextw c rd rs1) s = .next t ∧ Computed s t c rd ((a.truncate 32).signExtend 64) f 1) ∧
    (∃ t, exec (.zextb c rd rs1) s = .next t ∧ Computed s t c rd (a &&& 0xFF) f 1) ∧
    (∃ t, exec (.zexth c rd rs1) s = .next t ∧ Computed s t c rd (a &&& 0xFFFF) f 1) ∧
    (∃ t, exec (.zextw c rd rs1) s = .next t ∧ Computed s t c rd (a &&& 0xFFFFFFFF) f 1) ∧
    (∃ t v, exec (.clz c rd rs1) s = .next t ∧ Computed s t c rd v f 1 ∧ v.toNat ≤ 64 ∧ a.toNat < 2 ^ (64 - v.toNat) ∧
      (a ≠ 0 → 2 ^ (63 - v.toNat) ≤ a.toNat)) ∧
    (∃ t v, exec (.ctz c rd rs1) s = .next t ∧ Computed s t c rd v f 1 ∧ v.toNat ≤ 64 ∧ (a = 0 → v.toNat = 64) ∧
      (a ≠ 0 → a.getLsbD v.toNat = true) ∧ ∀ i, i < v.toNat → a.getLsbD i = false) ∧
    (∃ t v, exec (.popc c rd rs1) s = .next t ∧ Computed s t c rd v f 1 ∧
      v.toNat = (List.range 64).countP (fun i => a.getLsbD i)) ∧
    (∃ t v, exec (.bswap c rd rs1) s = .next t ∧ Computed s t c rd v f 1 ∧
      ∀ i j, i < 8 → j < 8 → v.getLsbD (8 * i + j) = a.getLsbD (8 * (7 - i) + j)))

/-- The immediate instructions give their result, write no flags and change nothing else (R133, R144).

The shifts and the rotation move by the immediate, or by the low bits of g[rs2], and change nothing else (R146).

The multiplications give the half of the product that they name at their slots, and change nothing else (R145).

The divisions truncate towards zero, give 0 and the dividend for a zero divisor, the nearest quotient where the exact one cannot be
represented, take the same slots whatever their operands, and change nothing else (R145). -/
def Obligations.ImmediateShiftAndMultiplyResults : Prop :=
  (∀ (s : State) (c : Ctx) (rd rs1 : Gpr) (imm : BitVec 16) (imm21 : BitVec 21), s.issues c .plain →
    let x := s.ctx c
    let a := x.rg rs1
    let f := x.flags
    let sx := imm.signExtend 64
    let zx := imm.zeroExtend 64
    let upper := imm21.signExtend 64 * 2 ^ 11
    (∃ t, exec (.addi c rd rs1 imm) s = .next t ∧ Computed s t c rd (a + sx) f 1) ∧
    (∃ t, exec (.andi c rd rs1 imm) s = .next t ∧ Computed s t c rd (a &&& zx) f 1) ∧
    (∃ t, exec (.ori c rd rs1 imm) s = .next t ∧ Computed s t c rd (a ||| zx) f 1) ∧
    (∃ t, exec (.xori c rd rs1 imm) s = .next t ∧ Computed s t c rd (a ^^^ zx) f 1) ∧
    (∃ t, exec (.slti c rd rs1 imm) s = .next t ∧ Computed s t c rd (if a.toInt < sx.toInt then 1 else 0) f 1) ∧
    (∃ t, exec (.sltiu c rd rs1 imm) s = .next t ∧ Computed s t c rd (if a.toNat < sx.toNat then 1 else 0) f 1) ∧
    (∃ t, exec (.lui c rd imm21) s = .next t ∧ Computed s t c rd upper f 1) ∧
    (∃ t, exec (.auipc c rd imm21) s = .next t ∧ Computed s t c rd (x.pc.zeroExtend 64 + upper) f 1)) ∧
  (∀ (s : State) (c : Ctx) (rd rs1 : Gpr) (m : Amt), s.issues c .plain →
    let x := s.ctx c
    let a := x.rg rs1
    let w : Word := a.truncate 32
    let f := x.flags
    let amount := match m with
      | .imm k => k.toNat
      | .reg r => (x.rg r).toNat
    let n := amount % 64
    let k := amount % 32
    (∃ t, exec (.sll c rd rs1 m) s = .next t ∧ Computed s t c rd (a <<< n) f 1) ∧
    (∃ t v, exec (.srl c rd rs1 m) s = .next t ∧ Computed s t c rd v f 1 ∧ v.toNat = a.toNat / 2 ^ n) ∧
    (∃ t v, exec (.sra c rd rs1 m) s = .next t ∧ Computed s t c rd v f 1 ∧ v.toInt = a.toInt / 2 ^ n) ∧
    (∃ t v, exec (.ror c rd rs1 m) s = .next t ∧ Computed s t c rd v f 1 ∧
      ∀ i, i < 64 → v.getLsbD i = a.getLsbD ((i + n) % 64)) ∧
    (wfAmtW m = true → ∃ t, exec (.sllw c rd rs1 m) s = .next t ∧ Computed s t c rd ((w <<< k).signExtend 64) f 1) ∧
    (wfAmtW m = true → ∃ t, exec (.srlw c rd rs1 m) s = .next t ∧ Computed s t c rd ((w >>> k).signExtend 64) f 1) ∧
    (wfAmtW m = true → ∃ t, exec (.sraw c rd rs1 m) s = .next t ∧ Computed s t c rd ((w.sshiftRight k).signExtend 64) f 1)) ∧
  (∀ (s : State) (c : Ctx) (rd rs1 rs2 : Gpr), s.issues c .plain →
    let x := s.ctx c
    let a := x.rg rs1
    let b := x.rg rs2
    let f := x.flags
    (∃ t, exec (.mulLo c rd rs1 rs2) s = .next t ∧ Computed s t c rd (a * b) f 2) ∧
    (∃ t v, exec (.mulHs c rd rs1 rs2) s = .next t ∧ Computed s t c rd v f 3 ∧
      v.toInt * 2 ^ 64 + (a * b).toNat = a.toInt * b.toInt) ∧
    (∃ t v, exec (.mulHu c rd rs1 rs2) s = .next t ∧ Computed s t c rd v f 3 ∧
      v.toNat * 2 ^ 64 + (a * b).toNat = a.toNat * b.toNat) ∧
    (∃ t v, exec (.mulHx c rd rs1 rs2) s = .next t ∧ Computed s t c rd v f 3 ∧
      v.toInt * 2 ^ 64 + (a * b).toNat = a.toInt * (b.toNat : Int)) ∧
    (∃ t, exec (.mulW c rd rs1 rs2) s = .next t ∧ Computed s t c rd ((a.truncate 32 * b.truncate 32).signExtend 64) f 2)) ∧
  (∀ (s : State) (c : Ctx) (rd rs1 rs2 : Gpr), s.issues c .plain →
    let x := s.ctx c
    let a := x.rg rs1
    let b := x.rg rs2
    let aw : Word := a.truncate 32
    let bw : Word := b.truncate 32
    let f := x.flags
    let quo (w : Nat) (p q : Int) : Int := if q = 0 then 0 else if p = -2 ^ (w - 1) ∧ q = -1 then 2 ^ (w - 1) - 1 else p.tdiv q
    let rmd (w : Nat) (p q : Int) : Int := if q = 0 then p else if p = -2 ^ (w - 1) ∧ q = -1 then 0 else p.tmod q
    (∃ t v, exec (.quoS c rd rs1 rs2) s = .next t ∧ Computed s t c rd v f 18 ∧ v.toInt = quo 64 a.toInt b.toInt) ∧
    (∃ t v, exec (.quoU c rd rs1 rs2) s = .next t ∧ Computed s t c rd v f 18 ∧ v.toNat = a.toNat / b.toNat) ∧
    (∃ t v, exec (.rmdS c rd rs1 rs2) s = .next t ∧ Computed s t c rd v f 18 ∧ v.toInt = rmd 64 a.toInt b.toInt) ∧
    (∃ t v, exec (.rmdU c rd rs1 rs2) s = .next t ∧ Computed s t c rd v f 18 ∧ v.toNat = a.toNat % b.toNat) ∧
    (∃ t v, exec (.quoSw c rd rs1 rs2) s = .next t ∧ Computed s t c rd v f 10 ∧ v.toInt = quo 32 aw.toInt bw.toInt) ∧
    (∃ t, exec (.quoUw c rd rs1 rs2) s = .next t ∧ Computed s t c rd ((aw / bw).signExtend 64) f 10) ∧
    (∃ t v, exec (.rmdSw c rd rs1 rs2) s = .next t ∧ Computed s t c rd v f 10 ∧ v.toInt = rmd 32 aw.toInt bw.toInt) ∧
    (∃ t, exec (.rmdUw c rd rs1 rs2) s = .next t ∧ Computed s t c rd ((aw % bw).signExtend 64) f 10))

/-- The packed 24-bit instructions act on each lane, or on each component in the pixel form, clamp, set SAT where they clamped, and
change nothing else (R129, R149). -/
def Obligations.PackedResultsAndSaturation : Prop :=
  ∀ (s : State) (c : Ctx) (px : Bool) (rd rs1 rs2 : Gpr), s.issues c .plain →
    let a := (s.ctx c).rg rs1
    let b := (s.ctx c).rg rs2
    let f := (s.ctx c).flags
    let x := audioPart a
    let y := audioPart b
    let p := pixelPart a
    let q := pixelPart b
    let n := min (b.toNat % 32) 23
    (∃ t, exec (.padd c false rd rs1 rs2) s = .next t ∧ PackedAudio s t c rd 1 (fun i => x i + y i)) ∧
    (∃ t, exec (.padd c true rd rs1 rs2) s = .next t ∧ PackedPixel s t c rd 1 (fun i j => p i j + q i j)) ∧
    (∃ t, exec (.psub c false rd rs1 rs2) s = .next t ∧ PackedAudio s t c rd 1 (fun i => x i - y i)) ∧
    (∃ t, exec (.psub c true rd rs1 rs2) s = .next t ∧ PackedPixel s t c rd 1 (fun i j => p i j - q i j)) ∧
    (∃ t, exec (.pmul c false rd rs1 rs2) s = .next t ∧ PackedAudio s t c rd 2 (fun i => (x i * y i + 2 ^ 22) / 2 ^ 23)) ∧
    (∃ t, exec (.pmul c true rd rs1 rs2) s = .next t ∧
      PackedPixel s t c rd 2 (fun i j => (p i j * q i j + 128 + (p i j * q i j + 128) / 2 ^ 8) / 2 ^ 8)) ∧
    (∃ t, exec (.pmin c false rd rs1 rs2) s = .next t ∧ PackedAudio s t c rd 1 (fun i => min (x i) (y i))) ∧
    (∃ t, exec (.pmin c true rd rs1 rs2) s = .next t ∧ PackedPixel s t c rd 1 (fun i j => min (p i j) (q i j))) ∧
    (∃ t, exec (.pmax c false rd rs1 rs2) s = .next t ∧ PackedAudio s t c rd 1 (fun i => max (x i) (y i))) ∧
    (∃ t, exec (.pmax c true rd rs1 rs2) s = .next t ∧ PackedPixel s t c rd 1 (fun i j => max (p i j) (q i j))) ∧
    (∃ t, exec (.pavg c false rd rs1 rs2) s = .next t ∧ PackedAudio s t c rd 1 (fun i => (x i + y i + 1) / 2)) ∧
    (∃ t, exec (.pavg c true rd rs1 rs2) s = .next t ∧ PackedPixel s t c rd 1 (fun i j => (p i j + q i j + 1) / 2)) ∧
    (∃ t, exec (.pabs c rd rs1) s = .next t ∧ PackedAudio s t c rd 1 (fun i => |x i|)) ∧
    (∃ t, exec (.pneg c rd rs1) s = .next t ∧ PackedAudio s t c rd 1 (fun i => -x i)) ∧
    (∃ t, exec (.psra c rd rs1 rs2) s = .next t ∧ PackedAudio s t c rd 1 (fun i => x i / 2 ^ n)) ∧
    (∃ t, exec (.psls c rd rs1 rs2) s = .next t ∧ PackedAudio s t c rd 1 (fun i => x i * 2 ^ n)) ∧
    (∃ t v, exec (.pswap c px rd rs1) s = .next t ∧ Computed s t c rd v f 1 ∧
      v.toNat < 2 ^ 48 ∧ audioPart v 0 = x 1 ∧ audioPart v 1 = x 0) ∧
    (∃ t v, exec (.pdup c px rd rs1) s = .next t ∧ Computed s t c rd v f 1 ∧
      v.toNat < 2 ^ 48 ∧ audioPart v 0 = x 0 ∧ audioPart v 1 = x 0) ∧
    (∃ t, exec (.x4p c rd rs1) s = .next t ∧
      Computed s t c rd (a &&& 0xFFFFFF ||| (a >>> 32 &&& 0xFFFFFF) <<< 24) f 1) ∧
    (∃ t v, exec (.p4x c px rd rs1) s = .next t ∧ Computed s t c rd v f 1 ∧
      (v.truncate 32).toInt = (if px then (a.toNat % 2 ^ 24 : Int) else x 0) ∧
      ((v >>> 32).truncate 32).toInt = (if px then (a.toNat / 2 ^ 24 % 2 ^ 24 : Int) else x 1))

/-- The floating-point instructions complete at their slots, give the result that IEEE 754 gives for their operands, rounded once under RM, add
its exceptions to fpcsr's sticky flags, and change nothing else: sums, products, quotients, square roots and fused sums of real numbers, the
special values of R151, and the conversions of R152 (R118, R130, R150, R151, R152).

FCMP writes N, Z, C and V as R151's table states and NV only for a signalling NaN, and FCLASS writes the property mask of R151;
neither changes anything else.

A NaN operand gives the canonical NaN from every arithmetic instruction, minimum, maximum, sign operation and conversion between
the formats, whatever the other operands and the rounding mode (R130, R151).

The rounding of an exact quotient to an integer follows the mode RM of R118: to nearest with ties to even, towards zero, towards +∞
or towards −∞; it says whether it was inexact. -/
def Obligations.FloatingPointResults : Prop :=
  (∀ (s : State) (c : Ctx) (dbl : Bool) (rd rs1 rs2 : Gpr) (src dst : BitVec 3), s.issues c .plain →
    let x := s.ctx c
    let m := ffmt dbl
    let rm := x.fpcsr.toNat % 4
    let a := m.decode (x.rg rs1)
    let b := m.decode (x.rg rs2)
    let d := m.decode (x.rg rd)
    let gives (i : Instr) (r : Nat × Nat) (cost : Nat) (rule : Nat × Nat → Prop) : Prop :=
      ∃ t, exec i s = .next t ∧ FpComputed s t c rd r cost ∧ rule r
    gives (.fadd c dbl rd rs1 rs2) (m.add rm a b) 2 (SumOf dbl rm a b) ∧
    gives (.fsub c dbl rd rs1 rs2) (m.add rm a b.neg) 2 (SumOf dbl rm a b.neg) ∧
    gives (.fmul c dbl rd rs1 rs2) (m.mul rm a b) (if dbl then 3 else 2) (ProductOf dbl rm a b) ∧
    gives (.fdiv c dbl rd rs1 rs2) (m.div rm a b) (if dbl then 15 else 8) (QuotientOf dbl rm a b) ∧
    gives (.fsqrt c dbl rd rs1) (m.sqrt rm a) (if dbl then 16 else 9) (RootOf dbl rm a) ∧
    gives (.fmac c dbl rd rs1 rs2) (m.fma rm a b d) (if dbl then 4 else 3) (FusedOf dbl rm a b d) ∧
    gives (.fmin c dbl rd rs1 rs2) (m.minMax false (x.rg rs1) (x.rg rs2)) 1 (LesserOf dbl false (x.rg rs1) (x.rg rs2)) ∧
    gives (.fmax c dbl rd rs1 rs2) (m.minMax true (x.rg rs1) (x.rg rs2)) 1 (LesserOf dbl true (x.rg rs1) (x.rg rs2)) ∧
    gives (.fneg c dbl rd rs1) (m.signOp (fun n => !n) (x.rg rs1)) 1 (SignedAs dbl (x.rg rs1) (!m.signBit (x.rg rs1))) ∧
    gives (.fabs c dbl rd rs1) (m.signOp (fun _ => false) (x.rg rs1)) 1 (SignedAs dbl (x.rg rs1) false) ∧
    gives (.feq c dbl rd rs1 rs2) (fpTest false a b (fun o => o = .eq)) 1 (TestOf false a b (¬ a.below b ∧ ¬ b.below a)) ∧
    gives (.flt c dbl rd rs1 rs2) (fpTest true a b (fun o => o = .lt)) 1 (TestOf true a b (a.below b)) ∧
    gives (.fle c dbl rd rs1 rs2) (fpTest true a b (fun o => o ≠ .gt)) 1 (TestOf true a b (¬ b.below a)) ∧
    (Hymota.convertible src dst = true →
      gives (.cvt c src dst rd rs1) (convert src.toNat dst.toNat rm (x.rg rs1)) 2 (ConvertedOf src.toNat dst.toNat rm (x.rg rs1)))) ∧
  (∀ (s : State) (c : Ctx) (dbl : Bool) (rd rs1 rs2 : Gpr), s.issues c .plain →
    let x := s.ctx c
    let m := ffmt dbl
    let a := m.decode (x.rg rs1)
    let b := m.decode (x.rg rs2)
    let snan (v : FVal) : Bool := v = .nan true
    (∃ t, exec (.fcmp c dbl rs1 rs2) s = .next t ∧ SameRegs x (t.ctx c) ∧
      (a.isNan = true ∨ b.isNan = true → (t.ctx c).flags = ⟨false, false, false, true, x.flags.sat⟩) ∧
      (a.isNan = false → b.isNan = false →
        (a.below b → (t.ctx c).flags = ⟨true, false, true, false, x.flags.sat⟩) ∧
        (¬ a.below b → ¬ b.below a → (t.ctx c).flags = ⟨false, true, false, false, x.flags.sat⟩) ∧
        (b.below a → (t.ctx c).flags = ⟨false, false, false, false, x.flags.sat⟩)) ∧
      Sequenced x (t.ctx c) 1 ∧
      SameRest { x with fpcsr := if snan a || snan b then x.fpcsr ||| 0x100 else x.fpcsr } (t.ctx c) ∧
      SameOthers s t c ∧ SameMachine s t c) ∧
    (∃ t, exec (.fclass c dbl rd rs1) s = .next t ∧ Computed s t c rd
      (let w := m.eb + m.mb
       let v := (x.rg rs1).toNat % 2 ^ (w + 1)
       let ex := v / 2 ^ m.mb % 2 ^ m.eb
       let fr := v % 2 ^ m.mb
       BitVec.ofNat 64 ((if 2 ^ w ≤ v then 64 else 0) +
         (if ex = 2 ^ m.eb - 1 then (if fr = 0 then 4 else if fr < 2 ^ (m.mb - 1) then 3 else 1)
          else if ex = 0 then (if fr = 0 then 8 else 16) else 32))) x.flags 1)) ∧
  (∀ (dbl : Bool) (rm : Nat) (a b d : FVal) (u v : Dword) (g : Bool → Bool) (src : BitVec 3), a.isNan = true ∨ b.isNan = true →
    let m := ffmt dbl
    let canon := if dbl then 0x7FF8000000000000 else 0x7FC00000
    (m.add rm a b).1 = canon ∧ (m.mul rm a b).1 = canon ∧ (m.div rm a b).1 = canon ∧ (m.fma rm a b d).1 = canon ∧
    (a.isNan = true → ∀ x y, (m.fma rm x y a).1 = canon) ∧
    (a.isNan = true → (m.sqrt rm a).1 = canon) ∧
    ((m.decode u).isNan = true ∨ (m.decode v).isNan = true → ∀ big, (m.minMax big u v).1 = canon) ∧
    ((m.decode u).isNan = true → (m.signOp g u).1 = canon ∧ (m.signOp g u).2 = 0) ∧
    (4 ≤ src.toNat → ((ffmt (src.toNat = 5)).decode u).isNan = true → (convert src.toNat (if dbl then 5 else 4) rm u).1 = canon)) ∧
  (∀ (rm : Nat) (neg : Bool) (n d : Nat) (e : Int), rm < 4 → 0 < d →
    let num := n * 2 ^ e.toNat
    let den := d * 2 ^ (-e).toNat
    let r := roundInt rm neg n d e
    let v : Int := if neg then -(r.1 : Int) else r.1
    let exact : Int := if neg then -(num : Int) else num
    r.2 = decide (num % den ≠ 0) ∧
    (rm = 0 → 2 * |v * den - exact| ≤ den ∧ (2 * |v * den - exact| = den → v % 2 = 0)) ∧
    (rm = 1 → v = exact.tdiv den) ∧
    (rm = 2 → exact ≤ v * den ∧ v * den < exact + den) ∧
    (rm = 3 → v * den ≤ exact ∧ exact < v * den + den))

/-- A conditional branch that issues is taken exactly when its comparison or condition holds, costs 1 slot, or 3 where its prediction (a
target at or below its own address is predicted taken) was wrong, and an unconditional one always goes to its target at 1 slot; the delay
slot comes first and is annulled only by an untaken branch with A = 1; nothing else changes (R85 to R87, R91, R110, R133, R134, R153).

JR goes to bits [47:2] of its register after the delay slot, at 1 slot on a hit of the target buffer with that target and 3 otherwise,
and leaves the target in the buffer (R85, R88 to R91, R111, R153).

CALL and CALLR push their address + 8 below rsp where the stack has room and the push is made, leave the pushed address in the latch
and go to their target after the delay slot; with no room they raise the return-stack overflow and push nothing (R111, R124, R153).

RET goes to the latch and pops, waits for the refill of an empty latch, and raises the underflow on an empty stack; the refill loads the
latch from the entry at rsp (R124, R125, R153). -/
def Obligations.BranchesJumpsCallsAndReturns : Prop :=
  (∀ (s : State) (c : Ctx) (an : Bool) (rs1 rs2 : Gpr) (disp : BitVec 15) (cond : BitVec 4) (disp21 : BitVec 21) (disp26 : BitVec 26),
    s.issues c .branch →
    let x := s.ctx c
    let a := x.rg rs1
    let b := x.rg rs2
    let f := x.flags
    let target := x.pc + disp.signExtend 48 * 4
    let target21 := x.pc + disp21.signExtend 48 * 4
    let target26 := x.pc + disp26.signExtend 48 * 4
    let price (dest : VAddr) (taken : Bool) : Nat := if decide (dest.toNat ≤ x.pc.toNat) = taken then 1 else 3
    let holds : Bool := match cond.toNat with
      | 0 => f.z = true | 1 => f.z = false | 2 => f.c = true | 3 => f.c = false
      | 4 => f.c = true ∨ f.z = true | 5 => f.c = false ∧ f.z = false
      | 6 => f.n ≠ f.v | 7 => f.n = f.v | 8 => f.z = true ∨ f.n ≠ f.v | 9 => f.z = false ∧ f.n = f.v
      | 10 => f.n = true | 11 => f.n = false | 12 => f.v = true | 13 => f.v = false | 14 => f.sat = true | _ => true
    (∃ t, exec (.beq c an rs1 rs2 disp) s = .next t ∧ Branched s t c (a == b) an target (price target (a == b))) ∧
    (∃ t, exec (.bne c an rs1 rs2 disp) s = .next t ∧ Branched s t c (a != b) an target (price target (a != b))) ∧
    (∃ t, exec (.blt c an rs1 rs2 disp) s = .next t ∧
      Branched s t c (a.toInt < b.toInt) an target (price target (a.toInt < b.toInt))) ∧
    (∃ t, exec (.bge c an rs1 rs2 disp) s = .next t ∧
      Branched s t c (b.toInt ≤ a.toInt) an target (price target (b.toInt ≤ a.toInt))) ∧
    (∃ t, exec (.bltu c an rs1 rs2 disp) s = .next t ∧
      Branched s t c (a.toNat < b.toNat) an target (price target (a.toNat < b.toNat))) ∧
    (∃ t, exec (.bgeu c an rs1 rs2 disp) s = .next t ∧
      Branched s t c (b.toNat ≤ a.toNat) an target (price target (b.toNat ≤ a.toNat))) ∧
    (∃ t, exec (.bf c cond an disp21) s = .next t ∧
      Branched s t c holds an target21 (if cond = 15 then 1 else price target21 holds)) ∧
    (∃ t, exec (.jump c disp26) s = .next t ∧ Branched s t c true false target26 1)) ∧
  (∀ (s : State) (c : Ctx) (rs1 : Gpr), s.issues c .branch →
    let x := s.ctx c
    let target : VAddr := ((x.rg rs1).extractLsb' 2 46).zeroExtend 48 <<< 2
    ∃ t cost, exec (.jr c rs1) s = .next t ∧
      SameRegs x (t.ctx c) ∧ (t.ctx c).flags = x.flags ∧ Transferred x (t.ctx c) cost target false ∧
      (TargetHit s c target → cost = 1) ∧ (¬TargetHit s c target → cost = 3) ∧
      SameRest x (t.ctx c) ∧ SameOthers s t c ∧ SameMachine (s.withTbuf (coreOf c) (tbufAfter s c target)) t c) ∧
  (∀ (s : State) (c : Ctx) (rs1 : Gpr) (disp : BitVec 26), s.issues c .branch →
    let x := s.ctx c
    let target : VAddr := ((x.rg rs1).extractLsb' 2 46).zeroExtend 48 <<< 2
    let push (u : State) := u.portWrite c x.status.ring .push (x.rsp - 8) (leBytes 8 (x.pc + 8).toNat)
    (x.rsbase.toNat + 8 ≤ x.rsp.toNat → ∀ u, push (s.fetched c) = .ok () u →
      ∃ t, exec (.call c disp) s = .next t ∧ t = u.setCtx c (t.ctx c) ∧
        SameRegs (u.ctx c) (t.ctx c) ∧ (t.ctx c).flags = (u.ctx c).flags ∧
        Transferred (u.ctx c) (t.ctx c) 1 (x.pc + disp.signExtend 48 * 4) false ∧
        SameRest { u.ctx c with rsp := (u.ctx c).rsp - 8, latch := some (x.pc + 8) } (t.ctx c)) ∧
    (x.rsbase.toNat + 8 ≤ x.rsp.toNat → ∀ u, push ((s.fetched c).tbLookup c) = .ok () u →
      ∃ t cost, exec (.callr c rs1) s = .next t ∧ t = (u.withTbuf (coreOf c) (tbufAfter u c target)).setCtx c (t.ctx c) ∧
        SameRegs (u.ctx c) (t.ctx c) ∧ (t.ctx c).flags = (u.ctx c).flags ∧
        Transferred (u.ctx c) (t.ctx c) cost target false ∧
        (TargetHit s c target → cost = 1) ∧ (¬TargetHit s c target → cost = 3) ∧
        SameRest { u.ctx c with rsp := (u.ctx c).rsp - 8, latch := some (x.pc + 8) } (t.ctx c)) ∧
    (x.rsp.toNat < x.rsbase.toNat + 8 →
      exec (.call c disp) s = .next ((s.fetched c).takeSync c { code := 0xA, addr := 0 }) ∧
      exec (.callr c rs1) s = .next (((s.fetched c).tbLookup c).takeSync c { code := 0xA, addr := 0 }))) ∧
  (∀ (s : State) (c : Ctx),
    let x := s.ctx c
    (s.issues c .branch → ∀ latched, x.latch = some latched → x.rsp.toNat < x.rstop.toNat →
      let target : VAddr := latched &&& ~~~3
      ∃ t cost, exec (.ret c) s = .next t ∧
        SameRegs x (t.ctx c) ∧ (t.ctx c).flags = x.flags ∧ Transferred x (t.ctx c) cost target false ∧
        (TargetHit s c target → cost = 1) ∧ (¬TargetHit s c target → cost = 3) ∧
        SameRest { x with rsp := x.rsp + 8, latch := none } (t.ctx c) ∧
        SameOthers s t c ∧ SameMachine (s.withTbuf (coreOf c) (tbufAfter s c target)) t c) ∧
    (s.issues c .branch → x.latch = none → x.rsp.toNat < x.rstop.toNat →
      ∃ t, exec (.ret c) s = .next t ∧ t.ctx c = { x with wait := .latch } ∧ SameOthers s t c ∧ SameMachine (s.tbLookup c) t c) ∧
    (s.issues c .branch → x.rstop.toNat ≤ x.rsp.toNat →
      exec (.ret c) s = .next (((s.fetched c).tbLookup c).takeSync c { code := 0xB, addr := 0 })) ∧
    (x.run = .active → x.entry = none → x.latch = none → (x.wait = .none ∨ x.wait = .latch) → x.rsp.toNat < x.rstop.toNat →
      ∀ b u, (s.setCtx c { x with wait := .none }).readNow c x.status.ring .latch x.rsp 8 = .ok b u →
      ∃ t, exec (.latchRefill c) s = .next t ∧
        t = u.setCtx c { u.ctx c with latch := some (BitVec.ofNat 48 (leNat b)) }))

/-- LOOP loads lc from its register, ls with its own address + 4 and le with its own address + 4 × len, and completes at 1 slot; where it
stands at le itself, the loop decision is made on the old values first, which is the model’s choice (log 75) (R133, R154).

Every branch, jump, call, return, GATE and ERET in a delay slot raises the delay-slot-transfer exception in place of completing; every
branch, jump, call and return at le with lc ≠ 0, and every other instruction in a delay slot at le that its context may execute, the loop-end
exception. An indirect transfer has looked its target up (R85, R89, R121, R178).

An annulled delay slot takes one grant and has no effect, whatever instruction it holds: it moves the pair on and counts nothing (R86, R110,
R113, R121). -/
def Obligations.LoopsAndDelaySlots : Prop :=
  (∀ (s : State) (c : Ctx) (rs1 : Gpr) (len : BitVec 16), s.issues c .plain →
    let x := s.ctx c
    ∃ t, exec (.hwLoop c rs1 len) s = .next t ∧
      let y := t.ctx c
      y.lc = x.rg rs1 ∧ y.ls = x.pc + 4 ∧ y.le = x.pc + BitVec.ofNat 48 (4 * len.toNat) ∧
      (y.pc, y.npc) = (x.follows.1, x.follows.2.1) ∧ y.icount = x.icount + 1 ∧ y.slots = x.slots + 1 ∧
      y.slot = false ∧ y.annul = false ∧ y.shadows = x.shadows.map Shadow.tick ∧
      SameRegs x y ∧ y.flags = x.flags ∧ SameRest { x with ls := y.ls, le := y.le } y ∧ SameOthers s t c ∧ SameMachine s t c) ∧
  (∀ (s : State) (c : Ctx) (i : Instr), instrContext i = some c → i.wf = true → s.reaches c → s.permits c i →
    let x := s.ctx c
    let u : State := match i with
      | .jr _ _ => (s.fetched c).tbLookup c
      | .callr _ _ => (s.fetched c).tbLookup c
      | .ret _ => (s.fetched c).tbLookup c
      | _ => s.fetched c
    let enters : Bool := match i with
      | .gate _ _ => true
      | .eret _ => true
      | _ => false
    (x.slot = true → isTransfer i = true → exec i s = .next (u.takeSync c { code := 8, addr := 0 })) ∧
    (x.slot = false → x.pc = x.le → x.lc ≠ 0 → isTransfer i = true → enters = false →
      exec i s = .next (u.takeSync c { code := 9, addr := 0 })) ∧
    (x.slot = true → x.pc = x.le → x.lc ≠ 0 → isTransfer i = false → exec i s = .next (u.takeSync c { code := 9, addr := 0 }))) ∧
  (∀ (s : State) (c : Ctx) (i : Instr), instrContext i = some c → i.wf = true →
    (s.ctx c).canIssue = true → (s.ctx c).shadowDue = false → s.mayTake c = true → (s.ctx c).annul = true →
    let x := s.ctx c
    exec i s = .next ((s.takeGrant c).setCtx c
      { x with
        pc := x.npc, npc := x.npc + 4, slot := false, annul := false, slots := x.slots + 1, shadows := x.shadows.map Shadow.tick }))

/-- A load whose bytes lie in a line that the context's quad holds writes that line's bytes at its address, extended as the table says,
and changes nothing else: no byte of memory, no cached line (R147, R201, R213).

A store to a line that the context's quad holds writes the low bytes of its register into that line at its address, removes every
other quad's copy, and changes no other byte, register or flag (R147, R213, R220).

Whatever page, region or split a load or store meets, what its data port answers decides: bytes read are extended into rd, at one
more slot across a line; a wait leaves the instruction to issue again; a cause is taken (R147, R148, R198). -/
def Obligations.LoadsAndStores : Prop :=
  (∀ (s : State) (c : Ctx) (rd rs1 : Gpr) (imm : BitVec 16) (pa : Nat) (l : CLine), s.issues c .plain → HeldClean s c pa l →
    let va : VAddr := ((s.ctx c).rg rs1 + imm.signExtend 64).truncate 48
    let v (n : Nat) : Nat := leNat ((l.bytes.drop (pa % 64)).take n)
    (CacheAccess s c .load va 1 pa →
      (∃ t, exec (.lb c rd rs1 imm) s = .next t ∧ Loaded s t c rd ((BitVec.ofNat 8 (v 1)).signExtend 64)) ∧
      (∃ t, exec (.lbu c rd rs1 imm) s = .next t ∧ Loaded s t c rd (BitVec.ofNat 64 (v 1)))) ∧
    (CacheAccess s c .load va 2 pa →
      (∃ t, exec (.lh c rd rs1 imm) s = .next t ∧ Loaded s t c rd ((BitVec.ofNat 16 (v 2)).signExtend 64)) ∧
      (∃ t, exec (.lhu c rd rs1 imm) s = .next t ∧ Loaded s t c rd (BitVec.ofNat 64 (v 2)))) ∧
    (CacheAccess s c .load va 4 pa →
      (∃ t, exec (.lw c rd rs1 imm) s = .next t ∧ Loaded s t c rd ((BitVec.ofNat 32 (v 4)).signExtend 64)) ∧
      (∃ t, exec (.lwu c rd rs1 imm) s = .next t ∧ Loaded s t c rd (BitVec.ofNat 64 (v 4)))) ∧
    (CacheAccess s c .load va 6 pa →
      (∃ t, exec (.lp24 c rd rs1 imm) s = .next t ∧ Loaded s t c rd (BitVec.ofNat 64 (v 6)))) ∧
    (CacheAccess s c .load va 8 pa →
      (∃ t, exec (.ld c rd rs1 imm) s = .next t ∧ Loaded s t c rd (BitVec.ofNat 64 (v 8))))) ∧
  (∀ (s : State) (c : Ctx) (rs2 rs1 : Gpr) (imm : BitVec 16) (pa : Nat) (l : CLine),
    s.issues c .plain → HeldClean s c pa l → CleanElsewhere s c pa →
    let va : VAddr := ((s.ctx c).rg rs1 + imm.signExtend 64).truncate 48
    let d (n : Nat) : List Byte := leBytes n ((s.ctx c).rg rs2).toNat
    (CacheAccess s c .store va 1 pa → ∃ t, exec (.sb c rs2 rs1 imm) s = .next t ∧ Stored s t c pa (d 1) l) ∧
    (CacheAccess s c .store va 2 pa → ∃ t, exec (.sh c rs2 rs1 imm) s = .next t ∧ Stored s t c pa (d 2) l) ∧
    (CacheAccess s c .store va 4 pa → ∃ t, exec (.sw c rs2 rs1 imm) s = .next t ∧ Stored s t c pa (d 4) l) ∧
    (CacheAccess s c .store va 6 pa → ∃ t, exec (.sp24 c rs2 rs1 imm) s = .next t ∧ Stored s t c pa (d 6) l) ∧
    (CacheAccess s c .store va 8 pa → ∃ t, exec (.sd c rs2 rs1 imm) s = .next t ∧ Stored s t c pa (d 8) l)) ∧
  (∀ (s : State) (c : Ctx) (r rs1 : Gpr) (imm : BitVec 16), s.issues c .plain →
    let va : VAddr := ((s.ctx c).rg rs1 + imm.signExtend 64).truncate 48
    let loads : List (Instr × Nat × (Nat → Dword)) :=
      [(.lb c r rs1 imm, 1, fun v => (BitVec.ofNat 8 v).signExtend 64), (.lh c r rs1 imm, 2, fun v => (BitVec.ofNat 16 v).signExtend 64),
       (.lw c r rs1 imm, 4, fun v => (BitVec.ofNat 32 v).signExtend 64), (.ld c r rs1 imm, 8, BitVec.ofNat 64),
       (.lbu c r rs1 imm, 1, BitVec.ofNat 64), (.lhu c r rs1 imm, 2, BitVec.ofNat 64), (.lwu c r rs1 imm, 4, BitVec.ofNat 64),
       (.lp24 c r rs1 imm, 6, BitVec.ofNat 64)]
    let stores : List (Instr × Nat) := [(.sb c r rs1 imm, 1), (.sh c r rs1 imm, 2), (.sw c r rs1 imm, 4), (.sd c r rs1 imm, 8),
      (.sp24 c r rs1 imm, 6)]
    let slots (n : Nat) : Nat := if 64 < va.toNat % 64 + n then 2 else 1
    (∀ p ∈ loads,
      (∀ b u, (s.fetched c).accRead c .load va p.2.1 = .ok b u →
        ∃ t, exec p.1 s = .next t ∧ t = u.setCtx c (t.ctx c) ∧ WroteReg (u.ctx c) (t.ctx c) r (p.2.2 (leNat b)) ∧
          (t.ctx c).flags = (u.ctx c).flags ∧ Sequenced (u.ctx c) (t.ctx c) (slots p.2.1) ∧ SameRest (u.ctx c) (t.ctx c)) ∧
      (∀ u, (s.fetched c).accRead c .load va p.2.1 = .wait u → exec p.1 s = .next u) ∧
      (∀ k u, (s.fetched c).accRead c .load va p.2.1 = .cause k u → exec p.1 s = .next (u.takeSync c k))) ∧
    (∀ p ∈ stores,
      let put := (s.fetched c).accWrite c .store va (leBytes p.2 ((s.ctx c).rg r).toNat) (fun u => u.done c (slots p.2))
      (∀ u, put = .ok () u → exec p.1 s = .next u) ∧ (∀ u, put = .wait u → exec p.1 s = .next u) ∧
      (∀ k u, put = .cause k u → exec p.1 s = .next (u.takeSync c k))))

/-- An aligned 4-byte load or store of a context in device register space that its firewall allows and no clearing block holds reads or writes
that one register (EVC_CLAIM apart, whose load is a claim). Any other access there, of another size, misaligned or split over two lines, is refused
with cause 5 and raises X, and no part of it is performed (R5, R21, R148). -/
def Obligations.RegisterSpaceAccesses : Prop :=
  ∀ (s : State) (c : Ctx) (r rs1 : Gpr) (imm : BitVec 16) (pa : Nat) (ty : MType) (u : State), s.issues c .plain →
    let va : VAddr := ((s.ctx c).rg rs1 + imm.signExtend 64).truncate 48
    let who : Who := .ctx c (s.ctx c).status.lvl
    let request (k : ReqKind) (n : Nat) : Request := ⟨who, u.ctxClass c, k, pa, n, true⟩
    let d (n : Nat) : List Byte := leBytes n ((s.ctx c).rg r).toNat
    let loads : List (Instr × Nat) := [(.lb c r rs1 imm, 1), (.lh c r rs1 imm, 2), (.lw c r rs1 imm, 4), (.ld c r rs1 imm, 8),
      (.lbu c r rs1 imm, 1), (.lhu c r rs1 imm, 2), (.lwu c r rs1 imm, 4), (.lp24 c r rs1 imm, 6)]
    let stores : List (Instr × Nat) := [(.sb c r rs1 imm, 1), (.sh c r rs1 imm, 2), (.sw c r rs1 imm, 4), (.sd c r rs1 imm, 8),
      (.sp24 c r rs1 imm, 6)]
    u.region pa = .devReg → u.ctx c = s.ctx c →
    (pa % 4 = 0 → (s.fetched c).accXlate c .load va 4 [] = .ok [(⟨va, 0, 4, false⟩, pa, ty)] u →
      u.firewall (request .read 4) = .allowed → pa ≠ Reg.EVC_CLAIM → u.regWaits pa = false →
      Sparse.get c.val (u.readReg who pa 0).fab.resp ≠ some .uncorrectable →
      let w := u.readReg who pa 0
      let v := w.lastWord (w.whoOf c)
      exec (.lw c r rs1 imm) s = .next ((w.setCtx c ((w.ctx c).wg r (v.signExtend 64))).done c 1) ∧
      exec (.lwu c r rs1 imm) s = .next ((w.setCtx c ((w.ctx c).wg r (v.zeroExtend 64))).done c 1)) ∧
    (pa % 4 = 0 → (s.fetched c).accXlate c .store va 4 [] = .ok [(⟨va, 0, 4, false⟩, pa, ty)] u →
      u.firewall (request (.write (d 4)) 4) = .allowed → u.regWaits pa = false →
      exec (.sw c r rs1 imm) s = .next ((u.done c 1).landWrite who pa (((s.ctx c).rg r).truncate 32) 0)) ∧
    (∀ i ∈ loads, ∀ p rest, ty = .dev → (s.fetched c).accXlate c .load va i.2 [] = .ok ((p, pa, ty) :: rest) u →
      (i.2 ≠ 4 ∨ pa % 4 ≠ 0 ∨ rest ≠ []) →
      exec i.1 s = .next ((u.recordRefusal (request .read i.2) 5 0).takeSync c { code := 4, addr := va.zeroExtend 64 })) ∧
    (∀ i ∈ stores, ∀ p rest, ty = .dev → (s.fetched c).accXlate c .store va i.2 [] = .ok ((p, pa, ty) :: rest) u →
      (i.2 ≠ 4 ∨ pa % 4 ≠ 0 ∨ rest ≠ []) →
      exec i.1 s = .next ((u.recordRefusal (request (.write (d i.2)) i.2) 5 0).takeSync c
        { code := 4, addr := va.zeroExtend 64, wr := true }))

/-- An atomic operation on a line that the context's quad holds leaves f(old, b) in memory and the old value in rd, sign-extended where SZ = 0; a
compare that fails writes nothing; a line that is not held uniquely is waited for; a misaligned address raises M, with WR 0, which is the model's choice
(log 59), before anything else of the access (R160, R161, R178).

A fence that issues completes at once, at 3 slots for IFENCE and 1 for the others, and changes nothing else: that nothing is left to wait for, or
for IFENCE to discard, is the model's choice (logs 60, 20) (R162). -/
def Obligations.AtomicsAndFences : Prop :=
  (∀ (s : State) (c : Ctx) (ord : BitVec 2) (sz : Bool) (rd rs1 rs2 : Gpr) (pa : Nat) (l : CLine), s.issues c .plain →
    let x := s.ctx c
    let n := if sz then 8 else 4
    let m := 2 ^ (8 * n)
    let va : VAddr := (x.rg rs1).truncate 48
    let old := leNat ((l.bytes.drop (pa % 64)).take n)
    let core := coreOf c
    let unique : Prop := (s.core core).l1d.contains (lineOf pa) = true ∧ (∀ q, q ≠ quadOf core → s.l2Get q (lineOf pa) = none) ∧
      ∀ j, quadOf j = quadOf core → j ≠ core → (s.core j).l1d.contains (lineOf pa) = false
    let b := (x.rg rs2).toNat % m
    let sgn (v : Nat) : Int := if v < m / 2 then v else (v : Int) - m
    let result : Dword := if sz then BitVec.ofNat 64 old else (BitVec.ofNat 32 old).signExtend 64
    let ops : List (Instr × Nat) :=
      [(.amSwap c ord sz rd rs1 rs2, b), (.amAdd c ord sz rd rs1 rs2, (old + b) % m), (.amSub c ord sz rd rs1 rs2, (old + m - b) % m),
       (.amAnd c ord sz rd rs1 rs2, old &&& b), (.amOr c ord sz rd rs1 rs2, old ||| b), (.amXor c ord sz rd rs1 rs2, old ^^^ b),
       (.amMins c ord sz rd rs1 rs2, if sgn b < sgn old then b else old), (.amMaxs c ord sz rd rs1 rs2, if sgn old < sgn b then b else old),
       (.amMinu c ord sz rd rs1 rs2, min old b), (.amMaxu c ord sz rd rs1 rs2, max old b),
       (.amIncw c ord sz rd rs1 rs2, if b ≤ old then 0 else old + 1)]
    let cas : Instr := .amCas c ord sz rd rs1 rs2
    let done (t : State) : Prop :=
      WroteReg x (t.ctx c) rd result ∧ (t.ctx c).flags = x.flags ∧ Sequenced x (t.ctx c) 2 ∧ SameRest x (t.ctx c) ∧
      SameOthers s t c ∧ SameOutsideCores s t
    (va.toNat % n ≠ 0 → ∀ i ∈ ops.map (fun p => p.1) ++ [cas],
      exec i s = .next ((s.fetched c).takeSync c { code := 7, addr := va.zeroExtend 64 })) ∧
    (va.toNat % n = 0 → HeldClean s c pa l → CacheAccess s c .atomic va n pa → unique →
      (∀ p ∈ ops, ∃ t, exec p.1 s = .next t ∧ done t ∧ LineWritten s t c pa (leBytes n p.2) l) ∧
      (old = (x.rg rd).toNat % m → ∃ t, exec cas s = .next t ∧ done t ∧ LineWritten s t c pa (leBytes n b) l) ∧
      (old ≠ (x.rg rd).toNat % m → ∃ t, exec cas s = .next t ∧ done t ∧ SameLines s t)) ∧
    (va.toNat % n = 0 → HeldClean s c pa l → CacheAccess s c .atomic va n pa → ¬ unique →
      ∀ i ∈ ops.map (fun p => p.1) ++ [cas], ∃ t, exec i s = .next t ∧
        t.ctx c = { x with wait := .fill pa va .atomic false, missClass := s.ctxClass c } ∧ SameOthers s t c ∧ SameOutsideCores s t ∧ SameLines s t)) ∧
  (∀ (s : State) (c : Ctx), s.issues c .plain →
    ∀ p ∈ ([(.fence c, 1), (.fenceS c, 1), (.fenceL c, 1), (.fenceA c, 1), (.ifence c, 3)] : List (Instr × Nat)),
      ∃ t, exec p.1 s = .next t ∧ SameRegs (s.ctx c) (t.ctx c) ∧ (t.ctx c).flags = (s.ctx c).flags ∧
        Sequenced (s.ctx c) (t.ctx c) p.2 ∧ SameRest (s.ctx c) (t.ctx c) ∧ SameOthers s t c ∧ SameMachine s t c)

/-- A block-repeat instruction with g6 = 0 completes at once at its leading slot and makes no access: CMP sets the flags of equality and
SCAN those of nothing found (R127, R157, R158).

A group of a block-repeat instruction performs its chunks one after another, from the state that each finds, and moves its registers on by each;
the chunk that ends the bytes completes the instruction, and a full group leaves it to go on. CMP stops at the first element that differs, with the
flags of its subtraction, and SCAN at the first that is g7's. A chunk that waits leaves those before it performed, and one that faults takes its
cause. That a last chunk is read whole where no element fills it, and that a command is a group, is the model's choice (logs 78, 26) (R126, R127,
R156 to R159). -/
def Obligations.BlockRepeatInstructions : Prop :=
  (∀ (s : State) (c : Ctx) (es : BitVec 2), s.issues c .plain → (s.ctx c).rg 6 = 0 → (s.ctx c).brpt = none →
    let x := s.ctx c
    let done (t : State) (fl : CFlags) : Prop :=
      SameRegs x (t.ctx c) ∧ (t.ctx c).flags = fl ∧ Sequenced x (t.ctx c) 1 ∧ SameRest x (t.ctx c) ∧ SameOthers s t c ∧ SameMachine s t c
    (∃ t, exec (.moveB c) s = .next t ∧ done t x.flags) ∧
    (∃ t, exec (.fill c es) s = .next t ∧ done t x.flags) ∧
    (∃ t, exec (.cmp c es) s = .next t ∧ done t ⟨false, true, false, false, x.flags.sat⟩) ∧
    (∃ t, exec (.scan c es) s = .next t ∧ done t ⟨false, false, false, false, x.flags.sat⟩)) ∧
  (∀ (s : State) (c : Ctx) (es : BitVec 2) (chunk : Nat → State) (k : Nat), s.issues c .plain →
    let x := s.ctx c
    let n := (x.rg 6).toNat
    let left := x.brpt.getD 8
    let lead := if x.brpt.isSome then 0 else 1
    let e := 2 ^ es.toNat
    let m (i : Nat) : Nat := min (n - 8 * i) 8
    let element (b : List Byte) (j : Nat) : Nat := leNat ((b.drop (e * j)).take e)
    let a4 (i : Nat) : VAddr := (((chunk i).ctx c).rg 4).truncate 48
    let a5 (i : Nat) : VAddr := (((chunk i).ctx c).rg 5).truncate 48
    let g7 (i : Nat) : Nat := (((chunk i).ctx c).rg 7).toNat
    let ends (y : Context) (u4 u5 : Bool) (by_ : Nat) (fl : CFlags) (cost : Nat) : Context :=
      ({ (y.advance u4 u5 by_) with flags := fl, brpt := none } : Context).complete cost false false none
    let moved (i : Nat) (u4 u5 : Bool) (price : Nat) (fl : CFlags → CFlags) (z : State) : State :=
      z.setCtx c (if n ≤ 8 * i + 8 then ends (z.ctx c) u4 u5 (m i) (fl (z.ctx c).flags) (lead + price * (i + 1))
        else (z.ctx c).advance u4 u5 (m i))
    let dealt (z : State) : State := z.setCtx c { z.ctx c with chunk := none }
    let moves (i : Nat) : Prop := ∃ v u b w, (chunk i).bothXlate c .store (m i) = .ok v u ∧ u.chunkRead c v.1 = .ok b w ∧
      w.writeParts c .store b (fun z => moved i true true 2 id (dealt z)) v.2 = .ok () (chunk (i + 1))
    let fills (i : Nat) : Prop :=
      (chunk i).accWrite c .store (a5 i) ((List.range (m i)).map (fun j => BitVec.ofNat 8 (g7 i / 256 ^ (j % e)))) (moved i false true 1 id) =
        .ok () (chunk (i + 1))
    let reads (i : Nat) (a b : List Byte) (z : State) : Prop := ∃ v u w, (chunk i).bothXlate c .load (m i) = .ok v u ∧
      u.chunkRead c v.1 = .ok a w ∧ w.readParts c .load v.2 = .ok b z ∧ a.length = m i ∧ b.length = m i
    let equals (i : Nat) : Prop := ∃ a b z, reads i a b z ∧ (∀ j, j < m i / e → element a j = element b j) ∧
      chunk (i + 1) = moved i true true 2 (fun f => ⟨false, true, false, false, f.sat⟩) (dealt z)
    let scans (i : Nat) : Prop := ∃ a z, (chunk i).accRead c .load (a4 i) (m i) = .ok a z ∧ a.length = m i ∧
      (∀ j, j < m i / e → element a j ≠ g7 i % 2 ^ (8 * e)) ∧
      chunk (i + 1) = moved i true false 1 (fun f => ⟨false, false, false, false, f.sat⟩) z
    let group (i : Instr) (price : Nat) : Prop := k = min left ((n + 7) / 8) → exec i s = .next (if n ≤ 8 * left then chunk k
      else (chunk k).setCtx c { (chunk k).ctx c with brpt := some 8, slots := ((chunk k).ctx c).slots + (lead + price * left) })
    let waits (i : Instr) (price : Nat) (u : State) : Prop := exec i s =
      .next (u.setCtx c { u.ctx c with brpt := some (left - k), slots := (u.ctx c).slots + (lead + price * k) })
    let faults (i : Instr) (y : Cause) (u : State) : Prop := exec i s = .next ((dealt u).takeSync c y)
    let more : Prop := k < left ∧ 8 * k < n
    0 < n → chunk 0 = s.fetched c → (∀ i, i ≤ k → 8 * i < n → ((chunk i).ctx c).rg 6 = BitVec.ofNat 64 (n - 8 * i)) →
    ((∀ i, i < k → moves i) → group (.moveB c) 2 ∧
      (more → (∀ u, (chunk k).bothXlate c .store (m k) = .wait u → waits (.moveB c) 2 u) ∧
        ∀ y u, (chunk k).bothXlate c .store (m k) = .cause y u → faults (.moveB c) y u)) ∧
    ((∀ i, i < k → fills i) → group (.fill c es) 1) ∧
    ((∀ i, i < k → equals i) → group (.cmp c es) 2 ∧
      (more → (∀ u, (chunk k).bothXlate c .load (m k) = .wait u → waits (.cmp c es) 2 u) ∧
        (∀ y u, (chunk k).bothXlate c .load (m k) = .cause y u → faults (.cmp c es) y u) ∧
        ∀ a b z j, reads k a b z → j < m k / e → element a j ≠ element b j → (∀ i, i < j → element a i = element b i) →
          let p : Dword := BitVec.ofNat 64 (element a j)
          let q : Dword := BitVec.ofNat 64 (element b j)
          exec (.cmp c es) s = .next ((dealt z).setCtx c (ends ((dealt z).ctx c) true true (e * j)
            ⟨(p - q).msb, false, element a j < element b j, !Fits 64 (p.toInt - q.toInt), (z.ctx c).flags.sat⟩ (lead + 2 * (k + 1)))))) ∧
    ((∀ i, i < k → scans i) → group (.scan c es) 1 ∧
      (more → (∀ u, (chunk k).accRead c .load (a4 k) (m k) = .wait u → waits (.scan c es) 1 u) ∧
        (∀ y u, (chunk k).accRead c .load (a4 k) (m k) = .cause y u → faults (.scan c es) y u) ∧
        ∀ a z j, (chunk k).accRead c .load (a4 k) (m k) = .ok a z → a.length = m k → j < m k / e →
          element a j = g7 k % 2 ^ (8 * e) → (∀ i, i < j → element a i ≠ g7 k % 2 ^ (8 * e)) →
          exec (.scan c es) s = .next (z.setCtx c (ends (z.ctx c) true false (e * j) ⟨false, true, false, false, (z.ctx c).flags.sat⟩
            (lead + (k + 1)))))))

/-- RDC reads every control register, zero-extended, in the rings that may read it and in the Lining level (R112, R113, R115, R117, R163,
R181, R209). -/
def Obligations.ControlRegisterReads : Prop :=
  ∀ (s : State) (c : Ctx) (rd : Gpr), s.issues c .plain →
    let x := s.ctx c
    let t := x.status
    let f := x.flags
    let lvlOnly := 4
    let rows : List (Nat × Nat × Nat) :=
      [(0x000, 3, t.ring.toNat + 4 * t.lvl.toNat + 8 * t.ie.toNat + 16 * t.tack.toNat + 64 * t.te.toNat), (0x001, 0, x.asid.toNat),
       (0x002, 3, c.val), (0x003, 3, x.icount.toNat),
       (0x004, 3, f.v.toNat + 2 * f.c.toNat + 4 * f.z.toNat + 8 * f.n.toNat + 16 * f.sat.toNat), (0x005, 3, x.fpcsr.toNat),
       (0x010, 3, x.lc.toNat), (0x011, 3, x.ls.toNat), (0x012, 3, x.le.toNat), (0x018, 3, x.rsp.toNat), (0x019, 0, x.rsbase.toNat),
       (0x01A, 0, x.rstop.toNat), (0x030, 0, x.vbase.toNat), (0x031, 0, x.xsp.toNat), (0x032, 0, x.xlim.toNat), (0x033, 0, x.xcause.toNat),
       (0x034, 0, x.xaddr.toNat), (0x035, 0, x.gtbase.toNat), (0x036, 0, x.gtcount.toNat), (0x037, 0, x.tackrem.toNat),
       (0x040, lvlOnly, x.ldepth.toNat), (0x041, lvlOnly, x.lcause.toNat), (0x042, lvlOnly, x.lxaddr.toNat), (0x043, lvlOnly, x.lpend.toNat),
       (0x080, 0, x.ptroot.toNat), (0x081, 0, x.tfsr.toNat), (0x0E0, 0, x.emword.toNat)]
    ∀ p ∈ rows,
      (t.lvl = true ∨ (p.2.1 ≠ lvlOnly ∧ t.ring.toNat ≤ p.2.1) →
        ∃ u, exec (.rdc c rd (BitVec.ofNat 12 p.1)) s = .next u ∧ Computed s u c rd (BitVec.ofNat 64 p.2.2) f 1) ∧
      (t.lvl = false → (p.2.1 = lvlOnly ∨ p.2.1 < t.ring.toNat) →
        exec (.rdc c rd (BitVec.ofNat 12 p.1)) s = .next ((s.fetched c).takeSync c { code := 5, addr := 0 }))

/-- WRC writes every writable control register in its bits where it may, at once, but for status and asid, whose values wait for two
further instructions. One of lc, ls or le that stands at le takes the loop decision on the old values first, which is the model's choice (log 75)
(R112, R114, R115, R116, R118, R163, R181, R209).

A write of status or asid takes effect when its two shadow instructions have issued, oldest first (R116). -/
def Obligations.ControlRegisterWrites : Prop :=
  (∀ (s : State) (c : Ctx) (rs2 : Gpr), s.issues c .plain →
    let x := s.ctx c
    let v := x.rg rs2
    let n := v.toNat
    let lvlOnly := 4
    let rows : List (Nat × Nat × (Context → Context)) :=
      [(0x004, 3, fun y => { y with flags := ⟨v.getLsbD 3, v.getLsbD 2, v.getLsbD 1, v.getLsbD 0, v.getLsbD 4⟩ }),
       (0x005, 3, fun y => { y with fpcsr := (v &&& 0x1F3).truncate 9 }), (0x010, 3, fun y => { y with lc := v }),
       (0x011, 3, fun y => { y with ls := BitVec.ofNat 48 (n / 4 * 4) }), (0x012, 3, fun y => { y with le := BitVec.ofNat 48 (n / 4 * 4) }),
       (0x018, 0, fun y => { y with rsp := BitVec.ofNat 48 (n / 8 * 8), latch := none }),
       (0x019, 0, fun y => { y with rsbase := BitVec.ofNat 48 (n / 8 * 8) }), (0x01A, 0, fun y => { y with rstop := BitVec.ofNat 48 (n / 8 * 8) }),
       (0x030, 0, fun y => { y with vbase := BitVec.ofNat 48 (n / 4096 * 4096) }), (0x031, 0, fun y => { y with xsp := BitVec.ofNat 48 (n / 64 * 64) }),
       (0x032, 0, fun y => { y with xlim := BitVec.ofNat 48 (n / 64 * 64) }), (0x035, 0, fun y => { y with gtbase := BitVec.ofNat 40 (n / 16 * 16) }),
       (0x036, 0, fun y => { y with gtcount := BitVec.ofNat 11 (min n 1024) }), (0x040, lvlOnly, fun y => { y with ldepth := BitVec.ofNat 5 (min n 16) }),
       (0x080, 0, fun y => { y with ptroot := BitVec.ofNat 40 (n / 4096 * 4096) })]
    (∀ p ∈ rows, RingAllows x p.2.1 →
      ∃ u, exec (.wrc c rs2 (BitVec.ofNat 12 p.1)) s = .next u ∧ u.ctx c = p.2.2 (x.complete 1 false false none) ∧
        SameOthers s u c ∧ SameMachine s u c) ∧
    (∀ k ∈ ([0, 1] : List Nat), RingAllows x 0 →
      ∃ u, exec (.wrc c rs2 (BitVec.ofNat 12 k)) s = .next u ∧
        (let y := x.complete 1 false false none
         u.ctx c = { y with shadows := y.shadows ++ [⟨k == 1, v, 2⟩] }) ∧ SameOthers s u c ∧ SameMachine s u c) ∧
    (∀ k ∈ ([0x000, 0x001, 0x018, 0x019, 0x01A, 0x030, 0x031, 0x032, 0x035, 0x036, 0x040, 0x080] : List Nat),
      x.status.lvl = false → 0 < x.status.ring.toNat →
      exec (.wrc c rs2 (BitVec.ofNat 12 k)) s = .next ((s.fetched c).takeSync c { code := 5, addr := 0 }))) ∧
  (∀ (s : State) (c : Ctx) (v : Dword) (rest : List Shadow), (∀ h ∈ rest, h.left ≠ 0) →
    let x := s.ctx c
    (x.shadows = ⟨false, v, 0⟩ :: rest →
      ∃ t, exec (.modeShadowEnd c) s = .next t ∧
        t = s.setCtx c
          { x with
            shadows := rest,
            status := { x.status with ring := v.truncate 2, ie := v.getLsbD 3, te := v.getLsbD 6 } }) ∧
    (x.shadows = ⟨true, v, 0⟩ :: rest →
      ∃ t, exec (.modeShadowEnd c) s = .next t ∧ t = s.setCtx c { x with shadows := rest, asid := v.truncate 12 }))

/-- A reserved encoding, an RDC or a WRC of a register that does not exist, and a WRC of a read-only one perform nothing and take the
emulation trap with the word in emword, in every ring (R136, R137, R138).

Where a context may not execute a privileged instruction, it raises the privileged-instruction exception and does nothing else
(R112, R166, R178).

Outside the Lining level, a synchronous cause begins an exception entry where the exception stack has room for its frame: the pair and
status as they stood are kept for the frame, and nothing else changes; with no room, and in the Lining level, the Lining entry is taken, whose
fault address of xsp − 64 wraps for an xsp below 64, which is the model's choice (log 76) (R171, R174, R178, R186, R199).

When the frame write of an entry is accepted, every change of the entry takes effect together: the frame at xsp − 64 holds the saved
pair, status, cause word, fault address, tack count, g30 and g31, and then g31, g30, xsp, xcause, xaddr, status, tackrem and the pair take
their new values, the pair by the kind of entry (R171, R172, R173, R174, R175, R196). -/
def Obligations.TrapsAndEntries : Prop :=
  (∀ (s : State) (c : Ctx) (w : Word) (r : Gpr) (num : BitVec 12), s.reaches c →
    let trap (w : Word) : State :=
      ((s.fetched c).setCtx c { s.ctx c with emword := w }).takeSync c { code := 6, addr := 0 }
    (Hymota.decode c w = none → exec (.emulationTrap c w) s = .next (trap w)) ∧
    (num.toNat ∉ [0, 1, 2, 3, 4, 5, 0x10, 0x11, 0x12, 0x18, 0x19, 0x1A, 0x30, 0x31, 0x32, 0x33, 0x34, 0x35, 0x36, 0x37, 0x40, 0x41, 0x42,
        0x43, 0x80, 0x81, 0xE0] →
      exec (.rdc c r num) s = .next (trap (BitVec.ofNat 32 (0x31 * 2 ^ 26 + r.toNat * 2 ^ 21 + num.toNat)))) ∧
    (num.toNat ∉ [0, 1, 4, 5, 0x10, 0x11, 0x12, 0x18, 0x19, 0x1A, 0x30, 0x31, 0x32, 0x35, 0x36, 0x40, 0x80] →
      exec (.wrc c r num) s = .next (trap (BitVec.ofNat 32 (0x32 * 2 ^ 26 + r.toNat * 2 ^ 21 + num.toNat))))) ∧
  (∀ (s : State) (c : Ctx) (rs1 rs2 : Gpr), s.reaches c → ¬s.mayPrivileged c →
    ∀ i ∈ ([.eret c, .stop c, .tack c rs1, .untack c, .tlbiVa c rs1 rs2, .tlbiAs c rs2, .tlbiAll c, .dcCln c rs1, .dcInv c rs1,
        .dcCi c rs1] : List Instr),
      exec i s = .next ((s.fetched c).takeSync c { code := 5, addr := 0 })) ∧
  (∀ (s : State) (c : Ctx) (k : Cause),
    let x := s.ctx c
    let y := x.flushShadows
    let sh := decide (x.shadows ≠ [])
    (x.status.lvl = false → k.code ≠ 0x21 → k.code ≠ 0x25 → k.code ≠ 0x26 → y.xlim.toNat + 64 ≤ y.xsp.toNat →
      s.takeSync c k = s.setCtx c
        { y with
          wait := .none, brpt := none, chunk := none,
          entry := some
            { kind := .exception, code := k.code, num := k.num, sub := k.sub, wr := k.wr, half := k.half, sh := sh, ds := x.slot,
              addr := k.addr, savedPc := x.pc, savedNpc := x.npc, claimed := false } }) ∧
    (x.status.lvl = false → k.code ≠ 0x21 → k.code ≠ 0x25 → k.code ≠ 0x26 → y.xsp.toNat < y.xlim.toNat + 64 →
      s.takeSync c k = s.liningEntry c 0x24 k.code (y.xsp.zeroExtend 64 - 64) false false 0 0 x.slot sh x.pc x.npc) ∧
    (x.status.lvl = true ∨ k.code = 0x21 ∨ k.code = 0x25 ∨ k.code = 0x26 →
      s.takeSync c k = s.liningEntry c k.code 0 k.addr k.wr k.half k.sub k.num x.slot sh x.pc x.npc)) ∧
  (∀ (s : State) (c : Ctx) (e : Entry) (pa : Nat) (ty : MType) (u v : State),
    let x := s.ctx c
    let f := x.xsp - 64
    let cw : Dword := BitVec.ofNat 64 (e.num % 2048 * 2 ^ 32 + e.sub % 16 * 2 ^ 20 + e.wr.toNat * 2 ^ 19 + e.half.toNat * 2 ^ 18 +
      e.sh.toNat * 2 ^ 17 + e.ds.toNat * 2 ^ 16 + e.code % 256)
    let frame : List Dword := [e.savedPc.zeroExtend 64, e.savedNpc.zeroExtend 64,
      BitVec.ofNat 64 (x.status.ring.toNat + 4 * x.status.lvl.toNat + 8 * x.status.ie.toNat + 16 * x.status.tack.toNat + 64 * x.status.te.toNat),
      cw, e.addr, x.tackrem.zeroExtend 64, x.g[30], x.g[31]]
    let newPc : VAddr := match e.kind with
      | .exception => x.vbase + BitVec.ofNat 48 (64 * e.code)
      | .event => x.vbase + 0x400
      | .gate target _ _ => target
    let newStatus : Status := match e.kind with
      | .gate _ ring ie => ⟨x.status.te, false, ie, x.status.lvl, ring⟩
      | _ => ⟨x.status.te, false, false, x.status.lvl, 0⟩
    x.entry = some e → x.run = .active → (e.kind = .event → e.claimed = true) →
    s.xlateNow c 0 f .store = (.ok pa ty, none, u) → u.ctx c = x →
    u.fullLine c pa ty (frame.flatMap (fun d => leBytes 8 d.toNat)) = (.made, v) → v.ctx c = x →
    ∃ t, exec (.entryFrameAccepted c) s = .next t ∧
      t = v.setCtx c
        { x with
          g := (x.g.set 31 (f.zeroExtend 64)).set 30 cw, xsp := f, xcause := cw, xaddr := e.addr, status := newStatus, tackrem := 0,
          pc := newPc, npc := newPc + 4, slot := false, annul := false, entry := none, slots := x.slots + 12,
          dsSaved := if e.ds then e.savedPc :: x.dsSaved else x.dsSaved })

/-- STOP, SLEEP, TACK, UNTACK and BRK act as the SYS group says, and an open window whose count has run out closes with the core's
tack-expiry event. That a STOP completes a KILL held by the Lining level, and that BRK sets the halt request, is the model's choice (logs 70, 55)
(R101, R166, R194, R195, R251, R531). -/
def Obligations.StopSleepTackAndBreak : Prop :=
  ∀ (s : State) (c : Ctx) (rs1 : Gpr),
    let x := s.ctx c
    let y := x.complete 1 false false none
    let closed (z : Context) : Context := { z with tackrem := 0, status := { z.status with tack := false } }
    let a := (x.rg rs1).toNat
    let k := coreOf c
    (s.issues c .plain → s.mayPrivileged c →
      (let stopped := s.setFld (Reg.HYC_CSTAT c) Fld.HYC_CSTAT_STOPPED 1
       ∃ t, exec (.stop c) s = .next t ∧ t.ctx c = { y with run := .off, heldKill := false } ∧ SameOthers s t c ∧
        SameMachine (if x.heldKill then (stopped.setFld (Reg.HYC_CSTAT c) Fld.HYC_CSTAT_ABLATE 1).killDone c else stopped) t c) ∧
      (∃ t, exec (.untack c) s = .next t ∧ t.ctx c = (closed x).complete 1 false false none ∧ SameOthers s t c ∧ SameMachine s t c) ∧
      (∃ t, exec (.tack c rs1) s = .next t ∧ SameOthers s t c ∧ SameMachine s t c ∧
        t.ctx c = (if x.status.tack = false ∧ 1 ≤ a then
            ({ x with tackrem := BitVec.ofNat 13 (min a 4096), status := { x.status with tack := true } }).complete 1 false false none
          else y))) ∧
    (s.issues c .plain →
      (∃ t, exec (.sleep c) s = .next t ∧ t.ctx c = { closed y with run := .asleep } ∧ SameOthers s t c ∧ SameMachine s t c)) ∧
    (s.issues c .plain → s.flag Reg.DBG_CTRL Fld.DBG_CTRL_BRKCLAIM = true → s.flag Reg.DBG_CTRL Fld.DBG_CTRL_NOHALT = false →
      x.status.lvl = false →
      ∃ t, exec (.brk c) s = .next t ∧ t.ctx c = { y with haltReq := some true } ∧ SameOthers s t c ∧
        SameMachine (s.setReg (Reg.DBG_BSTAT (c.val / 32))
          (s.reg (Reg.DBG_BSTAT (c.val / 32)) ||| BitVec.ofNat 32 (2 ^ (c.val % 32)))) t c) ∧
    (s.issues c .plain →
      s.flag Reg.DBG_CTRL Fld.DBG_CTRL_BRKCLAIM = false ∨ s.flag Reg.DBG_CTRL Fld.DBG_CTRL_NOHALT = true ∨ x.status.lvl = true →
      exec (.brk c) s = .next ((s.fetched c).takeSync c { code := 0xC, addr := 0 })) ∧
    (x.status.tack = true → x.tackrem = 0 →
      ∃ t, exec (.tackExpiry c) s = .next t ∧
        t = { s.setCtx c (closed x) with evc := { s.evc with sync := s.evc.sync ++ [1424 + 7 * k.val + 5] } })

/-- The lowest pending Lining cause is taken at the boundary, where no access of an instruction is waited for: its frame goes, past no other request, to the Lining frame area, its lpend bit
clears, and the context goes on at 0x200 in boot ROM, whose code passes it on to the payload while OK = 1; a depth of 16 is the exhaustion, which
leaves the bit set (R185, R187, R188, R527).

A Lining cause that becomes pending sets its lpend bit, wakes an Asleep context, starts an Off one that is not exhausted, and leaves any
other state alone; a context that lockstep takes away takes none (R106, R187, R188). -/
def Obligations.LiningEntriesAndCauses : Prop :=
  (∀ (s : State) (c : Ctx) (cause : LCause) (bit code : Nat), s.wf →
    let x := s.ctx c
    let y := x.flushShadows
    let d := x.ldepth.toNat + 1
    let f := 0x4060400 + c.val * 0x400 - 64 * d
    let sh := decide (x.shadows ≠ [])
    let cw : Dword := BitVec.ofNat 64 (sh.toNat * 2 ^ 17 + x.slot.toNat * 2 ^ 16 + code)
    let frame : List Dword := [x.pc.zeroExtend 64, x.npc.zeroExtend 64,
      BitVec.ofNat 64 (y.status.ring.toNat + 4 * y.status.lvl.toNat + 8 * y.status.ie.toNat + 16 * y.status.tack.toNat + 64 * y.status.te.toNat),
      cw, 0, x.tackrem.zeroExtend 64, x.g[30], x.g[31]]
    let bytes := frame.flatMap (fun d => leBytes 8 d.toNat)
    let core := coreOf c
    (cause, bit, code) ∈ ([(.lockstep, 0, 0x22), (.ecc, 1, 0x21), (.machineCheck, 2, 0x20), (.lag, 3, 0x23)] : List (LCause × Nat × Nat)) →
    x.run = .active → x.annul = false → x.shadowDue = false → x.midGroup = false → x.wait.outside = true → x.entry = none →
      x.lpend.getLsbD bit = true →
      (∀ j, j < bit → x.lpend.getLsbD j = false) →
    (d ≤ 16 → s.flag Reg.SYS_BOOTSTAT Fld.SYS_BOOTSTAT_OK = true → s.waitingAt 33 = 0 →
      ∃ t, exec (.liningEntry c) s = .next t ∧
        t.ctx c =
          { y with
            g := (x.g.set 31 (BitVec.ofNat 64 f)).set 30 cw, ldepth := BitVec.ofNat 5 d, lcause := cw, lxaddr := 0,
            lpend := x.lpend &&& ~~~BitVec.ofNat 4 (2 ^ bit), status := ⟨false, false, false, true, 0⟩, tackrem := 0,
            pc := 0x4000000, npc := 0x4000004, slot := false, annul := false, entry := none, wait := .none, brpt := none,
            chunk := none, slots := x.slots + 18, dsSaved := if x.slot then x.pc :: x.dsSaved else x.dsSaved } ∧
        SameOthers s t c ∧ (∀ a, Memory.read t.mem a = if f ≤ a ∧ a < f + 64 then bytes.getD (a - f) 0 else Memory.read s.mem a) ∧
        t.evc.sync = s.evc.sync ++ [1424 + 7 * core.val + 4] ∧ t.dev = s.dev) ∧
    (x.ldepth = 16 →
      ∃ t, exec (.liningEntry c) s = .next t ∧ (t.ctx c).run = .off ∧ (t.ctx c).g = x.g ∧ (t.ctx c).ldepth = 16 ∧ (t.ctx c).lpend = x.lpend ∧ t.mem = s.mem ∧
        t.flag (Reg.HYC_CSTAT c) Fld.HYC_CSTAT_EXH = true ∧ t.flag Reg.SYS_FAULT Fld.SYS_FAULT_LEXH = true ∧
        t.evc.sync = s.evc.sync ++ [1424 + 7 * core.val + 6])) ∧
  (∀ (s : State) (c : Ctx) (cause : LCause) (bit : Nat),
    let x := s.ctx c
    let pend := x.lpend ||| BitVec.ofNat 4 (2 ^ bit)
    (cause, bit) ∈ ([(.lockstep, 0), (.ecc, 1), (.machineCheck, 2), (.lag, 3)] : List (LCause × Nat)) →
    (s.lockedOut c = true → exec (.liningCausePending c cause) s = .next s) ∧
    (s.lockedOut c = false → ∃ t, exec (.liningCausePending c cause) s = .next t ∧ (t.ctx c).lpend = pend ∧ SameOthers s t c ∧
      (x.run = .asleep → t = s.setCtx c { x with lpend := pend, run := .active }) ∧
      (x.run ≠ .asleep → x.run ≠ .off → t = s.setCtx c { x with lpend := pend }) ∧
      (x.run = .off → s.flag (Reg.HYC_CSTAT c) Fld.HYC_CSTAT_EXH = true → t = s.setCtx c { x with lpend := pend }) ∧
      (x.run = .off → s.flag (Reg.HYC_CSTAT c) Fld.HYC_CSTAT_EXH = false →
        (t.ctx c).run = .active ∧ (t.ctx c).pc = s.startAddr c ∧ (t.ctx c).npc = s.startAddr c + 4 ∧ (t.ctx c).g = Vector.replicate 32 0 ∧
        (t.ctx c).status = ⟨false, false, false, false, 0⟩ ∧ (t.ctx c).ldepth = 0)))

/-- The state that a return restores from the doublewords of a frame (R120, R176, R196, R197): the pair with its delay slot, g30, g31, tackrem
and status, the window only with a count above 0, and LVL only in the Lining level; at le it takes the loop decision, of which only lc
remains. Which pc is that of a delay slot saved, and that of a pair that is not sequential, is the model's choice (log 22), the loop decision too
(log 75).

GATE makes its checks in their order and then, through a call gate, begins an entry with cause code 0x11 into the descriptor's ring
and target, its saved pair that of the instruction after it, which at le is what the loop decision gives (R120, R182, R183, R189; the
decision there is the model's choice, log 75).

A fetch that faults, is refused or meets an uncorrectable error is taken as the fetch fault, the access error or the error of its
address; an event presented to a context that may take it begins an event entry, which claims at its sixth grant, and one that waits for an
access of its own takes neither (R174, R178, R191, R192,
R208). -/
def Obligations.ReturnsGatesAndEventEntries : Prop :=
  (∀ (s : State) (c : Ctx) (rs1 : Gpr), s.issues c .transfer →
    let x := s.ctx c
    let restored (y : Context) (b : List Byte) (cost : Nat) : Context :=
      let d (i : Nat) : Dword := BitVec.ofNat 64 (leNat ((b.drop (8 * i)).take 8))
      let pc : VAddr := (d 0).truncate 48 &&& ~~~3
      let npc : VAddr := (d 1).truncate 48 &&& ~~~3
      let count := (d 5).toNat % 8192
      let window : Bool := (d 2).getLsbD 4 && count != 0
      let ds := (d 3).getLsbD 16
      { y with
        pc := pc, npc := npc, slot := (ds && y.dsSaved.contains pc) || npc != pc + 4, annul := false, brpt := none,
        dsSaved := if ds = false then y.dsSaved else if y.dsSaved.contains pc then y.dsSaved.erase pc else y.dsSaved.drop 1,
        lc := if y.pc = y.le ∧ y.lc ≠ 0 then y.lc - 1 else y.lc,
        status := ⟨(d 2).getLsbD 6, window, (d 2).getLsbD 3, y.status.lvl && (d 2).getLsbD 2, (d 2).truncate 2⟩,
        tackrem := BitVec.ofNat 13 count, g := (y.g.set 30 (d 6)).set 31 (d 7),
        icount := y.icount + 1, slots := y.slots + cost }
    let f := 0x4060400 + c.val * 0x400 - 64 * max x.ldepth.toNat 1
    (x.status.lvl = true → x.heldKill = false → (∀ i, i < 8 → Sparse.get (f + 8 * i) s.ecc = none) →
      s.waitingAt 33 = 0 → (∀ p, s.l2Get p (lineOf f) = none) →
      ∃ t, exec (.eret c) s = .next t ∧ SameOthers s t c ∧ SameMachine s t c ∧
        t.ctx c = { restored x.flushShadows (s.bytes f 64) 8 with ldepth := BitVec.ofNat 5 (x.ldepth.toNat - 1) }) ∧
    (x.status.lvl = false → x.status.ring = 0 → x.heldKill = false →
      ∀ b u, ((s.fetched c).setCtx c x.flushShadows).readNow c 0 .load x.xsp 64 = .ok b u → (u.ctx c).heldKill = false →
      ∃ t, exec (.eret c) s = .next t ∧ t = u.setCtx c { restored (u.ctx c) b 8 with xsp := x.xsp + 64 }) ∧
    (x.status.lvl = false → x.status.ring = 0 →
      ∀ k u, ((s.fetched c).setCtx c x.flushShadows).readNow c 0 .load x.xsp 64 = .cause k u →
      exec (.eret c) s = .next ((u.setCtx c { u.ctx c with shadows := x.shadows }).takeSync c { code := 0x26, addr := x.xsp.zeroExtend 64 })) ∧
    (x.status.lvl = false → ∀ (d0 d1 : Nat) (v : State),
      let g := (x.rg rs1).toNat % 1024
      g < x.gtcount.toNat → (s.fetched c).readGate c ((x.gtbase.toNat + 16 * g) % 2 ^ 40) = .ok (d0, d1) v →
      gateValid d0 d1 = true → d1 / 16 / 2 ^ x.status.ring.toNat % 2 = 1 → d1 / 256 % 4 = 2 →
      ∀ b u, (v.setCtx c (v.ctx c).flushShadows).readNow c 0 .load (v.ctx c).xsp 64 = .ok b u →
      (leNat ((b.drop 24).take 8) % 256 = 0x11 → x.status.ring.toNat ≤ leNat ((b.drop 16).take 8) % 4 → (u.ctx c).heldKill = false →
        (u.ctx c).status.lvl = false →
        ∃ t, exec (.gate c rs1) s = .next t ∧ t = u.setCtx c { restored (u.ctx c) b 12 with xsp := (v.ctx c).xsp + 64 }) ∧
      (leNat ((b.drop 24).take 8) % 256 ≠ 0x11 →
        exec (.gate c rs1) s = .next (v.takeSync c { code := 0xD, addr := 0, sub := 5, num := g })))) ∧
  (∀ (s : State) (c : Ctx) (rs1 : Gpr), s.issues c .transfer →
    let x := s.ctx c
    let g := (x.rg rs1).toNat % 1024
    let ring := x.status.ring.toNat
    let u := s.fetched c
    let d := if x.pc = x.le ∧ x.lc ≠ 0 then (if x.lc = 1 then (x.pc + 4, x.pc + 8) else (x.ls, x.ls + 4)) else (x.pc + 4, x.pc + 8)
    let gfault (v : State) (sub : Nat) : State := v.takeSync c { code := 0xD, addr := 0, sub := sub, num := g }
    (x.status.lvl = true → exec (.gate c rs1) s = .next (gfault u 7)) ∧
    (x.status.lvl = false → x.gtcount.toNat ≤ g → exec (.gate c rs1) s = .next (gfault u 1)) ∧
    (x.status.lvl = false → g < x.gtcount.toNat → ∀ (d0 d1 : Nat) (v : State),
      u.readGate c ((x.gtbase.toNat + 16 * g) % 2 ^ 40) = .ok (d0, d1) v →
      let type := d1 / 256 % 4
      let valid := (type = 1 ∨ type = 2) ∧ d0 / 2 ^ 48 = 0 ∧ d0 % 4 = 0 ∧ d1 / 2 ^ 10 = 0 ∧ d1 / 8 % 2 = 0
      let caller := d1 / 16 / 2 ^ ring % 2 = 1
      (¬valid → exec (.gate c rs1) s = .next (gfault v 2)) ∧
      (valid → ¬caller → exec (.gate c rs1) s = .next (gfault v 3)) ∧
      (valid → caller → type = 1 → ring < d1 % 4 → exec (.gate c rs1) s = .next (gfault v 4)) ∧
      (valid → caller → type = 1 → d1 % 4 ≤ ring → v.ctx c = x → x.shadows = [] → x.xlim.toNat + 64 ≤ x.xsp.toNat →
        ∃ t, exec (.gate c rs1) s = .next t ∧
          t = v.setCtx c
            { x with
              icount := x.icount + 1, wait := .none, brpt := none, chunk := none, lc := if x.pc = x.le ∧ x.lc ≠ 0 then x.lc - 1 else x.lc,
              entry := some
                { kind := .gate (BitVec.ofNat 48 d0) (BitVec.ofNat 2 d1) (d1 / 4 % 2 = 1), code := 0x11, num := g, sub := 0, wr := false,
                  half := false, sh := false, ds := false, addr := 0, savedPc := d.1, savedNpc := d.2, claimed := false } }))) ∧
  (∀ (s : State) (c : Ctx),
    let x := s.ctx c
    let free := x.canIssue = true ∧ x.wait = .none ∧ x.shadowDue = false ∧ x.annul = false ∧ x.lpend = 0 ∧ x.haltDue = false
    let offered := free ∧ s.mayTake c = true
    (offered → ∀ r l u, s.fetch c = (.fault r l, u) →
      exec (.exceptionEntry c) s = .next
        ((u.setCtx c { u.ctx c with tfsr := BitVec.ofNat 6 (r % 16 + l % 4 * 16) }).takeSync c { code := 1, addr := x.pc.zeroExtend 64 })) ∧
    (offered → ∀ u, s.fetch c = (.refused, u) →
      exec (.exceptionEntry c) s = .next (u.takeSync c { code := 4, addr := x.pc.zeroExtend 64 })) ∧
    (offered → ∀ pa u, s.fetch c = (.uncorrectable pa, u) →
      exec (.exceptionEntry c) s = .next (u.takeSync c { code := 0x21, addr := BitVec.ofNat 64 (pa / 64 * 64) })) ∧
    (free → x.midGroup = false → x.shadows = [] → x.status.ie = true → x.status.lvl = false → x.status.tack = false → x.xlim.toNat + 64 ≤ x.xsp.toNat →
      ∀ n, s.presented c = some n →
      exec (.eventEntry c) s = .next
        (s.setCtx c
            { x with
              wait := .none, brpt := none, chunk := none,
              entry := some
                { kind := .event, code := 0x10, num := 0, sub := 0, wr := false, half := false, sh := false, ds := x.slot, addr := 0,
                  savedPc := x.pc, savedNpc := x.npc, claimed := false } })) ∧
    (x.wait ≠ .none → exec (.exceptionEntry c) s = .next s) ∧
    (x.status.ie = false ∨ x.status.lvl = true ∨ x.status.tack = true ∨ s.presented c = none ∨ x.wait ≠ .none → exec (.eventEntry c) s = .next s))

/-- The TLBI instructions remove from the three TLBs of all 16 cores exactly the entries that R211 names, TLBI.AS also the space's
target-buffer entries, at 2 slots, and change no other register or memory (R89, R166, R211).

On a cacheable line of an idle bank that only the context's quad holds, dirty: DC.CLN writes it back and keeps it clean, DC.CI writes it back
and removes it, DC.INV removes it unwritten; on any page that is not cacheable they do nothing more. That the write-back is checked in the name of
the context that wrote the line last, with the Lining bit as that context runs now, is the model's choice (log 68) (R12, R166, R217).

DC.ZERO leaves the whole line of a held line zero in the context's quad, without changing memory (R217).

A table walk that finds a leaf puts it into the TLBs and ends the wait, one that finds a fault is taken as the access's fault, and a refused
one or an uncorrectable table word as X or 0x21; a line fill that the firewall allows, at an idle target, puts the line's memory bytes into the quad
and ends the wait (R178, R207, R210, R215, R216). -/
def Obligations.TranslationAndCacheMaintenance : Prop :=
  (∀ (s : State) (c : Ctx) (rs1 rs2 : Gpr), s.issues c .plain → s.mayPrivileged c →
    let x := s.ctx c
    let va : VAddr := (x.rg rs1).truncate 48
    let asid : BitVec 12 := (x.rg rs2).truncate 12
    let removed (t : State) (p : TlbEntry → Bool) (q : TbEntry → Bool) : Prop :=
      (∀ k, t.core k =
        { (s.fetched c).core k with
          itlb := ((s.fetched c).core k).itlb.filter (fun e => !p e), dtlb := ((s.fetched c).core k).dtlb.filter (fun e => !p e),
          tlb2 := ((s.fetched c).core k).tlb2.filter (fun e => !p e), tbuf := ((s.fetched c).core k).tbuf.filter (fun e => !q e) }) ∧
      SameRegs x (t.ctx c) ∧ (t.ctx c).flags = x.flags ∧ Sequenced x (t.ctx c) 2 ∧ SameRest x (t.ctx c) ∧ SameOthers s t c ∧
      { t with ctxs := s.ctxs, cores := s.cores } = s
    (∃ t, exec (.tlbiVa c rs1 rs2) s = .next t ∧
      removed t (fun e => va.toNat / 2 ^ e.bits == e.vpn && (e.glob || e.asid == asid)) (fun _ => false)) ∧
    (∃ t, exec (.tlbiAs c rs2) s = .next t ∧ removed t (fun e => !e.glob && e.asid == asid) (fun e => e.asid == asid)) ∧
    (∃ t, exec (.tlbiAll c) s = .next t ∧ removed t (fun _ => true) (fun _ => false))) ∧
  (∀ (s : State) (c : Ctx) (rs1 : Gpr) (pa bank : Nat) (l : CLine), s.wf → s.issues c .plain → s.mayPrivileged c →
    let x := s.ctx c
    let q := quadOf (coreOf c)
    let va : VAddr := (x.rg rs1).truncate 48
    let ln := lineOf pa
    let found (acc : Access) (ty : MType) : Prop := ((s.fetched c).xlate c x.status.ring va acc).1 = .ok pa ty ∧
      SameButTlbs (s.fetched c) ((s.fetched c).xlate c x.status.ring va acc).2 (coreOf c)
    let writer : Who := match l.writer with
      | .ctx d _ => .ctx d (s.ctx d).status.lvl
      | w => w
    let request : Request := ⟨writer, .be, .fullLine l.bytes, 64 * ln, 64, true⟩
    let done (t : State) : Prop := SameRegs x (t.ctx c) ∧ (t.ctx c).flags = x.flags ∧ Sequenced x (t.ctx c) 1 ∧ SameRest x (t.ctx c)
    let written (t : State) : Prop := ∀ a, Memory.read t.mem a = if a / 64 = ln then l.bytes.getD (a % 64) 0 else Memory.read s.mem a
    (s.region (64 * ln) = .bank bank → s.region pa = .bank bank → s.waitingAt bank = 0 → s.firewall request = .allowed →
      s.l2Get q ln = some l → l.dirty = true → l.errs = [] → (∀ p, p ≠ q → s.l2Get p ln = none) →
      (found .dcRead .wb →
        (∃ t, exec (.dcCln c rs1) s = .next t ∧ done t ∧ written t ∧ t.l2Get q ln = some { l with dirty := false }) ∧
        (∃ t, exec (.dcCi c rs1) s = .next t ∧ done t ∧ written t ∧ (∀ p, t.l2Get p ln = none))) ∧
      (found .dcInv .wb →
        ∃ t, exec (.dcInv c rs1) s = .next t ∧ done t ∧ t.mem = s.mem ∧ (∀ p, t.l2Get p ln = none))) ∧
    (∀ ty, ty ≠ .wb →
      (found .dcRead ty → (∃ t, exec (.dcCln c rs1) s = .next t ∧ done t ∧ t.mem = s.mem ∧ t.quads = s.quads) ∧
        (∃ t, exec (.dcCi c rs1) s = .next t ∧ done t ∧ t.mem = s.mem ∧ t.quads = s.quads)) ∧
      (found .dcInv ty → ∃ t, exec (.dcInv c rs1) s = .next t ∧ done t ∧ t.mem = s.mem ∧ t.quads = s.quads))) ∧
  (∀ (s : State) (c : Ctx) (rs1 : Gpr) (pa : Nat) (l : CLine), s.issues c .plain → HeldClean s c pa l → CleanElsewhere s c pa →
    let x := s.ctx c
    let va : VAddr := (x.rg rs1).truncate 48 &&& ~~~63
    pa % 64 = 0 → s.region pa ≠ .rom → ((s.fetched c).xlate c x.status.ring va .dcZero).1 = .ok pa .wb →
    SameButTlbs (s.fetched c) ((s.fetched c).xlate c x.status.ring va .dcZero).2 (coreOf c) →
    ∃ t, exec (.dcZero c rs1) s = .next t ∧ SameRegs x (t.ctx c) ∧ (t.ctx c).flags = x.flags ∧ Sequenced x (t.ctx c) 1 ∧
      SameRest x (t.ctx c) ∧ SameOthers s t c ∧ SameOutsideCores s t ∧ LineWritten s t c pa (List.replicate 64 0) l) ∧
  (∀ (s : State) (c : Ctx), (s.ctx c).run = .active →
    let x := s.ctx c
    let k := coreOf c
    let q := quadOf k
    (∀ va acc half later e u, x.wait = .walk va acc half later → s.walk c va = (.leaf e, u) →
      let put : TlbEntry := if e.bits = 16 then { e with walk := (u.core k).walks + 1 } else e
      ∃ t, exec (.tableWalk c []) s = .next t ∧ t.ctx c = { u.ctx c with wait := .none } ∧ put ∈ (t.core k).tlb2 ∧
        (acc = .fetch → put ∈ (t.core k).itlb) ∧ (acc ≠ .fetch → put ∈ (t.core k).dtlb)) ∧
    (∀ va acc half u, x.wait = .walk va acc half [] → s.walk c va = (.refused, u) →
      exec (.tableWalk c []) s = .next ((u.setCtx c { u.ctx c with wait := .none }).takeSync c
        { code := 4, addr := va.zeroExtend 64, wr := acc.isWrite, half := half })) ∧
    (∀ va acc half a u, x.wait = .walk va acc half [] → s.walk c va = (.uncorrectable a, u) →
      exec (.tableWalk c []) s = .next ((u.setCtx c { u.ctx c with wait := .none }).takeSync c
        { code := 0x21, addr := BitVec.ofNat 64 (a / 64 * 64) })) ∧
    (∀ va acc half later r l u, x.wait = .walk va acc half later → s.walk c va = (.fault r l, u) →
      exec (.tableWalk c []) s = .next ((u.setCtx c { u.ctx c with wait := .none }).takeXlFault c acc va half r l)) ∧
    (∀ pa va half, x.wait = .fill pa va .load half → s.memHeld pa = false →
      s.firewall ⟨.ctx c x.status.lvl, x.missClass, .read, 64 * lineOf pa, 64, true⟩ = .allowed →
      (∀ t, s.targetOf (64 * lineOf pa) = some t → s.waitingAt t = 0) → (∀ p, s.l2Get p (lineOf pa) = none) →
      (∀ i, i < 8 → Sparse.get (located (64 * lineOf pa + 8 * i)) s.ecc = none) →
      (((s.quad q).l2.filter (fun y => y.line % 2048 == lineOf pa % 2048)).length < 16) →
      (s.fab.snoop.filter (fun y => y.1 != lineOf pa && y.1 % 16384 == lineOf pa % 16384)).length < 16 →
      ∃ t, exec (.lineFillComplete c []) s = .next t ∧ t.ctx c = { x with wait := .none } ∧ t.mem = s.mem ∧
        ∃ l, t.l2Get q (lineOf pa) = some l ∧ l.dirty = false ∧ l.errs = [] ∧ l.bytes = s.bytes (64 * lineOf pa) 64))

/-- A PINX instruction that the PIN block permits completes at 1 slot and writes no flags: the reads give rd the mapped pins' ball levels,
the output register or the enable register, with 0 in bits that have no pin mapped, and the writes change only mapped bits; any other PINX
instruction raises P (R164, R467). -/
def Obligations.PinPortInstructions : Prop :=
  ∀ (s : State) (c : Ctx) (r : Gpr), s.issues c .plain →
    let x := s.ctx c
    let k := coreOf c
    let y := s.core k
    let w := Reg.PIN_PPCTL k
    let permitted : Prop := (x.status.lvl = true ∨ x.status.ring.toNat ≤ s.fld w Fld.PIN_PPCTL_RING) ∧
      s.fld w Fld.PIN_PPCTL_CTX / 2 ^ (c.val % 8) % 2 = 1
    let m : Word := if s.flag w Fld.PIN_PPCTL_EN = true ∧ ¬ (s.lockstep = true ∧ k = 15) then s.reg (Reg.PIN_PPMSK k) else 0
    let v : Word := (x.rg r).truncate 32
    let wrote (t : State) (out oe : Word) : Prop :=
      SameRegs x (t.ctx c) ∧ (t.ctx c).flags = x.flags ∧ Sequenced x (t.ctx c) 1 ∧ SameRest x (t.ctx c) ∧ SameOthers s t c ∧
      { t with ctxs := s.ctxs, cores := s.cores } = s ∧ (∀ j, j ≠ k → t.core j = s.core j) ∧
      { t.core k with itlb := y.itlb, tlb2 := y.tlb2, l1i := y.l1i } = { (s.takeGrant c).core k with pinOut := out, pinOe := oe }
    let mixed (old new : Word) : Word := (old &&& ~~~m) ||| (new &&& m)
    (permitted →
      (∃ t, exec (.pinRdo c r) s = .next t ∧ Computed s t c r ((y.pinOut &&& m).zeroExtend 64) x.flags 1) ∧
      (∃ t, exec (.pinRde c r) s = .next t ∧ Computed s t c r ((y.pinOe &&& m).zeroExtend 64) x.flags 1) ∧
      (∃ (t : State) (b : Word), exec (.pinIn c r) s = .next t ∧ Computed s t c r (b.zeroExtend 64) x.flags 1 ∧
        ∀ i, i < 32 → b.getLsbD i = (m.getLsbD i && s.ballLevel (32 * s.fld w Fld.PIN_PPCTL_PORT + i))) ∧
      (∃ t, exec (.pinOut c r) s = .next t ∧ wrote t (mixed y.pinOut v) y.pinOe) ∧
      (∃ t, exec (.pinSet c r) s = .next t ∧ wrote t (mixed y.pinOut (y.pinOut ||| v)) y.pinOe) ∧
      (∃ t, exec (.pinClr c r) s = .next t ∧ wrote t (mixed y.pinOut (y.pinOut &&& ~~~v)) y.pinOe) ∧
      (∃ t, exec (.pinTgl c r) s = .next t ∧ wrote t (mixed y.pinOut (y.pinOut ^^^ v)) y.pinOe) ∧
      (∃ t, exec (.pinOe c r) s = .next t ∧ wrote t y.pinOut (mixed y.pinOe v))) ∧
    (¬ permitted → ∀ i ∈ ([.pinIn c r, .pinOut c r, .pinSet c r, .pinClr c r, .pinTgl c r, .pinOe c r, .pinRdo c r, .pinRde c r] :
        List Instr), exec i s = .next ((s.fetched c).takeSync c { code := 5, addr := 0 }))

/-- Wheels and strict timing (R78, R81 to R83): a wheel write stages both halves, an owner of 9 to 15 as 8, unless it would leave a strict context
incorrectly spaced; a STRICT write is refused to a context spaced incorrectly in the wheel in force or the staged one; at the first position 0
after they have reached the core the staged values take effect together, with the wheel-applied event, and not before. Locked wheels, and core 15 under lockstep, ignore the writes. -/
def Obligations.WheelsAndStrictTiming : Prop :=
  ∀ (s : State) (who : Who) (k : Fin 16) (c : Ctx) (data : Word), s.wf →
    let stat : Nat := Reg.HYC_CORESTAT k
    let cctl (j : Nat) : Nat := Reg.HYC_CCTL (8 * k.val + j)
    let cstat (j : Nat) : Nat := Reg.HYC_CSTAT (8 * k.val + j)
    let y := s.core k
    let owner (w : Word) (i : Nat) : Nat := w.toNat / 16 ^ i % 16
    let fits (lo : Word) : Prop := ∀ j, j < 8 → s.flag (cctl j) Fld.HYC_CCTL_STRICT = true → WellSpaced lo y.wheelHi j
    let away : Prop := s.lockstep = true ∧ k = 15
    (away ∨ s.locked (Reg.HYC_WHEELLO k) = true → exec (.wheelWrite who k data) s = .next s) ∧
    (∀ lo : Word, (∀ i, i < 8 → owner lo i = min (owner data i) 8) → ¬ away → s.locked (Reg.HYC_WHEELLO k) = false →
      (fits lo → ∃ t, exec (.wheelWrite who k data) s = .next t ∧ t.core k = { y with staged := some (lo, y.wheelHi), reach := (s.quad (quadOf k)).crossing } ∧
        t.reg stat = Fld.HYC_CORESTAT_WPEND.put 1 (s.reg stat) ∧ RegsAndEvents s t [stat] [] ∧
        (∀ j, j ≠ k → t.core j = s.core j) ∧ { t with dev := s.dev, cores := s.cores } = s) ∧
      (¬ fits lo → ∃ t, exec (.wheelWrite who k data) s = .next t ∧ t.reg stat = Fld.HYC_CORESTAT_WREF.put 1 (s.reg stat) ∧
        RegsAndEvents s t [stat] [1424 + 7 * k.val + 1] ∧ OnlyRegs s t)) ∧
    (∀ p, (y.staged ≠ none ∨ y.strictStaged = true) → s.positionZero (quadOf k) y.reach = some p →
      p % 16 = 0 ∧ y.reach ≤ p ∧
      ∃ t, exec (.wheelApplied k) s = .next t ∧ t.core k = { y with staged := none, strictStaged := false, wheelFrom := p } ∧
        (∀ lo hi, y.staged = some (lo, hi) → t.reg (Reg.HYC_WHEELLO k) = lo ∧ t.reg (Reg.HYC_WHEELHI k) = hi) ∧
        (y.staged = none → t.reg (Reg.HYC_WHEELLO k) = s.reg (Reg.HYC_WHEELLO k) ∧ t.reg (Reg.HYC_WHEELHI k) = s.reg (Reg.HYC_WHEELHI k)) ∧
        (∀ j, j < 8 → t.reg (cstat j) = Fld.HYC_CSTAT_STRICTA.put (s.fld (cctl j) Fld.HYC_CCTL_STRICT) (s.reg (cstat j))) ∧
        t.reg stat = Fld.HYC_CORESTAT_WPEND.put 0 (s.reg stat) ∧
        RegsAndEvents s t ([stat, Reg.HYC_WHEELLO k, Reg.HYC_WHEELHI k] ++ (List.range 8).map cstat) [1424 + 7 * k.val + 2] ∧
        (∀ j, j ≠ k → t.core j = s.core j) ∧ { t with dev := s.dev, evc := s.evc, cores := s.cores } = s) ∧
    ((y.staged = none ∧ y.strictStaged = false) ∨ s.positionZero (quadOf k) y.reach = none → exec (.wheelApplied k) s = .next s) ∧
    (s.lockedOut c = true ∨ s.locked (Reg.HYC_CCTL c) = true → exec (.cctlWrite who c data) s = .next s) ∧
    (s.lockedOut c = false → s.locked (Reg.HYC_CCTL c) = false →
      let z := s.core (coreOf c)
      let a := Reg.HYC_CCTL c
      let st := Reg.HYC_CORESTAT (coreOf c)
      let good : Prop := WellSpaced (s.reg (Reg.HYC_WHEELLO (coreOf c))) (s.reg (Reg.HYC_WHEELHI (coreOf c))) (c.val % 8) ∧
        ∀ lo hi, z.staged = some (lo, hi) → WellSpaced lo hi (c.val % 8)
      let strict := Fld.HYC_CCTL_STRICT.get data
      let tb := Fld.HYC_CCTL_TBOFF.put (Fld.HYC_CCTL_TBOFF.get data) (s.reg a)
      ∃ t, exec (.cctlWrite who c data) s = .next t ∧
        ((strict = 1 ∧ ¬ good) → t.reg a = tb ∧ t.reg st = Fld.HYC_CORESTAT_WREF.put 1 (s.reg st) ∧
          RegsAndEvents s t [a, st] [1424 + 7 * (coreOf c).val + 1] ∧ OnlyRegs s t) ∧
        ((strict = 0 ∨ good) → t.reg a = Fld.HYC_CCTL_STRICT.put strict tb ∧ t.reg st = Fld.HYC_CORESTAT_WPEND.put 1 (s.reg st) ∧
          t.core (coreOf c) = { z with strictStaged := true, reach := (s.quad (quadOf (coreOf c))).crossing } ∧ RegsAndEvents s t [a, st] [] ∧
          (∀ j, j ≠ coreOf c → t.core j = s.core j) ∧ { t with dev := s.dev, cores := s.cores } = s)) ∧
    (exec (.targetBufferFlush who k) s = .next (if s.lockstep = true ∧ k = 15 then s else s.setCore k { y with tbuf := [] }))

/-- Starts and kills (R97 to R101, R119, R248): START acts on an Off context alone and gives it its start values, after the event controller has
released what it owned; KILL begins the kill of an Active, Asleep or Halted context, is held for one in the Lining level that the writer may not
break, and finds a stopped one Off; the end of a kill leaves the context Off with KILLED and KDONE set and its core's event raised.

The first lockstep mismatch sets FAULT.LSMIS and the split with its kind, raises core 14's event and makes the lockstep cause pending
in every context of core 14 that is not Off; a later one, or one outside lockstep, changes nothing (R104, R105, R187). -/
def Obligations.ContextsAndLockstep : Prop :=
  (∀ (s : State) (who : Who) (c : Ctx), s.wf →
    let x := s.ctx c
    let k := coreOf c
    let stat := Reg.HYC_CSTAT c
    let core := Reg.HYC_CORESTAT k
    let kdone (t : State) : Prop :=
      t.reg core = Fld.HYC_CORESTAT_KDONE.put (s.fld core Fld.HYC_CORESTAT_KDONE ||| 2 ^ (c.val % 8)) (s.reg core)
    let others (t : State) : Prop := ∀ d, d ≠ c → t.ctx d = s.ctx d
    (s.lockedOut c = true → exec (.contextStart who c) s = .next s ∧ exec (.contextKill who c) s = .next s) ∧
    (x.run = .off → s.evc.offSeen.getLsbD c.val = false →
      exec (.contextStart who c) s = exec (.contextStart who c) (s.seeOff c)) ∧
    (s.lockedOut c = false → x.run = .off → s.evc.offSeen.getLsbD c.val = true → ∃ t, exec (.contextStart who c) s = .next t ∧
      (let y := t.ctx c
       y.run = .active ∧ y.pc = s.startAddr c ∧ y.npc = s.startAddr c + 4 ∧ (∀ r, y.rg r = 0) ∧
       y.status = ⟨false, false, false, false, 0⟩ ∧ y.flags = ⟨false, false, false, false, false⟩ ∧ y.fpcsr = 0 ∧ y.lc = 0 ∧ y.ls = 0 ∧
       y.le = 0 ∧ y.rsp = 0 ∧ y.rsbase = 0 ∧ y.rstop = 0 ∧ y.asid = 0 ∧ y.icount = 0 ∧ y.ldepth = 0 ∧ y.latch = none ∧
       y.emword = x.emword ∧ y.vbase = x.vbase ∧ y.xsp = x.xsp ∧ y.xlim = x.xlim ∧ y.xcause = x.xcause ∧ y.xaddr = x.xaddr ∧
       y.gtbase = x.gtbase ∧ y.gtcount = x.gtcount ∧ y.tackrem = x.tackrem ∧ y.lcause = x.lcause ∧ y.lxaddr = x.lxaddr ∧
       y.lpend = x.lpend ∧ y.ptroot = x.ptroot ∧ y.tfsr = x.tfsr) ∧
      t.reg stat = Fld.HYC_CSTAT_EXH.put 0 (s.reg stat) ∧ (∀ a, a ≠ stat → t.reg a = s.reg a) ∧ others t ∧
      { t with dev := s.dev, ctxs := s.ctxs, evc := { t.evc with offSeen := s.evc.offSeen } } = s ∧
      ∀ d : Ctx, t.evc.offSeen.getLsbD d.val = (s.evc.offSeen.getLsbD d.val && d != c)) ∧
    (x.run ≠ .off → exec (.contextStart who c) s = .next s) ∧
    (x.run = .killing → exec (.contextKill who c) s = .next s) ∧
    (s.lockedOut c = false → x.run = .off → s.flag stat Fld.HYC_CSTAT_STOPPED = true → ∃ t, exec (.contextKill who c) s = .next t ∧
      t.reg stat = Fld.HYC_CSTAT_ABLATE.put 1 (s.reg stat) ∧ kdone t ∧ RegsAndEvents s t [stat, core] [1424 + 7 * k.val] ∧ OnlyRegs s t) ∧
    (x.run = .off → s.flag stat Fld.HYC_CSTAT_STOPPED = false → exec (.contextKill who c) s = .next s) ∧
    (s.lockedOut c = false → x.run = .active ∨ x.run = .asleep ∨ x.run = .halted →
      (x.status.lvl = true → who.lining = false → ∃ t, exec (.contextKill who c) s = .next t ∧
        t = s.setCtx c { x with heldKill := true }) ∧
      (x.status.lvl = false ∨ who.lining = true → ∃ t, exec (.contextKill who c) s = .next t ∧ (t.ctx c).run = .killing ∧
        (t.ctx c).entry = none ∧ (t.ctx c).wait = .none ∧ (t.ctx c).g = x.g ∧ (t.ctx c).pc = x.pc ∧ others t ∧
        (∀ q ∈ t.evc.claims, q.ctx = c → q.dead = true) ∧ (∀ p ∈ t.evc.answers, p.1 ≠ c.val) ∧
        ((∀ e, x.entry = some e → e.claimed = false) → (∀ q ∈ s.evc.claims, q.ctx ≠ c) → (∀ p ∈ s.evc.answers, p.1 ≠ c.val) →
          t = s.setCtx c (t.ctx c)))) ∧
    (x.run = .killing → x.lpend = 0 ∨ s.flag stat Fld.HYC_CSTAT_EXH = true → ∃ t, exec (.killComplete c) s = .next t ∧ t.ctx c = { x with run := .off } ∧
      t.reg stat = Fld.HYC_CSTAT_KILLED.put 1 (s.reg stat) ∧ kdone t ∧ RegsAndEvents s t [stat, core] [1424 + 7 * k.val] ∧ others t ∧
      (∀ e, e ∈ (t.core k).tbuf ↔ e ∈ (s.core k).tbuf ∧ e.slot ≠ c.val % 8) ∧
      { t with dev := s.dev, evc := s.evc, ctxs := s.ctxs, cores := s.cores } = s) ∧
    (x.run = .killing → x.lpend ≠ 0 → s.flag stat Fld.HYC_CSTAT_EXH = false → ∃ t, exec (.killComplete c) s = .next t ∧
      (t.ctx c).run = .active ∧ (t.ctx c).pc = s.startAddr c ∧ (t.ctx c).lpend = x.lpend ∧ others t) ∧
    (x.run ≠ .killing → exec (.killComplete c) s = .next s)) ∧
  (∀ (s : State) (kind : BitVec 3), s.wf → 1 ≤ kind.toNat → kind.toNat ≤ 5 →
    (s.lockstep = true → s.flag Reg.HYC_LSSTAT Fld.HYC_LSSTAT_SPLIT = false → ∃ t, exec (.lockstepMismatch kind) s = .next t ∧
      t.reg Reg.SYS_FAULT = Fld.SYS_FAULT_LSMIS.put 1 (s.reg Reg.SYS_FAULT) ∧
      t.reg Reg.HYC_LSSTAT = Fld.HYC_LSSTAT_KIND.put kind.toNat (Fld.HYC_LSSTAT_SPLIT.put 1 (Fld.HYC_LSSTAT_MIS.put 1 (s.reg Reg.HYC_LSSTAT))) ∧
      RegsAndEvents s t [Reg.SYS_FAULT, Reg.HYC_LSSTAT] [1424 + 7 * 14 + 3] ∧
      (∀ d : Ctx, t.ctx d = if d.val / 8 = 14 ∧ (s.ctx d).run ≠ .off then
        { s.ctx d with lpend := (s.ctx d).lpend ||| 1, run := if (s.ctx d).run = .asleep then .active else (s.ctx d).run } else s.ctx d) ∧
      { t with dev := s.dev, evc := s.evc, ctxs := s.ctxs } = s) ∧
    (s.lockstep = false ∨ s.flag Reg.HYC_LSSTAT Fld.HYC_LSSTAT_SPLIT = true → exec (.lockstepMismatch kind) s = .next s))

/-- Halts and resumes of the debugger (R528, R529): each bit of the word asks for its context's halt, which an Asleep context takes at once
and an Active one at its next boundary, a context in the Lining level only for a request with the Lining bit; a resume gives a Halted context
its state back. NOHALT keeps requests without the Lining bit out. That a request stands as a mark until its boundary and merges with a later one is the
model's choice (log 55).

DBG_RDATL reaches the register that DBG_RSEL selects (R530): a read answers its low half and latches its high half for the reader, a
write sets it from the word and DBG_RDATH; where the context is not Halted, the register is not listed or the Lining bit is missing, RERR
is set, a read answers 0 and a write changes no register of the context.

The test access port (R533): BYPASS and every code that is not listed select the 1-bit register, IDCODE captures SYS_DEVID, DBGACC
captures the last data with BUSY and REF, which DBG_TDO gives bit by bit while the new value is shifted in, and an update with no access
outstanding, out of a device reset (R490), clears REF and issues one coherent word access at its address: refused by the firewall with REF set and 0
as the data of a write, joined to the queue of its target, performed at its register, or held at its port or behind an earlier access to its block
(R18). What BYPASS captures, the states of the controller, the coherence and the dropped low address bits are the model's choice (logs 58, 82, 28,
88). -/
def Obligations.DebugUnit : Prop :=
  (∀ (s : State) (who : Who) (w : Fin 4) (c : Ctx) (data : Word), s.wf →
    let barred : Prop := s.flag Reg.DBG_CTRL Fld.DBG_CTRL_NOHALT = true ∧ who.lining = false
    let asked (d : Ctx) : Bool := d.val / 32 == w.val && data.getLsbD (d.val % 32)
    let held (x : Context) : Context := { x with haltReq := some (who.lining || x.haltReq == some true) }
    let halted (x : Context) (r : Run) : Context := { x with run := .halted, resumeTo := r, haltReq := none, brpt := none }
    let sleeper (d : Ctx) : Bool := asked d && !s.lockedOut d && (s.ctx d).run == .asleep && (!(s.ctx d).status.lvl || who.lining)
    (barred → exec (.haltRequest who w data) s = .next s ∧ exec (.contextResume who w data) s = .next s) ∧
    (¬ barred → ∃ t, exec (.haltRequest who w data) s = .next t ∧
      (∀ d, t.ctx d =
        if sleeper d then halted (s.ctx d) .asleep
        else if asked d && !s.lockedOut d && ((s.ctx d).run == .active || (s.ctx d).run == .asleep) then held (s.ctx d)
        else s.ctx d) ∧
      RegsAndEvents s t [] ((allCtx.filter sleeper).map (fun _ => 1360)) ∧
      { t with dev := s.dev, evc := s.evc, ctxs := s.ctxs } = s) ∧
    (¬ barred → ∃ t, exec (.contextResume who w data) s = .next t ∧
      (∀ d, t.ctx d = if asked d && (s.ctx d).run == .halted then
          { s.ctx d with run := if (s.ctx d).resumeTo = .asleep ∧ (s.ctx d).lpend ≠ 0 then .active else (s.ctx d).resumeTo }
        else s.ctx d) ∧ { t with ctxs := s.ctxs } = s) ∧
    (let x := s.ctx c
     let due : Prop := ∃ l, x.haltReq = some l ∧ (l = true ∨ x.status.lvl = false)
     (x.canIssue = true → x.wait = .none → x.annul = false → x.midGroup = false → due → ∃ t, exec (.contextHalt c) s = .next t ∧ t.ctx c = halted x .active ∧
       SameOthers s t c ∧ RegsAndEvents s t [] [1360] ∧ { t with dev := s.dev, evc := s.evc, ctxs := s.ctxs } = s) ∧
     (x.canIssue = false ∨ x.wait ≠ .none ∨ x.annul = true ∨ x.midGroup = true ∨ ¬ due → exec (.contextHalt c) s = .next s))) ∧
  (∀ (s : State) (who : Who) (data : Word), s.wf →
    let n := s.fld Reg.DBG_RSEL Fld.DBG_RSEL_REG
    let c : Ctx := Fin.ofNat 128 (s.fld Reg.DBG_RSEL Fld.DBG_RSEL_CTX)
    let x := s.ctx c
    let listed : Prop := n ≤ 0x21 ∨ (0x1000 ≤ n ∧ n ≤ 0x1FFF ∧ Hymota.readable (BitVec.ofNat 12 (n - 0x1000)) = true ∧
      (who.lining = true ∨ ((readRing (n - 0x1000)).isSome = true ∧ n ≠ 0x1040)))
    let v : Dword := BitVec.ofNat 64 (data.toNat + (s.reg Reg.DBG_RDATH).toNat * 2 ^ 32)
    let value : Dword := if n < 32 then x.rg (BitVec.ofNat 5 n) else if n = 0x20 then x.pc.zeroExtend 64
      else if n = 0x21 then x.npc.zeroExtend 64 else x.creg c (n - 0x1000)
    (x.run = .halted → listed →
      (∃ t, exec (.dbgRdatlRead who) s = .next t ∧
        Sparse.get who.id t.dbg.latches = some (BitVec.ofNat 32 (value.toNat / 2 ^ 32)) ∧
        Sparse.get who.id t.fab.resp = some (.data (leBytes 4 (value.toNat % 2 ^ 32))) ∧
        { t with dbg := s.dbg, fab := { t.fab with resp := s.fab.resp } } = s) ∧
      (n < 32 → ∃ t, exec (.dbgRdatlWrite who data) s = .next t ∧ WroteReg x (t.ctx c) (BitVec.ofNat 5 n) v ∧
        { t.ctx c with g := x.g } = x ∧ SameOthers s t c ∧ { t with ctxs := s.ctxs } = s) ∧
      (n = 0x20 → ∃ t, exec (.dbgRdatlWrite who data) s = .next t ∧ t = s.setCtx c (t.ctx c) ∧
        (t.ctx c).pc = BitVec.ofNat 48 (v.toNat % 2 ^ 48 / 4 * 4) ∧ (t.ctx c).npc = x.npc) ∧
      (n = 0x21 → ∃ t, exec (.dbgRdatlWrite who data) s = .next t ∧ t = s.setCtx c (t.ctx c) ∧
        (t.ctx c).npc = BitVec.ofNat 48 (v.toNat % 2 ^ 48 / 4 * 4) ∧ (t.ctx c).pc = x.pc) ∧
      (0x1000 ≤ n → exec (.dbgRdatlWrite who data) s =
        .next (if Hymota.writable (BitVec.ofNat 12 (n - 0x1000)) = true then s.setCtx c (x.setCreg (n - 0x1000) v) else s))) ∧
    (x.run ≠ .halted ∨ ¬ listed →
      (∃ t, exec (.dbgRdatlRead who) s = .next t ∧ t.reg Reg.DBG_STAT = Fld.DBG_STAT_RERR.put 1 (s.reg Reg.DBG_STAT) ∧
        Sparse.get who.id t.fab.resp = some (.data [0, 0, 0, 0]) ∧ (∀ a, a ≠ Reg.DBG_STAT → t.reg a = s.reg a) ∧
        (who ≠ .debug → { t with dev := s.dev, fab := { t.fab with resp := s.fab.resp } } = s)) ∧
      (∃ t, exec (.dbgRdatlWrite who data) s = .next t ∧ t.reg Reg.DBG_STAT = Fld.DBG_STAT_RERR.put 1 (s.reg Reg.DBG_STAT) ∧
        (∀ a, a ≠ Reg.DBG_STAT → t.reg a = s.reg a) ∧ { t with dev := s.dev } = s))) ∧
  (∀ (s : State) (code : BitVec 4) (dr : BitVec 73),
    let d := s.dbg
    let sel (ir : BitVec 4) (v : BitVec 73) (p : TapState) : State := { s with dbg := { d with tapIr := ir, tapDr := v, tap := p } }
    let captured : Nat := d.tapData.toNat + d.tapOutstanding.isSome.toNat * 2 ^ 32 + d.tapRefused.toNat * 2 ^ 33
    let scanned : Dbg := { d with tapIr := 8, tapDr := dr, tap := .updateDr, tapOut := (List.range 73).map (fun i => captured.testBit i) }
    (code ≠ 0xE → code ≠ 8 → exec (.tapBypass code) s = .next (sel code 0 .updateIr)) ∧
    exec .tapIdcode s = .next (sel 0xE (devid.zeroExtend 73) .captureDr) ∧
    exec .dbgaccCapture s = .next (sel 8 (BitVec.ofNat 73 captured) .captureDr) ∧
    (d.tapOutstanding ≠ none ∨ s.sys.boot = .held → exec (.dbgaccUpdate dr) s = .next { s with dbg := scanned }) ∧
    (d.tapOutstanding = none → s.sys.boot ≠ .held →
      let u : State := { s with dbg := { scanned with tapOutstanding := some dr, tapRefused := false } }
      let a := dr.toNat / 2 ^ 32 % 2 ^ 40 / 4 * 4
      let r : Request := ⟨.debug, .be, if dr.getLsbD 72 then .write (leBytes 4 dr.toNat) else .read, a, 4, true⟩
      let waits : Prop := s.ringHeld a = true ∨ ∃ q ∈ s.fab.ring, q.1 = .debug ∧ blockIndex q.2.1 = blockIndex a
      (∀ k g, s.firewall r = .refused k g → ∃ t, exec (.dbgaccUpdate dr) s = .next t ∧ t.dbg.tapOutstanding = none ∧
        t.dbg.tapRefused = true ∧ t.dbg.tapData = (if dr.getLsbD 72 then 0 else d.tapData) ∧
        Sparse.get 199 t.fab.resp = some (.refused k) ∧ t.mem = s.mem ∧ t.ctxs = s.ctxs) ∧
      (∀ b, s.firewall r = .allowed → s.portHeld a = false → s.targetOf a = some b → (s.arb b).room b .be = true →
        exec (.dbgaccUpdate dr) s = .next (u.setArb b ((s.arb b).push r))) ∧
      (∀ b, s.firewall r = .allowed → s.targetOf a = some b → s.portHeld a = true ∨ (s.arb b).room b .be = false →
        exec (.dbgaccUpdate dr) s = .next { u with fab := { s.fab with port := s.fab.port ++ [r] } }) ∧
      (s.firewall r = .allowed → s.targetOf a = none → ¬ waits → s.regHeld a = false →
        exec (.dbgaccUpdate dr) s = .next (if dr.getLsbD 72 then (u.landWrite .debug a (dr.truncate 32) 0).respond .debug .done
          else u.readReg .debug a 0)) ∧
      (s.firewall r = .allowed → s.targetOf a = none → waits →
        exec (.dbgaccUpdate dr) s = .next (u.onRing .debug a (if dr.getLsbD 72 then some (dr.truncate 32) else none)))))

/-- Slot reservations and scrubbers (R229, R231, R232, R235, R236): a reservation is refused whole above 48 slots, else staged until it is
applied; a scrub read of a line with no error only moves on, a full pass raises its event, and one inverted bit is corrected, counted and
recorded with its syndrome, while memory reads as before. A channel in self-refresh and retained banks are not scrubbed (R481).

Machine checks and training (R186, R236, R237, R489): a machine check is recorded where none is and becomes pending in the Lining service
context; the first nonzero DRAMSZ starts the training of every channel and later ones only change the size; a trained channel sets CHRDY, and
one that fails has no address from then on. That a failed training (KIND 3) also sends 0x20 to the service context is the model's choice (log 61). -/
def Obligations.MemoryChecksAndTraining : Prop :=
  (∀ (s : State) (who : Who) (n : Fin 4) (data : Word) (u : Upsets), s.wf →
    let a := Reg.MEM_RSV n
    let asked := Fld.MEM_RSV_RT0.get data + Fld.MEM_RSV_RT1.get data
    let at' (t : State) : Ddr := t.ddr[n.val]
    let lines := s.dramSize / 256
    let clean (l : Nat) : Prop := ∀ w, l ≤ w → w < l + 64 → Sparse.get (located w) s.ecc = none
    let runs : Prop := s.flag Reg.MEM_SCRUB Fld.MEM_SCRUB_DEN = true ∧ s.fld Reg.MEM_STAT Fld.MEM_STAT_CHRDY / 2 ^ n.val % 2 = 1 ∧ 0 < lines ∧
      s.sys.standby < 3
    let fmRuns : Prop := s.flag Reg.MEM_SCRUB Fld.MEM_SCRUB_FEN = true ∧ s.sys.standby < 4
    let moved (x : Nat) : Ddr := { at' s with scrub := x }
    let i := (at' s).scrub % lines
    let j := s.fmScrub % 524288
    (s.locked a = true → exec (.rsvWrite who n data) s = .next s) ∧
    (s.locked a = false → 48 < asked → ∃ t, exec (.rsvWrite who n data) s = .next t ∧
      t.reg Reg.MEM_STAT = Fld.MEM_STAT_RREF.put 1 (s.reg Reg.MEM_STAT) ∧ RegsAndEvents s t [Reg.MEM_STAT] [] ∧ OnlyRegs s t) ∧
    (s.locked a = false → asked ≤ 48 → ∃ (t : State) (v : Word), exec (.rsvWrite who n data) s = .next t ∧
      t = s.setDdr n { at' s with stagedRsv := some v } ∧ Fld.MEM_RSV_RT0.get v = Fld.MEM_RSV_RT0.get data ∧
      Fld.MEM_RSV_RT1.get v = Fld.MEM_RSV_RT1.get data ∧ Fld.MEM_RSV_BKMIN.get v = min 8 (Fld.MEM_RSV_BKMIN.get data)) ∧
    (∀ v, (at' s).stagedRsv = some v → ∃ t, exec (.rsvApply n) s = .next t ∧ t.reg a = v ∧ at' t = { at' s with stagedRsv := none, slot := 0 } ∧
      RegsAndEvents s t [a] [] ∧ { t with dev := s.dev, ddr := s.ddr } = s ∧ ∀ m, m ≠ n → t.ddr[m.val] = s.ddr[m.val]) ∧
    ((at' s).stagedRsv = none → exec (.rsvApply n) s = .next s) ∧
    (¬ runs → exec (.ddrScrubRead n u) s = .next s) ∧
    (runs → clean (channelAddr n (64 * i)) →
      (i + 1 < lines → exec (.ddrScrubRead n []) s = .next (s.setDdr n (moved (i + 1)))) ∧
      (i + 1 = lines → exec (.ddrScrubRead n []) s = .next ((s.setDdr n (moved 0)).raise (1219 + n.val)))) ∧
    (¬ fmRuns → exec (.fmScrubRead u) s = .next s) ∧
    (fmRuns → clean (0x1000000 + 64 * j) →
      (j + 1 < 524288 → exec (.fmScrubRead []) s = .next { s with fmScrub := j + 1 }) ∧
      (j + 1 = 524288 → exec (.fmScrubRead []) s = .next (State.raise { s with fmScrub := 0 } 1223)) ∧
      ∀ w p, w < 8 → p < 72 → s.flag Reg.MEM_ECCSTAT Fld.MEM_ECCSTAT_VALID = false → s.reg Reg.MEM_CECNT ≠ 0xFFFFFFFF →
        s.ecc = [] → j + 1 < 524288 →
        let e := 0x1000000 + 64 * j + 8 * w
        ∃ t, exec (.fmScrubRead [⟨.memory, e, BitVec.ofNat 72 (2 ^ p)⟩]) s = .next t ∧ t.mem = s.mem ∧ t.ecc = s.ecc ∧ t.fmScrub = j + 1 ∧
          t.reg Reg.MEM_CECNT = s.reg Reg.MEM_CECNT + 1 ∧ t.fld Reg.MEM_ECCSTAT Fld.MEM_ECCSTAT_SYN = 128 + p ∧
          t.flag Reg.MEM_ECCSTAT Fld.MEM_ECCSTAT_VALID = true ∧ t.flag Reg.MEM_ECCSTAT Fld.MEM_ECCSTAT_UE = false ∧
          t.fld Reg.MEM_ECCSTAT Fld.MEM_ECCSTAT_SRC = 4 ∧ t.reg Reg.MEM_ECCADDRL = BitVec.ofNat 32 e ∧
          RegsAndEvents s t [Reg.MEM_CECNT, Reg.MEM_ECCSTAT, Reg.MEM_ECCADDRL, Reg.MEM_ECCADDRH] [1216] ∧
          { t with dev := s.dev, evc := s.evc, fmScrub := s.fmScrub } = s)) ∧
  (∀ (s : State) (who : Who) (n : Fin 4) (kind : Fin 3) (data : Word), s.wf →
    let mc := Reg.MEM_MCSTAT n
    let new : Prop := s.flag mc Fld.MEM_MCSTAT_VALID = false
    let svc := s.serviceCtx
    let x := s.ctx svc
    let at' (t : State) (m : Fin 4) : Ddr := t.ddr[m.val]
    let check (t : State) (k : Nat) : Prop :=
      (new → t.reg mc = Fld.MEM_MCSTAT_KIND.put k (Fld.MEM_MCSTAT_VALID.put 1 (s.reg mc))) ∧ (¬ new → t.reg mc = s.reg mc) ∧
      t.ctx svc = { x with lpend := x.lpend ||| 4, run := if x.run = .asleep then .active else x.run } ∧ SameOthers s t svc
    let size := Fld.MEM_CTRL_DRAMSZ.get data
    let fresh : Prop := s.fld Reg.MEM_STAT Fld.MEM_STAT_CHRDY = 0 ∧ ∀ m, (at' s m).training = false ∧ (at' s m).failed = false
    (x.run ≠ .off → ∃ t, exec (.ddrMachineCheck n kind) s = .next t ∧ check t (kind.val + 1) ∧
      (new → RegsAndEvents s t [mc] [1224 + n.val]) ∧ (¬ new → RegsAndEvents s t [] []) ∧
      { t with dev := s.dev, evc := s.evc, ctxs := s.ctxs } = s) ∧
    (x.run = .off → s.flag (Reg.HYC_CSTAT svc) Fld.HYC_CSTAT_EXH = false → ∃ t, exec (.ddrMachineCheck n kind) s = .next t ∧
      (t.ctx svc).run = .active ∧ (t.ctx svc).pc = s.startAddr svc ∧ (t.ctx svc).lpend = x.lpend ||| 4 ∧ SameOthers s t svc) ∧
    (s.locked Reg.MEM_CTRL = false → ∃ t, exec (.dramszWrite who data) s = .next t ∧
      t.fld Reg.MEM_CTRL Fld.MEM_CTRL_DRAMSZ = (if size < 6 then size else 0) ∧
      t.flag Reg.MEM_CTRL Fld.MEM_CTRL_LOCK = data.getLsbD 31 ∧
      RegsAndEvents s t [Reg.MEM_CTRL] [] ∧ { t with dev := s.dev, ddr := s.ddr } = s ∧
      (∀ m, at' t m = if fresh ∧ 0 < size ∧ size < 6 then { at' s m with training := true } else at' s m)) ∧
    (s.locked Reg.MEM_CTRL = true → ∃ t, exec (.dramszWrite who data) s = .next t ∧
      t.fld Reg.MEM_CTRL Fld.MEM_CTRL_DRAMSZ = s.fld Reg.MEM_CTRL Fld.MEM_CTRL_DRAMSZ) ∧
    ((at' s n).training = false → ∀ ok, exec (.channelTrained n ok) s = .next s) ∧
    ((at' s n).training = true →
      (∃ t, exec (.channelTrained n true) s = .next t ∧
        t.reg Reg.MEM_STAT = Fld.MEM_STAT_CHRDY.put (s.fld Reg.MEM_STAT Fld.MEM_STAT_CHRDY ||| 2 ^ n.val) (s.reg Reg.MEM_STAT) ∧
        t = (t.setDdr n { at' s n with training := false, failed := false }) ∧ RegsAndEvents s t [Reg.MEM_STAT] [] ∧
        { t with dev := s.dev, ddr := s.ddr } = s ∧ ∀ m, m ≠ n → at' t m = at' s m) ∧
      (x.run ≠ .off → Sparse.get (40 + n.val) s.fab.targets = none → (∀ r ∈ s.fab.port, s.targetOf r.addr ≠ some (40 + n.val)) →
        ∃ t, exec (.channelTrained n false) s = .next t ∧
        check t 3 ∧ (at' t n).training = false ∧ (at' t n).failed = true ∧ (∀ m, m ≠ n → at' t m = at' s m) ∧
        (new → RegsAndEvents s t [mc] [1224 + n.val]) ∧ (¬ new → RegsAndEvents s t [] []) ∧
        ∀ a, dramChannel a = n.val → 0x1000000000 ≤ a → t.region a = .unmapped)))

/-- The event presented to a context is, of the sources that are pending, enabled, not held and not active and whose mask names it, the one
of the highest PRIO, and the lowest number among equals; a context that the controller sees as Off, or that lockstep takes away, is presented
none; EVC_CPRESn shows the choice (R241, R242, R248).

Occurrences and groups (R27, R239, R253, R255, R258): an occurrence that waits in its crossing is accepted, unless the controller is
suspended; it makes its source pending; in an enabled group it is held, arms
the group and counts, with the deadline of the group's TIMEOUT, and the count or the deadline releases every member; a doorbell is an
occurrence of the source of its context. -/
def Obligations.EventPresentationAndOccurrences : Prop :=
  (∀ (s : State) (c : Ctx), s.wf →
    let shown (n : Nat) : Prop := n < 1536 ∧ s.flag (Reg.EVC_SSTAT n) Fld.EVC_SSTAT_PEND = true ∧
      s.flag (Reg.EVC_SSTAT n) Fld.EVC_SSTAT_HELD = false ∧ s.flag (Reg.EVC_SSTAT n) Fld.EVC_SSTAT_ACT = false ∧
      s.flag (Reg.EVC_SCFG n) Fld.EVC_SCFG_EN = true ∧ (s.reg (Reg.EVC_TGT n (c.val / 32))).getLsbD (c.val % 32) = true ∧
      s.lockedOut c = false ∧ s.evc.offSeen.getLsbD c.val = false
    let prio (n : Nat) : Nat := s.fld (Reg.EVC_SCFG n) Fld.EVC_SCFG_PRIO
    (∀ n, s.presented c = some n ↔ shown n ∧ ∀ m, shown m → prio m < prio n ∨ (prio m = prio n ∧ n ≤ m)) ∧
    (s.presented c = none ↔ ∀ n, ¬ shown n) ∧
    ∀ who hw, ∃ w, s.readEvc who (Reg.EVC_CPRES c) hw = s.respondWord who w ∧
      (∀ n, s.presented c = some n → Fld.EVC_CPRES_VALID.get w = 1 ∧ Fld.EVC_CPRES_NUM.get w = n) ∧
      (s.presented c = none → Fld.EVC_CPRES_VALID.get w = 0)) ∧
  (∀ (s : State) (who : Who) (n : Fin 1536) (g : Fin 256) (data : Word), s.wf →
    let st (m : Nat) : Nat := Reg.EVC_SSTAT m
    let pend (w : Word) : Word := Fld.EVC_SSTAT_PEND.put 1 w
    let free (m : Nat) (w : Word) : Word := if s.memberOf m g = true then Fld.EVC_SSTAT_HELD.put 0 w else w
    let gs := Reg.EVC_GSTAT g
    let member : Prop := s.memberOf n g = true ∧ s.flag (Reg.EVC_GCFG g) Fld.EVC_GCFG_EN = true
    let evc := { s.evc with sync := s.evc.sync.erase n.val }
    let count := s.fld gs Fld.EVC_GSTAT_COUNT + 1
    let limit := s.fld (Reg.EVC_GCFG g) Fld.EVC_GCFG_COUNT
    let time := (s.reg (Reg.EVC_GTIME g)).toNat
    let armed : Bool := s.flag gs Fld.EVC_GSTAT_ARMED
    let only (t : State) (l : List Nat) : Prop := (∀ a, a ∉ l → t.reg a = s.reg a) ∧ OnlyRegs s t
    let released (t : State) (f : Nat → Word) : Prop := (∀ m, m < 1536 → t.reg (st m) = free m (f m)) ∧ t.reg gs = 0 ∧
      only t (gs :: (List.range 1536).map st)
    (s.evc.suspended = true ∨ n.val ∉ s.evc.sync → exec (.eventOccurrence n) s = .next s) ∧
    (s.evc.suspended = false → n.val ∈ s.evc.sync →
      (s.flag (Reg.EVC_SCFG n) Fld.EVC_SCFG_GEN = false ∨
          s.flag (Reg.EVC_GCFG (s.fld (Reg.EVC_SCFG n) Fld.EVC_SCFG_GRP)) Fld.EVC_GCFG_EN = false → ∃ t, exec (.eventOccurrence n) s = .next t ∧
        t.reg (st n) = pend (s.reg (st n)) ∧ only t [st n] ∧ t.evc = evc) ∧
      (member → count < limit → ∃ t, exec (.eventOccurrence n) s = .next t ∧
        t.reg (st n) = Fld.EVC_SSTAT_HELD.put 1 (pend (s.reg (st n))) ∧
        t.flag gs Fld.EVC_GSTAT_ARMED = true ∧ t.fld gs Fld.EVC_GSTAT_COUNT = count ∧ only t [st n, gs] ∧
        t.evc = (if armed = true ∨ time = 0 then evc
          else { evc with deadlines := Sparse.put g.val (s.psq.time / 2 ^ 32 + time) evc.deadlines })) ∧
      (member → limit ≤ count → ∃ t, exec (.eventOccurrence n) s = .next t ∧
        released t (fun m => if m = n.val then pend (s.reg (st m)) else s.reg (st m)) ∧
        (armed = true → t.evc = { evc with deadlines := Sparse.erase g.val evc.deadlines }))) ∧
    (∀ d, Sparse.get g.val s.evc.deadlines = some d → d ≤ s.psq.time / 2 ^ 32 → s.evc.suspended = false →
      ∃ t, exec (.groupDeadline g) s = .next t ∧ released t (fun m => s.reg (st m)) ∧
        t.evc = { s.evc with deadlines := Sparse.erase g.val s.evc.deadlines }) ∧
    ((∀ d, Sparse.get g.val s.evc.deadlines = some d → s.psq.time / 2 ^ 32 < d) ∨ s.evc.suspended = true →
      exec (.groupDeadline g) s = .next s) ∧
    (let d := data.toNat % 128
     exec (.evcDoorbell who data) s = .next (if s.evc.suspended = true ∨ Block.evc ∈ s.fab.clearing
       then s.onRing who Reg.EVC_DOORBELL (some data) else s.accept d)))

/-- Claims, completions and releases (R192, R193, R243 to R248): an event entry claims at its sixth grant, with the event presented then, unless
a Lining cause is pending; claims queue in order of arrival, and in ascending context number within one fc, and a context's read of EVC_CLAIM joins it
too; the head of the queue, one in each fc and none in the fc in which it arrived, is granted the source presented to its context, which becomes active and owned by it, or else answered
0x7FF and counted, and a claim of a killed context is released; only its owner completes a source; a context that goes Off releases every
source it owned. -/
def Obligations.ClaimsCompletionsAndReleases : Prop :=
  ∀ (s : State) (who : Who) (c : Ctx) (lining : Bool) (data : Word) (rest : List Claim) (fc : Nat), s.wf →
    let st (m : Nat) : Nat := Reg.EVC_SSTAT m
    let taken (m : Nat) : Word := Fld.EVC_SSTAT_OWNER.put c.val (Fld.EVC_SSTAT_ACT.put 1 (Fld.EVC_SSTAT_PEND.put 0 (s.reg (st m))))
    let sp := Reg.EVC_SPUR
    let spur : Word := if s.reg sp = 0xFFFFFFFF then s.reg sp else s.reg sp + 1
    let held : Prop := s.evc.suspended = true ∨ Block.evc ∈ s.fab.clearing
    let free : Prop := ¬ held ∧ fc ≠ s.fc ∧ s.evc.servedFc ≠ some s.fc
    let left : Evc := { s.evc with claims := rest, servedFc := some s.fc }
    let only (t : State) (l : List Nat) : Prop := ∀ a, a ∉ l → t.reg a = s.reg a
    let answered (t : State) (w : Who) (v : Nat) : Prop := Sparse.get w.id t.fab.resp = some (.data (leBytes 4 v))
    let reader : Who := .ctx c lining
    let num := Fld.EVC_COMPLETE_NUM.get data
    let owner : Prop := who = .ctx c lining ∧ num < 1536 ∧ s.flag (st num) Fld.EVC_SSTAT_ACT = true ∧
      s.fld (st num) Fld.EVC_SSTAT_OWNER = c.val
    let claims (e : Entry) : Prop := (s.ctx c).run = .active ∧ e.kind = .event ∧ e.made = false ∧ (s.ctx c).lpend = 0
    (∀ e, (s.ctx c).entry = some e → claims e → ∃ (t : State) (l r : List Claim), exec (.eventClaim (some c)) s = .next t ∧
      t.ctx c = { s.ctx c with entry := some { e with made := true } } ∧ SameOthers s t c ∧ s.evc.claims = l ++ r ∧
      t.evc = { s.evc with claims := l ++ ⟨c, .entry (s.presented c), s.fc, false⟩ :: r } ∧
      (∀ q ∈ l.drop s.evc.voided, q.fc ≠ s.fc ∨ q.ctx.val ≤ c.val) ∧ (∀ q ∈ r.head?, q.fc = s.fc ∧ c.val < q.ctx.val) ∧
      { t with evc := s.evc, ctxs := s.ctxs } = s) ∧
    ((∀ e, (s.ctx c).entry = some e → ¬ claims e) → exec (.eventClaim (some c)) s = .next s) ∧
    (held ∨ s.evc.claims = [] ∨ s.evc.servedFc = some s.fc ∨ (∀ q ∈ s.evc.claims.head?, q.fc = s.fc) →
      exec (.eventClaim none) s = .next s) ∧
    (free → s.evc.claims = ⟨c, .read, fc, false⟩ :: rest →
      (∀ n, s.presented c = some n → ∃ t, exec (.eventClaim none) s = .next t ∧ t.evc = left ∧
        t.reg (st n) = taken n ∧ only t [st n] ∧ answered t (.ctx c (s.ctx c).status.lvl) n ∧ t.ctxs = s.ctxs ∧ t.mem = s.mem) ∧
      (s.presented c = none → ∃ t, exec (.eventClaim none) s = .next t ∧ t.evc = left ∧
        t.reg sp = spur ∧ only t [sp] ∧ answered t (.ctx c (s.ctx c).status.lvl) 0x7FF ∧ t.ctxs = s.ctxs ∧ t.mem = s.mem)) ∧
    (free → s.evc.claims = ⟨c, .load, fc, false⟩ :: rest →
      (∀ n, s.presented c = some n → ∃ t, exec (.eventClaim none) s = .next t ∧ t.reg (st n) = taken n ∧ only t [st n] ∧
        t.evc = { left with answers := s.evc.answers ++ [(c.val, n)] } ∧ { t with dev := s.dev, evc := s.evc } = s) ∧
      (s.presented c = none → ∃ t, exec (.eventClaim none) s = .next t ∧ t.reg sp = spur ∧ only t [sp] ∧
        t.evc = { left with answers := s.evc.answers ++ [(c.val, 0x7FF)] } ∧ { t with dev := s.dev, evc := s.evc } = s)) ∧
    (∀ n e, free → s.evc.claims = ⟨c, .entry n, fc, false⟩ :: rest → (s.ctx c).entry = some e →
      (∀ m, n = some m → m < 1536 → s.presentedTo m c = true → ∃ t, exec (.eventClaim none) s = .next t ∧
        t.evc = left ∧ t.reg (st m) = taken m ∧ only t [st m] ∧
        t.ctx c = { s.ctx c with entry := some { e with num := m, claimed := true } } ∧
        { t with dev := s.dev, evc := s.evc, ctxs := s.ctxs } = s ∧ SameOthers s t c) ∧
      ((∀ m, n = some m → s.presentedTo m c = false) → ∃ t, exec (.eventClaim none) s = .next t ∧
        t.evc = left ∧ t.reg sp = spur ∧ only t [sp] ∧
        t.ctx c = { s.ctx c with entry := some { e with num := 0x7FF, claimed := true } } ∧
        { t with dev := s.dev, evc := s.evc, ctxs := s.ctxs } = s ∧ SameOthers s t c)) ∧
    (∀ n, free → s.evc.claims = ⟨c, .load, fc, true⟩ :: rest → s.presented c = some n → ∃ t, exec (.eventClaim none) s = .next t ∧
      t.evc = left ∧ t.flag (st n) Fld.EVC_SSTAT_PEND = true ∧ t.flag (st n) Fld.EVC_SSTAT_ACT = false ∧
      t.flag Reg.EVC_STAT Fld.EVC_STAT_REL = true ∧ only t [st n, Reg.EVC_STAT] ∧ { t with dev := s.dev, evc := s.evc } = s) ∧
    (s.hasClaim c = true → exec (.evcClaimRead reader) s = .next s) ∧
    (s.hasClaim c = false →
      exec (.evcClaimRead reader) s = .next (s.joinClaim ⟨c, .read, s.fc, false⟩)) ∧
    ((∀ d l, who ≠ .ctx d l) → held → exec (.evcClaimRead who) s = .next (s.onRing who Reg.EVC_CLAIM none)) ∧
    ((∀ d l, who ≠ .ctx d l) → ¬ held → ∃ t, exec (.evcClaimRead who) s = .next t ∧ answered t who 0x7FF ∧ t.dev = s.dev ∧ t.evc = s.evc) ∧
    (held → exec (.evcComplete who data) s = .next (s.onRing who Reg.EVC_COMPLETE (some data))) ∧
    (¬ held → owner → ∃ t, exec (.evcComplete who data) s = .next t ∧
      t.reg (st num) = Fld.EVC_SSTAT_OWNER.put 0 (Fld.EVC_SSTAT_ACT.put 0 (s.reg (st num))) ∧ only t [st num] ∧ { t with dev := s.dev } = s) ∧
    (¬ held → num = 0x7FF → exec (.evcComplete who data) s = .next s) ∧
    (¬ held → ¬ owner → (∀ d l, who = .ctx d l → d = c ∧ l = lining) → s.flag Reg.EVC_STAT Fld.EVC_STAT_CERR = true →
      exec (.evcComplete who data) s = .next s) ∧
    (¬ held → ¬ owner → (∀ d l, who = .ctx d l → d = c ∧ l = lining) → num ≠ 0x7FF → s.flag Reg.EVC_STAT Fld.EVC_STAT_CERR = false →
      ∃ t, exec (.evcComplete who data) s = .next t ∧ t.flag Reg.EVC_STAT Fld.EVC_STAT_CERR = true ∧
        t.fld Reg.EVC_STAT Fld.EVC_STAT_CNUM = num ∧ t.fld Reg.EVC_STAT Fld.EVC_STAT_CINIT = who.id ∧ only t [Reg.EVC_STAT] ∧
        { t with dev := s.dev } = s) ∧
    (let own (m : Nat) : Prop := s.flag (st m) Fld.EVC_SSTAT_ACT = true ∧ s.fld (st m) Fld.EVC_SSTAT_OWNER = c.val
     ((s.ctx c).run = .off → s.evc.offSeen.getLsbD c.val = false → s.evc.suspended = false → ∃ t, exec (.sourceRelease c) s = .next t ∧
       (∀ d : Ctx, t.evc.offSeen.getLsbD d.val = (s.evc.offSeen.getLsbD d.val || d == c)) ∧
       (∀ m, m < 1536 → (own m → t.flag (st m) Fld.EVC_SSTAT_ACT = false ∧ t.flag (st m) Fld.EVC_SSTAT_PEND = true) ∧
         (¬ own m → t.reg (st m) = s.reg (st m))) ∧
       ((∃ m, m < 1536 ∧ own m) → t.flag Reg.EVC_STAT Fld.EVC_STAT_REL = true) ∧
       only t (Reg.EVC_STAT :: (List.range 1536).map st) ∧
       { t with dev := s.dev, evc := { t.evc with offSeen := s.evc.offSeen } } = s) ∧
     ((s.ctx c).run ≠ .off ∨ s.evc.offSeen.getLsbD c.val = true ∨ s.evc.suspended = true → exec (.sourceRelease c) s = .next s))

/-- Configuration of sources, masks and groups, and wakes (R249, R250, R252, R254): a source's fields are written unless it is locked, and a
member that leaves its group is no longer held; word 3 of a target mask applies the staged words with it; a group's registers are written once an
armed group has been released; a write that reaches a suspended or resetting controller waits on the ring; a ready source wakes the Asleep
contexts that it names when none of them is Active. -/
def Obligations.EventConfigurationAndWakes : Prop :=
  ∀ (s : State) (who : Who) (n : Fin 1536) (g : Fin 256) (data : Word), s.wf →
    let cfg := Reg.EVC_SCFG n
    let open' : Prop := (s.reg cfg).getLsbD 31 = false
    let tgt (w : Nat) : Nat := Reg.EVC_TGT n w
    let staged (w : Nat) : Word := (Sparse.get (tgt w) s.evc.staged).getD (s.reg (tgt w))
    let gs := Reg.EVC_GSTAT g
    let only (t : State) (l : List Nat) : Prop := (∀ a, a ∉ l → t.reg a = s.reg a) ∧ OnlyRegs s t
    let leaves : Prop := s.flag cfg Fld.EVC_SCFG_GEN = true ∧
      (Fld.EVC_SCFG_GEN.get data = 0 ∨ Fld.EVC_SCFG_GRP.get data ≠ s.fld cfg Fld.EVC_SCFG_GRP)
    let named (c : Ctx) : Prop := (s.reg (tgt (c.val / 32))).getLsbD (c.val % 32) = true ∧ s.lockedOut c = false
    let ready : Prop := s.flag (Reg.EVC_SSTAT n) Fld.EVC_SSTAT_PEND = true ∧ s.flag (Reg.EVC_SSTAT n) Fld.EVC_SSTAT_HELD = false ∧
      s.flag (Reg.EVC_SSTAT n) Fld.EVC_SSTAT_ACT = false ∧ s.flag cfg Fld.EVC_SCFG_EN = true ∧ s.evc.suspended = false
    let free : Prop := s.evcHeld = false
    let idle : Prop := ∀ c, named c → (s.ctx c).run ≠ .active
    (s.evcHeld = true → exec (.scfgWrite who n data) s = .next (s.onRing who cfg (some data)) ∧
      exec (.tgt3Write who n data) s = .next (s.onRing who (tgt 3) (some data)) ∧
      exec (.groupConfigWrite who g true data) s = .next (s.onRing who (Reg.EVC_GTIME g) (some data)) ∧
      exec (.groupConfigWrite who g false data) s = .next (s.onRing who (Reg.EVC_GCFG g) (some data))) ∧
    (free → open' → ∃ t, exec (.scfgWrite who n data) s = .next t ∧ t.fld cfg Fld.EVC_SCFG_EN = Fld.EVC_SCFG_EN.get data ∧
      t.fld cfg Fld.EVC_SCFG_PRIO = Fld.EVC_SCFG_PRIO.get data ∧ t.fld cfg Fld.EVC_SCFG_GRP = Fld.EVC_SCFG_GRP.get data ∧
      t.fld cfg Fld.EVC_SCFG_GEN = Fld.EVC_SCFG_GEN.get data ∧ t.fld cfg Fld.EVC_SCFG_LOCK = Fld.EVC_SCFG_LOCK.get data ∧
      (leaves → t.reg (Reg.EVC_SSTAT n) = Fld.EVC_SSTAT_HELD.put 0 (s.reg (Reg.EVC_SSTAT n)) ∧ only t [cfg, Reg.EVC_SSTAT n]) ∧
      (¬ leaves → only t [cfg]) ∧ t.evc = s.evc) ∧
    (free → ¬ open' → ∃ t, exec (.scfgWrite who n data) s = .next t ∧ only t [] ∧ t.evc = s.evc) ∧
    (free → ¬ open' → exec (.tgt3Write who n data) s = .next s) ∧
    (free → open' → ∃ t, exec (.tgt3Write who n data) s = .next t ∧ t.reg (tgt 3) = data ∧ (∀ w, w < 3 → t.reg (tgt w) = staged w) ∧
      only t [tgt 0, tgt 1, tgt 2, tgt 3] ∧
      t.evc = { s.evc with staged := Sparse.erase (tgt 2) (Sparse.erase (tgt 1) (Sparse.erase (tgt 0) s.evc.staged)) }) ∧
    (free → s.flag gs Fld.EVC_GSTAT_ARMED = false →
      (∃ t, exec (.groupConfigWrite who g true data) s = .next t ∧ t.reg (Reg.EVC_GTIME g) = data ∧ only t [Reg.EVC_GTIME g] ∧ t.evc = s.evc) ∧
      (∃ t, exec (.groupConfigWrite who g false data) s = .next t ∧
        t.fld (Reg.EVC_GCFG g) Fld.EVC_GCFG_EN = Fld.EVC_GCFG_EN.get data ∧
        t.fld (Reg.EVC_GCFG g) Fld.EVC_GCFG_COUNT = max 1 (min 1024 (Fld.EVC_GCFG_COUNT.get data)) ∧
        only t [Reg.EVC_GCFG g] ∧ t.evc = s.evc)) ∧
    (free → s.flag gs Fld.EVC_GSTAT_ARMED = true → ∀ time, ∃ t, exec (.groupConfigWrite who g time data) s = .next t ∧
      (time = true → t.reg (Reg.EVC_GTIME g) = data) ∧
      (time = false → t.fld (Reg.EVC_GCFG g) Fld.EVC_GCFG_EN = Fld.EVC_GCFG_EN.get data) ∧ t.reg gs = 0 ∧
        t.evc = { s.evc with deadlines := Sparse.erase g.val s.evc.deadlines } ∧
      ∀ m, m < 1536 → s.memberOf m g = true → t.flag (Reg.EVC_SSTAT m) Fld.EVC_SSTAT_HELD = false) ∧
    (ready → idle → ∃ t, exec (.wakeEvent n) s = .next t ∧ { t with ctxs := s.ctxs } = s ∧
      (∀ c, named c → (s.ctx c).run = .asleep → t.ctx c = { s.ctx c with run := .active }) ∧
      ∀ c, ¬ (named c ∧ (s.ctx c).run = .asleep) → t.ctx c = s.ctx c) ∧
    (¬ (ready ∧ idle) → exec (.wakeEvent n) s = .next s)

/-- The firewall decides in its order (R19, R20): an unmapped address is refused with cause 1, a register access that is not one aligned word
with 5, a block that is off with 6, a request against a fixed rule with 2; a request with the Lining bit then passes; the lowest-numbered
enabled region that covers the address decides by its mask of groups, with cause 3, and where none does the default decides, with cause 4. -/
def Obligations.FirewallChecksInOrder : Prop :=
  ∀ (s : State) (r : Request),
    let v := s.firewall r
    let g := s.region r.addr
    let who := r.who.id
    let writes : Bool := r.kind.isWrite
    let oneWord : Prop := r.len = 4 ∧ r.addr % 4 = 0 ∧ (r.kind = .read ∨ ∃ d, r.kind = .write d)
    let barred : Prop := (who = 200 ∧ writes = false) ∨ (g = .liningStore ∧ r.who.lining = false) ∨
      (g = .rom ∧ (writes = true ∨ who = 199 ∨ who = 200)) ∨
      (g = .devReg ∧ blockIndex r.addr = 4 ∧ writes = true ∧ r.who.lining = false) ∨
      (g = .applique ∧ writes = true ∧ s.appliqueOwner who = false)
    let covers (n : Nat) : Prop := n < 32 ∧ Fld.FAB_RCTL_EN.get (s.fwReg (Reg.FAB_RCTL n)) = 1 ∧
      Fld.FAB_RBASE_BASE.get (s.fwReg (Reg.FAB_RBASE n)) ≤ r.addr / 4096 ∧ r.addr / 4096 ≤ Fld.FAB_RLIM_LIMIT.get (s.fwReg (Reg.FAB_RLIM n))
    let mask (n : Nat) : Nat := (if writes then Fld.FAB_RPERM_WMASK else Fld.FAB_RPERM_RMASK).get (s.fwReg (Reg.FAB_RPERM n))
    (g = .unmapped → v = .refused 1 0) ∧
    (g ≠ .unmapped →
      (g = .devReg → ¬ oneWord → v = .refused 5 0) ∧
      (g ≠ .devReg ∨ oneWord →
        (s.poweredOff r.addr = true → v = .refused 6 0) ∧
        (s.poweredOff r.addr = false →
          (barred → v = .refused 2 0) ∧
          (¬ barred →
            (r.who.lining = true → v = .allowed) ∧
            (r.who.lining = false →
              (∀ n, covers n → (∀ m, m < n → ¬ covers m) →
                v = if mask n / 2 ^ s.fwGroup who % 2 = 1 then .allowed else .refused 3 n) ∧
              ((∀ n, ¬ covers n) → v = if Fld.FAB_CTRL_DEFAULT.get (s.fwReg Reg.FAB_CTRL) = 1 then .refused 4 0 else .allowed))))))

/-- Requests and memory targets (R12 to R14, R19, R21, R23, R106, R222, R229, R255, R484): an initiator issues well-formed requests of its own
class, with the Lining bit only in the Lining level; a refused request is recorded where no record stands, or where one of a higher initiator of
the same fc does, is answered with its cause and signalled as an access error to its initiator (a context takes it only if it is Active and waits for nothing:
the model's choice, logs 21, 80), and one of the debug port in DBG_STAT (R532); an allowed one joins the queue of its class
where there is room and else waits at its port; a register access reaches its block, or waits behind its initiator's earlier accesses to the block, or while the block is suspended, in standby or
clearing; a bank serves RT0, RT1, BE, BK in this order but for an RT1 head that waited 4 grants and a BK head that waited 7; a channel serves none
in slots 0–3, RT0 and RT1 in their reserved slots, and BK before BE only in the first BKMIN unreserved slots; a read returns memory's bytes and a write puts
its bytes.

Register accesses keep the access codes (R6 to R8): in the MEM block's registers that act by nothing else a write replaces RW fields,
clears W1C bits but for those that hardware sets in the same cycle, and leaves RO and RC fields; a read answers every field and clears
the RC ones, and one of the suspended event controller waits (R255); a block's clearing ends with its bit of BRST, and the accesses held for it complete (R39, R491). -/
def Obligations.FabricRequestsAndRegisters : Prop :=
  (∀ (s : State) (r : Request) (t : Fin 37) (ch : Fin 4) (slot : Fin 64) (u : Upsets), s.wf →
    let mayIssue (r : Request) : Prop := r.ok = true ∧ r.cls = s.classOf r.who ∧
      ∀ c l, r.who = .ctx c l → (l = true → (s.ctx c).status.lvl = true) ∧ s.lockedOut c.val = false
    let idle (r : Request) : Prop := ¬ mayIssue r ∨ s.sys.boot = .held
    let vs := Reg.FAB_VSTAT
    let shown (w : State) (k : Nat) : Prop := w.flag vs Fld.FAB_VSTAT_VALID = true ∧ w.fld vs Fld.FAB_VSTAT_CAUSE = k ∧
      w.fld vs Fld.FAB_VSTAT_INIT = r.who.id ∧ w.flag vs Fld.FAB_VSTAT_WRITE = r.kind.isWrite ∧ w.reg Reg.FAB_VADDR_LO = BitVec.ofNat 32 r.addr
    let recorded (w : State) (k : Nat) : Prop :=
      let regs := [vs, Reg.FAB_VADDR_LO, Reg.FAB_VADDR_HI]
      let lower : Prop := s.fab.refFc = some s.fc ∧ r.who.id < s.fld vs Fld.FAB_VSTAT_INIT
      (s.flag vs Fld.FAB_VSTAT_VALID = false → shown w k ∧ RegsAndEvents s w regs [1279]) ∧
      (s.flag vs Fld.FAB_VSTAT_VALID = true → w.flag vs Fld.FAB_VSTAT_OVF = true ∧ RegsAndEvents s w regs [] ∧ (lower → shown w k) ∧
        (¬ lower → w.reg vs = Fld.FAB_VSTAT_OVF.put 1 (s.reg vs) ∧ RegsAndEvents s w [vs] []))
    let rank : List TClass := [.rt0, .rt1, .be, .bk]
    let first (a : Arb) (c : TClass) : Prop := a.has c = true ∧ ∀ d ∈ rank.takeWhile (· ≠ c), a.has d = false
    let answers (r : Request) (v w : State) : Prop :=
      (r.kind = .read → w = v.respond r.who (.data (s.bytes r.addr r.len))) ∧
      (∀ d, r.kind = .write d → w = State.respond { v with mem := Memory.writes s.mem r.addr d } r.who .done)
    (idle r → exec (.fabricRequest r) s = .next s) ∧
    (¬ idle r →
      (∀ k g, s.firewall r = .refused k g → r.who ≠ .debug → ∃ w, recorded w k ∧
        w.mem = s.mem ∧ w.ctxs = s.ctxs ∧ w.fab.targets = s.fab.targets ∧ Sparse.get r.who.id w.fab.resp = some (.refused k) ∧
        exec (.fabricRequest r) s = .next (match r.who with
          | .ctx c _ => if (s.ctx c).run = .active ∧ (s.ctx c).wait = .none then
              w.takeSync c { code := 4, addr := BitVec.ofNat 64 r.addr, wr := r.writes } else w
          | .shuttle n => w.shuStops n (if r.writes then 2 else 1) r.addr
          | .presser => w.prsError (if r.writes then 5 else 4) r.addr
          | .spool => w.streamError r.addr
          | .seam => w.dmaError r.addr
          | .mailbox => w.mailboxError r.addr
          | _ => w.signalError r)) ∧
      (∀ k g, s.firewall r = .refused k g → r.who = .debug →
        let st := Reg.DBG_STAT
        let regs := [vs, Reg.FAB_VADDR_LO, Reg.FAB_VADDR_HI, st, Reg.DBG_EADRL, Reg.DBG_EADRH]
        let ev : List Nat := if s.flag vs Fld.FAB_VSTAT_VALID = true then [] else [1279]
        ∃ w, exec (.fabricRequest r) s = .next w ∧ Sparse.get r.who.id w.fab.resp = some (.refused k) ∧ w.mem = s.mem ∧
          w.fab.targets = s.fab.targets ∧
          (s.flag st Fld.DBG_STAT_AERR = false → w.flag st Fld.DBG_STAT_AERR = true ∧ w.fld st Fld.DBG_STAT_CAUSE = k ∧
            w.reg Reg.DBG_EADRL = BitVec.ofNat 32 r.addr ∧ w.reg Reg.DBG_EADRH = BitVec.ofNat 32 (r.addr / 2 ^ 32) ∧
            RegsAndEvents s w regs (ev ++ [1361])) ∧
          (s.flag st Fld.DBG_STAT_AERR = true → w.reg st = Fld.DBG_STAT_OVF.put 1 (s.reg st) ∧
            w.reg Reg.DBG_EADRL = s.reg Reg.DBG_EADRL ∧ w.reg Reg.DBG_EADRH = s.reg Reg.DBG_EADRH ∧ RegsAndEvents s w regs ev)) ∧
      (∀ b, s.firewall r = .allowed → s.targetOf r.addr = some b →
        exec (.fabricRequest r) s = .next (if s.portHeld r.addr = false ∧ (s.arb b).room b r.cls = true then s.setArb b ((s.arb b).push r)
          else { s with fab := { s.fab with port := s.fab.port ++ [r] } })) ∧
      (s.firewall r = .allowed → s.targetOf r.addr = none →
        let suspended : Prop := s.portHeld r.addr = true ∨ (blockIndex r.addr = 1 ∧ s.evc.suspended = true) ∨
          ∃ q ∈ s.fab.ring, q.1.id = r.who.id ∧ blockIndex q.2.1 = blockIndex r.addr
        let data : Option Word := match r.kind with
          | .write d => some (BitVec.ofNat 32 (leNat d))
          | _ => none
        (r.kind = .read ∨ ∃ d, r.kind = .write d) →
        (suspended → exec (.fabricRequest r) s = .next { s with fab := { s.fab with ring := s.fab.ring ++ [(r.who, r.addr, data)] } }) ∧
        (¬ suspended → s.regHeld r.addr = true → exec (.fabricRequest r) s =
          .next { s with fab := { s.fab with held := s.fab.held ++ [(blockOf (blockIndex r.addr), r.who, r.addr, data)] } }) ∧
        (¬ suspended → s.regHeld r.addr = false → exec (.fabricRequest r) s = .next (match data with
          | some d => (s.landWrite r.who r.addr d 0).respond r.who .done
          | none => (s.readReg r.who r.addr 0).gotRead r.who r.addr)))) ∧
    (s.sys.standby ≠ 0 ∨ s.targetClearing t = true → exec (.fabricMemoryResponse t u) s = .next s) ∧
    (s.sys.standby = 0 → s.targetClearing t = false → s.ecc = [] → s.fab.port = [] →
      let a := s.arb t
      let over1 : Prop := a.has .rt1 = true ∧ 4 ≤ a.rt1Wait
      let overB : Prop := ¬ over1 ∧ a.has .bk = true ∧ 7 ≤ a.bkWait
      let served (c : TClass) : Prop := (over1 ∧ c = .rt1) ∨ (overB ∧ c = .bk) ∨ (¬ over1 ∧ ¬ overB ∧ first a c)
      ((∀ c, a.has c = false) → exec (.fabricMemoryResponse t []) s = .next s) ∧
      ∀ c q, served c → a.queue c = r :: q → r.coh = false → 0 < r.len → (∃ b, s.region r.addr = .bank b) →
        let left : Arb := { a.drop c with
          rt1Wait := if c = .rt1 then 0 else if c = .rt0 then (if a.has .rt1 then a.rt1Wait + 1 else 0) else a.rt1Wait
          bkWait := if c = .bk then 0 else if a.has .bk then a.bkWait + 1 else 0 }
        (left.queue c = q) ∧ (r.kind = .read ∨ (∃ d, r.kind = .write d) →
          ∃ w, exec (.fabricMemoryResponse t []) s = .next w ∧ answers r (s.setArb t left) w)) ∧
    (let ready : Prop := s.sys.standby = 0 ∧ s.fld Reg.MEM_STAT Fld.MEM_STAT_CHRDY / 2 ^ ch.val % 2 = 1
     let k : Nat := 40 + ch.val
     let a : Arb := s.arb k
     let n0 := s.fld (Reg.MEM_RSV ch) Fld.MEM_RSV_RT0
     let n1 := s.fld (Reg.MEM_RSV ch) Fld.MEM_RSV_RT1
     let bkmin := s.fld (Reg.MEM_RSV ch) Fld.MEM_RSV_BKMIN
     let at' : State := s.setDdr ch { s.ddr[ch.val] with slot := slot.val }
     let serves (c : TClass) (left : Arb) : Prop := ∀ q, a.queue c = r :: q → r.coh = false → r.kind = .read → 0 < r.len →
       s.region r.addr = .dram → exec (.ddrReadResponse ch slot []) s =
         .next ((at'.setArb k left).respond r.who (.data (s.bytes r.addr r.len)))
     (¬ ready → exec (.ddrReadResponse ch slot u) s = .next s) ∧
     (ready → s.ecc = [] → s.fab.port = [] → s.ddr[ch.val].slot < slot.val →
       (slot.val < 4 → exec (.ddrReadResponse ch slot []) s = .next at') ∧
       (∀ i, i < n0 → slot.val = 4 + 60 * i / n0 → serves .rt0 (a.drop .rt0)) ∧
       (let z (k : Nat) : Prop := ∃ i, i < n0 ∧ k = 4 + 60 * i / n0
        ∀ j, j < n1 → ¬ z slot.val →
          slot.val = 4 + 60 * j / n1 ∨ (z (4 + 60 * j / n1) ∧ slot.val = 4 + 60 * j / n1 + 1) → serves .rt1 (a.drop .rt1)) ∧
       (n0 = 0 → n1 = 0 → 4 ≤ slot.val →
         (a.has .bk = true → slot.val - 4 < bkmin → serves .bk (a.drop .bk)) ∧
         (a.has .bk = false ∨ bkmin ≤ slot.val - 4 → serves .be (a.drop .be)) ∧
         (a.has .be = false → serves .bk (a.drop .bk)) ∧
         (a.has .bk = false → a.has .be = false → serves .rt0 (a.drop .rt0)))))) ∧
  (∀ (s : State) (who : Who) (a : Nat) (data hw : Word) (d : RegDef) (b : Block), s.wf →
    let plain : Prop := a % 4 = 0 ∧ 0x10300000 ≤ a ∧ a < 0x10400000 ∧ a ≠ Reg.MEM_CTRL ∧ ∀ n : Fin 4, a ≠ Reg.MEM_RSV n
    let same (t : State) : Prop := ∀ e, e ≠ a → t.reg e = s.reg e
    (regAddr a = false → exec (.registerWrite who a data hw) s = .next s ∧ exec (.rcFieldRead who a hw) s = .next s) ∧
    (regAddr a = true → blockIndex a = 1 → s.evc.suspended = true → exec (.registerWrite who a data hw) s = .next (s.onRing who a (some data)) ∧
      exec (.rcFieldRead who a hw) s = .next (s.onRing who a none)) ∧
    (plain → RegMap.find a = some d →
      (∃ t, exec (.registerWrite who a data hw) s = .next t ∧ same t ∧ { t with dev := s.dev } = s ∧
        ∀ f ∈ d.fields, let v := f.fld.get data; let o := s.fld a f.fld
          t.fld a f.fld = match f.acc with
            | .rw => f.stored v
            | .w1c => (o &&& (2 ^ f.fld.len - 1 - v)) ||| f.fld.get hw
            | _ => o) ∧
      (∃ t w, exec (.rcFieldRead who a hw) s = .next t ∧ same t ∧ Sparse.get who.id t.fab.resp = some (.data (leBytes 4 (BitVec.toNat (w := 32) w))) ∧
        t.evc = s.evc ∧ t.mem = s.mem ∧ t.ctxs = s.ctxs ∧
        ∀ f ∈ d.fields, f.fld.get w = s.fld a f.fld ∧
          t.fld a f.fld = if f.acc = .rc then f.fld.get hw else s.fld a f.fld)) ∧
    (b ∉ s.fab.clearing → exec (.blockClearingEnd b) s = .next s) ∧
    (b ∈ s.fab.clearing → (b = .evc → s.evc.voided = 0) →
      let m := s.fld Reg.SYS_RSTCTL Fld.SYS_RSTCTL_BRST
      let u : State := { s.setReg Reg.SYS_RSTCTL (Fld.SYS_RSTCTL_BRST.put (m - m / 2 ^ b.index % 2 * 2 ^ b.index) (s.reg Reg.SYS_RSTCTL)) with
        fab := { s.fab with clearing := s.fab.clearing.erase b, held := s.fab.held.filter (fun h => h.1 ≠ b) } }
      ((∀ h ∈ s.fab.held, h.1 ≠ b) → exec (.blockClearingEnd b) s = .next u) ∧
      (∀ who' addr v, s.fab.held.filter (fun h => h.1 = b) = [(b, who', addr, some v)] → u.regHeld addr = false →
        exec (.blockClearingEnd b) s = .next ((u.landWrite who' addr v 0).respond who' .done)) ∧
      (∀ who' addr, s.fab.held.filter (fun h => h.1 = b) = [(b, who', addr, none)] → u.regHeld addr = false →
        exec (.blockClearingEnd b) s = .next ((u.readReg who' addr 0).gotRead who' addr))) ∧
    (∀ c rest, b = .evc → b ∈ s.fab.clearing → (∀ h ∈ s.fab.held, h.1 ≠ b) → s.evc.claims = ⟨c, .read, s.fc, false⟩ :: rest → s.evc.voided = 1 →
      ∃ t, exec (.blockClearingEnd b) s = .next t ∧ t.evc = { s.evc with claims := rest, voided := 0 } ∧
        Sparse.get c.val t.fab.resp = some (.data (leBytes 4 0x7FF)) ∧ t.fab.clearing = s.fab.clearing.erase b))

/-- Device time (R29 to R35): while the servo does not discipline it an adjustment and an increment are taken; a step is refused under DISC
or while a lane is not stopped, and otherwise sets the time at the second fc after its request (an audio PLL locked to device time has to lock
anew); a read of PSQ_DTF latches the whole count
for its reader. -/
def Obligations.DeviceTimeCommands : Prop :=
  ∀ (s : State) (who : Who) (data : Word) (d : Nat) (rest : List Nat), s.wf →
    let ctrl := Reg.PSQ_DTCTRL
    let disc : Bool := s.flag ctrl Fld.PSQ_DTCTRL_DISC
    let quiet (t : State) (l : List Nat) : Prop := RegsAndEvents s t l [] ∧ { t with dev := s.dev, psq := s.psq } = s
    let slew := Fld.PSQ_DTCTRL_SLEW.get data
    let stopped : Prop := ∀ l, s.laneState l = 0
    (disc = true → exec (.dtadjWrite who data) s = .next s ∧ exec (.dtinclWrite who data) s = .next s) ∧
    (disc = false → exec (.dtadjWrite who data) s = .next { s with psq := { s.psq with adjRem := data.toInt * 2 ^ 32 } }) ∧
    (disc = false → ∃ t, exec (.dtinclWrite who data) s = .next t ∧ t.reg Reg.PSQ_DTINCL = data ∧ quiet t [Reg.PSQ_DTINCL] ∧
      t.psq = { s.psq with inc := data.toNat + s.fld Reg.PSQ_DTINCH Fld.PSQ_DTINCH_INCHI * 2 ^ 32 }) ∧
    (∃ t, exec (.dtstepRequest who data) s = .next t ∧ quiet t [ctrl] ∧ t.flag ctrl Fld.PSQ_DTCTRL_DISC = data.getLsbD 31 ∧
      t.fld ctrl Fld.PSQ_DTCTRL_SLEW = max 10 (min 20 slew) ∧ t.fld ctrl Fld.PSQ_DTCTRL_STEP = s.fld ctrl Fld.PSQ_DTCTRL_STEP ∧
      (data.getLsbD 0 = true → disc = true → t.flag ctrl Fld.PSQ_DTCTRL_SREF = true ∧ t.psq = s.psq) ∧
      (data.getLsbD 0 = true → disc = false → t.psq = { s.psq with stepDue := s.psq.stepDue ++ [s.fc + 2] }) ∧
      (data.getLsbD 0 = false → t.psq = s.psq)) ∧
    (s.psq.stepDue = [] → exec .dtstepAct s = .next s) ∧
    (s.psq.stepDue = d :: rest →
      (s.fc < d → exec .dtstepAct s = .next s) ∧
      (d ≤ s.fc → stopped → exec .dtstepAct s = .next { (if s.flag Reg.SYS_APLL Fld.SYS_APLL_DTLOCK = true
          then s.setFld Reg.SYS_APLL Fld.SYS_APLL_LOCKED 0 else s) with psq := { s.psq with
        stepDue := rest, time := s.reg64 Reg.PSQ_DTSETL Reg.PSQ_DTSETH * 2 ^ 32, adjRem := 0 } }) ∧
      (d ≤ s.fc → ¬ stopped → ∃ t, exec .dtstepAct s = .next t ∧ t.reg ctrl = Fld.PSQ_DTCTRL_SREF.put 1 (s.reg ctrl) ∧
        quiet t [ctrl] ∧ t.psq = { s.psq with stepDue := rest })) ∧
    (who ≠ .debug → ∃ t, exec (.dtfRead who) s = .next t ∧
      Sparse.get who.id t.psq.latches = some (BitVec.ofNat 64 (s.psq.time / 2 ^ 32)) ∧
      Sparse.get who.id t.fab.resp = some (.data (leBytes 4 (s.psq.time / 2 ^ 16 % 2 ^ 16))) ∧
      { t with psq := { t.psq with latches := s.psq.latches }, fab := { t.fab with resp := s.fab.resp } } = s)

/-- Starts, stops and the swap of banks (R51, R56, R58, R62 to R69): a start takes a valid descriptor of the lane's bank and waits for
the first T0 + kP that is still to come; STOP acts on lanes that wait, run or close, and FINISH on those that run or close; a lane that has stopped uses the TARGET bank;
a flip is refused while one is pending, and moves every stopped lane at once; JDONE answers the oldest WAKE of its lane and
context, which signals the completion of a closing one. A STOP in the fc of a natural end takes back the DONE of that end (log 86). -/
def Obligations.LaneControl : Prop :=
  ∀ (s : State) (who : Who) (l : Fin 16) (data : Word) (c : Ctx) (lining : Bool), s.wf →
    let st := Reg.PSQ_LSTAT l
    let sw := Reg.PSQ_SWAPSTAT
    let x := s.lane l
    let state := s.laneState l
    let a := bankBase (s.laneBank l) + 16 * l.val
    let w (i : Nat) : Nat := (s.reg (a + 4 * i)).toNat
    let valid : Prop := 2 ^ 31 ≤ w 0 ∧ 1000 ≤ w 1 ∧ w 2 + 1000 ≤ w 1
    let t0 := s.reg64 (Reg.PSQ_LSTARTL l) (Reg.PSQ_LSTARTH l)
    let bit (k : Fin 16) (n : Nat) : Bool := (s.reg (Reg.PSQ_LEVTEN k)).getLsbD n
    let others (t : State) : Prop := ∀ k, k ≠ l → t.lane k = s.lane k
    let rest (t : State) : Prop := { t with dev := s.dev, evc := s.evc, psq := { t.psq with lanes := s.psq.lanes } } = s
    (state ≠ 0 → exec (.laneStart who l) s = .next s) ∧
    (state = 0 → s.ecc = [] → valid → ∃ t r k, exec (.laneStart who l) s = .next t ∧ r = t0 + k * w 1 ∧ s.psq.time < r * 2 ^ 32 ∧
      (k = 0 ∨ (r - w 1) * 2 ^ 32 ≤ s.psq.time) ∧
      t.lane l = { Lane.reset with first := w 0 % 8192, period := w 1, hem := w 2, maxLag := w 3, ref := r, start := r, firstPeriod := true } ∧
      t.reg st = Fld.PSQ_LSTAT_STATE.put 1 (s.reg st) ∧ t.reg (Reg.PSQ_LPCNT l) = 0 ∧ RegsAndEvents s t [st, Reg.PSQ_LPCNT l] [] ∧ others t ∧ rest t) ∧
    (state = 0 → s.ecc = [] → ¬ valid → ∃ t, exec (.laneStart who l) s = .next t ∧
      t.reg st = Fld.PSQ_LSTAT_CAUSE.put 4 (Fld.PSQ_LSTAT_ERR.put 1 (s.reg st)) ∧ RegsAndEvents s t [st] [] ∧ OnlyRegs s t) ∧
    (state = 1 ∨ state = 2 ∨ state = 3 → ∃ t, exec (.laneStop who l) s = .next t ∧ t.reg st = Fld.PSQ_LSTAT_STATE.put 4 (s.reg st) ∧
      t.lane l = { x with closings := [], lag := 0, dueSince := none, ended := none } ∧ others t ∧ RegsAndEvents s t [st] [] ∧
      t.psq.waked = s.psq.waked.map (fun (v : Waked) => if v.lane = l.val then { v with closing := false } else v) ∧
      { t with dev := s.dev, psq := { t.psq with lanes := s.psq.lanes, waked := s.psq.waked } } = s) ∧
    (∀ before, state = 0 → x.ended = some (s.fc, before) → ∃ t, exec (.laneStop who l) s = .next t ∧
      t.flag st Fld.PSQ_LSTAT_DONE = before ∧ t.flag st Fld.PSQ_LSTAT_ABLATE = s.flag st Fld.PSQ_LSTAT_ABLATE ∧ t.laneState l = 0 ∧
      (t.lane l).closings = [] ∧ RegsAndEvents s t [st] []) ∧
    (state = 0 → (∀ e, x.ended = some e → e.1 ≠ s.fc) → s.flag st Fld.PSQ_LSTAT_DONE = true → ∃ t, exec (.laneStop who l) s = .next t ∧
      t.reg st = Fld.PSQ_LSTAT_ABLATE.put 1 (s.reg st) ∧ RegsAndEvents s t [st] [] ∧ OnlyRegs s t) ∧
    (state = 4 ∨ (state = 0 ∧ x.ended = none ∧ s.flag st Fld.PSQ_LSTAT_DONE = false) → exec (.laneStop who l) s = .next s) ∧
    (exec (.laneFinish who l) s = .next (if state = 2 ∨ state = 3 then s.setLane l { x with stopAtEnd := true } else s)) ∧
    (state ≠ 4 → exec (.laneStopped l) s = .next s) ∧
    (state = 4 → ∃ t, exec (.laneStopped l) s = .next t ∧ t.reg st = Fld.PSQ_LSTAT_STATE.put 0 (s.reg st) ∧
      t.lane l = { x with
        rep := none, bodyEnded := false, stopAtEnd := false, endMet := none, closings := [], dueSince := none, ended := none } ∧
      t.laneBank l = s.targetBank ∧ (∀ k, k ≠ l → t.laneBank k = s.laneBank k) ∧ others t ∧ rest t ∧
      RegsAndEvents s t [st, sw] ((if s.laneBank l ≠ s.targetBank ∧ bit l 4 = true then [128 + 8 * l.val + 4] else []) ++
        if bit l 5 then [128 + 8 * l.val + 5] else [])) ∧
    (data.getLsbD 0 = false → exec (.swapFlip who data) s = .next s) ∧
    (data.getLsbD 0 = true → s.flag sw Fld.PSQ_SWAPSTAT_PENDING = true → ∃ t, exec (.swapFlip who data) s = .next t ∧
      t.reg sw = Fld.PSQ_SWAPSTAT_FREF.put 1 (s.reg sw) ∧ RegsAndEvents s t [sw] [] ∧ OnlyRegs s t) ∧
    (data.getLsbD 0 = true → s.flag sw Fld.PSQ_SWAPSTAT_PENDING = false → ∃ t, exec (.swapFlip who data) s = .next t ∧
      t.targetBank = 1 - s.targetBank ∧ (∀ k, t.laneBank k = if s.laneState k = 0 then 1 - s.targetBank else s.laneBank k) ∧
      (t.flag sw Fld.PSQ_SWAPSTAT_PENDING = false ↔ (∃ k, s.laneState k = 0) ∧ ∀ k, t.laneBank k = t.targetBank) ∧
      RegsAndEvents s t [sw] ((allLanes.filter (fun k => s.laneState k = 0 && bit k 4)).map (fun k => 128 + 8 * k.val + 4)) ∧
      { t with dev := s.dev, evc := s.evc } = { s with psq := { s.psq with flipFc := some s.fc } }) ∧
    (let k : Fin 16 := Fin.ofNat 16 (Fld.PSQ_JDONE_LANE.get data)
     let mine (v : Waked) : Prop := v.lane = k.val ∧ v.ctx = c
     let writer : Who := .ctx c lining
     let answered (pre post : List Waked) : State := { s with psq := { s.psq with waked := pre ++ post } }
     ((∀ v ∈ s.psq.waked, ¬ mine v) → exec (.jdoneWrite writer data) s = .next s) ∧
     (∀ pre v post, s.psq.waked = pre ++ v :: post → (∀ u ∈ pre, ¬ mine u) → mine v →
       (v.closing = false → exec (.jdoneWrite writer data) s = .next (answered pre post)) ∧
       (v.closing = true → ∃ t, exec (.jdoneWrite writer data) s = .next t ∧ t = (answered pre post).setLane k (t.lane k) ∧
         (∀ l1 j l2, (s.lane k).closings = l1 ++ j :: l2 → (∀ i ∈ l1, i.job ≠ .wake c ∨ i.signalled ≠ none) → j.job = .wake c →
           j.signalled = none → (t.lane k).closings = l1 ++ { j with signalled := some s.fc } :: l2) ∧
         { t.lane k with closings := (s.lane k).closings } = s.lane k)) ∧
     ((∀ d m, who ≠ .ctx d m) → exec (.jdoneWrite who data) s = .next s))

/-- Pattern entries (R43 to R56, R60, R61): a lane that runs evaluates the entry of its OP, and an uncorrectable one is passed over with cause
7; NOP, SEL and REP move on, within a repetition and past the last entry too; END and HALT end the body; an OP that the table does not list
records cause 1; a dispatch whose offset lies in the hem records cause 2 as it is evaluated (the model's choice, log 87), one whose turn has come
(due, not held, and the due head for the longest, the lowest lane first) writes its register as the owner context or is refused with cause 6,
which takes the port's turn (the model's choice, log 86), and RAISE raises its lane's event 7; a completion is recognised from 2 fc after its signal, and is then no longer outstanding. -/
def Obligations.PatternEntries : Prop :=
  ∀ (s : State) (l : Fin 16), s.wf →
    let st := Reg.PSQ_LSTAT l
    let x := s.lane l
    let e := x.entry
    let w (i : Nat) : Nat := s.entryWord l i
    let pcnt := (s.reg (Reg.PSQ_LPCNT l)).toNat
    let ops : List (Nat × Instr) := [(0, .psqNop l), (1, .psqEnd l), (2, .psqHalt l), (3, .psqSel l), (4, .psqRep l), (0x10, .psqWake l),
      (0x11, .psqShut l), (0x12, .psqPress l), (0x13, .psqGate l), (0x14, .psqMix l), (0x15, .psqWreg l), (0x16, .psqRaise l)]
    let running : Prop := s.laneState l = 2 ∧ s.ecc = []
    let at' (y : Lane) : State := s.setLane l { y with dueSince := none }
    let failed (c : Nat) (u : State) : State := u.setFlds st [(Fld.PSQ_LSTAT_ERR, 1), (Fld.PSQ_LSTAT_CAUSE, c)]
    let ends (halt : Bool) (t : State) : Prop := t.reg st = Fld.PSQ_LSTAT_STATE.put 3 (s.reg st) ∧ RegsAndEvents s t [st] [] ∧
      t.lane l = { x with
        bodyEnded := true, stopAtEnd := x.stopAtEnd || halt, rep := none, dueSince := none,
        endMet := if x.closings = [] ∧ x.endMet = none then some ((s.psq.time + (2 ^ 32 - 1)) / 2 ^ 32) else x.endMet } ∧
      { t with dev := s.dev, psq := { t.psq with lanes := s.psq.lanes } } = s ∧ ∀ k, k ≠ l → t.lane k = s.lane k
    let off (k : Fin 16) : Nat := s.entryWord k 1 + (match (s.lane k).rep with
      | some r => r.j * r.stride
      | none => 0)
    let hem (k : Fin 16) : Prop := (s.lane k).period ≤ off k + (s.lane k).hem
    let due (k : Fin 16) : Prop := ((s.lane k).start + off k) * 2 ^ 32 ≤ s.psq.time
    let held (k : Fin 16) : Prop := (s.entryWord k 0 / 2 ^ 25 % 2 = 1 ∧ 32 ≤ (s.lane k).closings.length) ∨
      (s.entryOp k = 0x10 ∧ 32 ≤ (s.psq.waked.filter (fun v => v.lane == k.val && v.ctx.val == s.entryWord k 0 % 128)).length)
    let head (k : Fin 16) : Prop := s.laneState k = 2 ∧ 0x10 ≤ s.entryOp k ∧ s.entryOp k ≤ 0x15 ∧ ¬ hem k ∧ due k ∧ ¬ held k
    let since (k : Fin 16) : Nat := (s.lane k).dueSince.getD s.fc
    let served : Prop := head l ∧ s.psq.portFc ≠ some s.fc ∧ ∀ k, head k → since l < since k ∨ (since l = since k ∧ l.val ≤ k.val)
    let write (addr : Nat) (v : Word) (mark : State) (t : Host.Outcome State Fault Refusal) : Prop :=
      let r : Request := ⟨s.psqWho, .be, .write (leBytes 4 v.toNat), addr, 4, true⟩
      let owner := s.fld Reg.PSQ_OWNER Fld.PSQ_OWNER_CTX % 128
      let key : Nat × Nat × Bool := (owner, addr, true)
      let was : Prop := key ∈ s.fab.accepted
      let refused (u : State) : State := (u.laneError l 6).dispatched l
      (s.lockedOut owner = true → t = .next (refused s)) ∧
      (s.lockedOut owner = false →
        (¬ was → s.firewall r = .allowed → s.ringHeld addr = false → s.regHeld addr = false →
          t = .next ((mark.landWrite s.psqWho addr v 0).dispatched l)) ∧
        (¬ was → s.firewall r = .allowed → s.ringHeld addr = true ∨ s.regHeld addr = true →
          t = .next { s with fab := { s.fab with accepted := s.fab.accepted ++ [key] } }) ∧
        (∀ c g, ¬ was → s.firewall r = .refused c g → t = .next (refused (s.recordRefusal r c g))) ∧
        (was → s.region addr ≠ .unmapped →
          (s.ringHeld addr = true ∨ s.regHeld addr = true → t = .next s) ∧
          (s.ringHeld addr = false → s.regHeld addr = false → t = .next
            ((State.landWrite { mark with fab := { s.fab with accepted := s.fab.accepted.erase key } } s.psqWho addr v 0).dispatched l))))
    let closes (j : Job) (sig : Bool) : State :=
      if w 0 / 2 ^ 25 % 2 = 1 then s.setLane l { x with closings := x.closings ++ [⟨j, if sig then some s.fc else none⟩] } else s
    (∀ p ∈ ops, s.laneState l ≠ 2 ∨ s.entryOp l ≠ p.1 → exec p.2 s = .next s) ∧
    (∀ p ∈ ops, s.laneState l = 2 → s.entryOp l = p.1 → ∀ u, s.tableRead 0xFE (s.entryAddr l) 16 = (true, u) →
      exec p.2 s = .next ((failed 7 u).laneNext l 0)) ∧
    (s.laneState l ≠ 2 → exec (.psqUnimplementedOp l) s = .next s) ∧
    (running →
      (s.entryOp l = 0 →
        (x.rep = none → e < 8191 → exec (.psqNop l) s = .next (at' { x with entry := e + 1 })) ∧
        (∀ r, x.rep = some r →
          (e < r.last → e < 8191 → exec (.psqNop l) s = .next (at' { x with entry := e + 1 })) ∧
          (e = r.last → r.last ≤ 8191 → r.first ≤ 8191 → r.j + 1 < r.count →
            exec (.psqNop l) s = .next (at' { x with entry := r.first, rep := some { r with j := r.j + 1 } })) ∧
          (e = r.last → r.last < 8191 → r.count ≤ r.j + 1 → exec (.psqNop l) s = .next (at' { x with entry := r.last + 1, rep := none }))) ∧
        (x.rep = none → e = 8191 → ∃ t, exec (.psqNop l) s = .next t ∧ t.flag st Fld.PSQ_LSTAT_ERR = true ∧
          t.fld st Fld.PSQ_LSTAT_CAUSE = 8 ∧ t.laneState l = 3 ∧ (t.lane l).bodyEnded = true)) ∧
      (s.entryOp l = 1 → ∃ t, exec (.psqEnd l) s = .next t ∧ ends false t) ∧
      (s.entryOp l = 2 → ∃ t, exec (.psqHalt l) s = .next t ∧ ends true t) ∧
      (s.entryOp l = 3 → x.rep = none → e + w 0 % 8192 < 8191 → exec (.psqSel l) s =
        .next (at' { x with entry := e + 1 + if pcnt % max (w 2) 1 = w 3 then 0 else w 0 % 8192 })) ∧
      (s.entryOp l = 4 → x.rep = none → 0 < w 0 % 256 → 0 < w 2 % 65536 → e + w 0 % 256 < 8191 → exec (.psqRep l) s =
        .next (at' { x with entry := e + 1, rep := some ⟨e + 1, e + w 0 % 256, 0, w 2 % 65536, w 3⟩ })) ∧
      (s.entryOp l = 4 → x.rep = none → w 0 % 256 = 0 ∨ w 2 % 65536 = 0 → e + w 0 % 256 < 8191 → exec (.psqRep l) s =
        .next (at' { x with entry := e + 1 + w 0 % 256 })) ∧
      (s.entryOp l = 4 → x.rep ≠ none → exec (.psqRep l) s = .next ((failed 3 s).laneNext l 0)) ∧
      ((∀ p ∈ ops, s.entryOp l ≠ p.1) → exec (.psqUnimplementedOp l) s = .next ((failed 1 s).laneNext l 0)) ∧
      ((∃ p ∈ ops, s.entryOp l = p.1) → exec (.psqUnimplementedOp l) s = .next s) ∧
      (hem l → ∀ p ∈ ops, 0x10 ≤ p.1 → s.entryOp l = p.1 → exec p.2 s = .next ((failed 2 s).laneNext l 0)) ∧
      (¬ hem l → ¬ served → ∀ p ∈ ops, 0x10 ≤ p.1 → p.1 < 0x16 → s.entryOp l = p.1 → exec p.2 s = .next s) ∧
      (¬ hem l → served →
        let c : Ctx := Fin.ofNat 128 (w 0 % 128)
        let shu : Fin 64 := Fin.ofNat 64 (w 0 % 64)
        let image : Word := BitVec.ofNat 32 ((w 2 + w 3 % 256 * 2 ^ 32) / 256)
        let woken (u : State) : State := { u with psq := { u.psq with waked := u.psq.waked ++ [⟨l.val, c, w 0 / 2 ^ 25 % 2 == 1⟩] } }
        (s.entryOp l = 0x10 → write Reg.EVC_DOORBELL (BitVec.ofNat 32 c.val) (woken (closes (.wake c) false)) (exec (.psqWake l) s)) ∧
        (s.entryOp l = 0x11 → s.shuState shu = 0 → write (Reg.SHU_CMD shu) 1 (closes (.shut shu) false) (exec (.psqShut l) s)) ∧
        (s.entryOp l = 0x12 → s.fld Reg.PRS_STAT Fld.PRS_STAT_STATE = 0 →
          write Reg.PRS_START image (closes .press false) (exec (.psqPress l) s)) ∧
        (s.entryOp l = 0x13 → write (Reg.SEAM_GSET (w 0 % 8)) (BitVec.ofNat 32 (w 2 % 65536)) (closes .write true) (exec (.psqGate l) s)) ∧
        (s.entryOp l = 0x14 → write Reg.SPL_PLOAD image (closes .mix (s.flag Reg.SPL_STAT Fld.SPL_STAT_LPEND)) (exec (.psqMix l) s)) ∧
        (s.entryOp l = 0x15 → s.region (0x10000000 + 4 * (w 0 % 2 ^ 23)) = .devReg → write (0x10000000 + 4 * (w 0 % 2 ^ 23))
          (BitVec.ofNat 32 (w 2)) (closes .write true) (exec (.psqWreg l) s)) ∧
        (s.entryOp l = 0x11 → s.shuState shu ≠ 0 → exec (.psqShut l) s = .next ((s.laneError l 5).dispatched l)) ∧
        (s.entryOp l = 0x12 → s.fld Reg.PRS_STAT Fld.PRS_STAT_STATE ≠ 0 → exec (.psqPress l) s = .next ((s.laneError l 5).dispatched l))) ∧
      (¬ hem l → s.entryOp l = 0x16 → due l → ¬ held l → x.rep = none → e < 8191 →
        ∃ t, exec (.psqRaise l) s = .next t ∧ t.lane l = { x with entry := e + 1, dueSince := none } ∧
          RegsAndEvents s t [] (if (s.reg (Reg.PSQ_LEVTEN l)).getLsbD 7 then [128 + 8 * l.val + 7] else []) ∧
          { t with dev := s.dev, evc := s.evc, psq := { t.psq with lanes := s.psq.lanes } } = s ∧ ∀ k, k ≠ l → t.lane k = s.lane k)) ∧
    (∀ i k n, x.closings[i]? = some k → k.signalled = some n → n + 2 ≤ s.fc → ∃ t, exec (.completionRecognised l i) s = .next t ∧ t = s.setLane l (t.lane l) ∧
      (t.lane l).closings = x.closings.eraseIdx i ∧ { t.lane l with closings := x.closings, endMet := x.endMet } = x) ∧
    (∀ i, (∀ k n, x.closings[i]? = some k → k.signalled = some n → s.fc < n + 2) → exec (.completionRecognised l i) s = .next s)

/-- The start of a period (R45, R56 to R59, R63, R64, R70): at the first fc edge at or after its start a lane begins its next period, with its
lag, its counters and its events, or stops at the end that FINISH, HALT or a disabled descriptor asks for; a flip of an earlier fc takes the
lane to the TARGET bank and its descriptor there. -/
def Obligations.PeriodStarts : Prop :=
  ∀ (s : State) (l : Fin 16) (n : Nat) (u : Upsets), s.wf →
    let st := Reg.PSQ_LSTAT l
    let x := s.lane l
    let waits : Bool := s.laneState l == 1
    let ref := if waits then x.ref else x.ref + x.period
    let lag := n - ref
    let pc := Reg.PSQ_LPCNT l
    let pk := Reg.PSQ_LPEAK l
    let bit (k : Nat) : Bool := (s.reg (Reg.PSQ_LEVTEN l)).getLsbD k
    let ev (k : Nat) (b : Bool) : List Nat := if b && (k == 3 || bit k) then [128 + 8 * l.val + k] else []
    let early : Bool := x.maxLag < lag && !s.flag st Fld.PSQ_LSTAT_LAGMAX
    (s.nextStart l = none → exec (.periodStart l u) s = .next s) ∧
    (s.nextStart l = some n → s.psq.time < n * 2 ^ 32 → exec (.periodStart l u) s = .next s) ∧
    (∀ m, s.nextStart l = some m ↔ (s.laneState l = 1 ∧ m = x.start) ∨
      (s.laneState l = 3 ∧ ∃ e, x.endMet = some e ∧ m = max e (x.start + x.period - min x.lag x.hem))) ∧
    (s.nextStart l = some n → n * 2 ^ 32 ≤ s.psq.time → x.stopAtEnd = false → (s.laneBank l = s.targetBank ∨ s.psq.flipFc = some s.fc) →
      early = false → ∃ t, exec (.periodStart l []) s = .next t ∧
        t.lane l = { x with
          ref := ref, start := n, lag := lag, prevLag := x.lag, firstPeriod := waits, entry := x.first, rep := none,
          bodyEnded := false, stopAtEnd := false, endMet := none, closings := [], dueSince := none } ∧
        t.reg st = Fld.PSQ_LSTAT_LATE.put (if 0 < lag then 1 else 0) (Fld.PSQ_LSTAT_STATE.put 2 (s.reg st)) ∧
        (t.reg pc).toNat = (if waits then 0 else ((s.reg pc).toNat + 1) % 2 ^ 32) ∧
        (t.reg pk).toNat = max (s.reg pk).toNat (min lag 0xFFFFFFFF) ∧
        RegsAndEvents s t [st, pc, pk] (ev 0 true ++ ev 1 (0 < lag && (waits || x.lag == 0)) ++ ev 2 (lag == 0 && !waits && 0 < x.lag)) ∧
        { t with dev := s.dev, evc := s.evc, psq := { t.psq with lanes := s.psq.lanes } } = s ∧ ∀ k, k ≠ l → t.lane k = s.lane k) ∧
    (s.nextStart l = some n → n * 2 ^ 32 ≤ s.psq.time → x.stopAtEnd = false → (s.laneBank l = s.targetBank ∨ s.psq.flipFc = some s.fc) →
      early = true → ∃ t, exec (.periodStart l []) s = .next t ∧ t.flag st Fld.PSQ_LSTAT_LAGMAX = true ∧
        (t.ctx s.serviceCtx).lpend.getLsbD 3 = true ∧ (t.lane l).lag = lag ∧ SameOthers s t s.serviceCtx) ∧
    (s.nextStart l = some n → n * 2 ^ 32 ≤ s.psq.time → x.stopAtEnd = true → ∃ t, exec (.periodStart l []) s = .next t ∧
      t.laneState l = 0 ∧ t.flag st Fld.PSQ_LSTAT_DONE = true ∧ t.laneBank l = s.targetBank ∧
      { t with dev := s.dev, evc := s.evc, psq := { t.psq with lanes := s.psq.lanes } } = s) ∧
    (s.nextStart l = some n → n * 2 ^ 32 ≤ s.psq.time → x.stopAtEnd = false → s.laneBank l ≠ s.targetBank → s.psq.flipFc ≠ some s.fc →
      s.ecc = [] →
      let a := bankBase s.targetBank + 16 * l.val
      let w (i : Nat) : Nat := (s.reg (a + 4 * i)).toNat
      (w 0 < 2 ^ 31 → ∃ t, exec (.periodStart l []) s = .next t ∧ t.laneState l = 0 ∧ t.laneBank l = s.targetBank) ∧
      (2 ^ 31 ≤ w 0 → 1000 ≤ w 1 → w 2 + 1000 ≤ w 1 → ∃ t, exec (.periodStart l []) s = .next t ∧ t.laneState l = 2 ∧
        t.laneBank l = s.targetBank ∧ (t.lane l).first = w 0 % 8192 ∧ (t.lane l).entry = w 0 % 8192 ∧ (t.lane l).period = w 1 ∧
        (t.lane l).hem = w 2 ∧ (t.lane l).maxLag = w 3 ∧ (t.lane l).start = n ∧ (t.lane l).ref = ref))

/-- Frames and lines of a display pipe (R259, R263, R265, R266, R286 to R290, R297, R300 to R303): at the latch point a pending commit takes
effect or is refused, the Main Stream Attributes go to the outputs it streams to, the appliqué descriptor is taken where it is whole, and a
disabled pipe stops; a frame ends at its target, its reduced length or at once; a line's requests are answered oldest first; a line that is not
complete counts an overrun and then an underrun. The model's choices: a refused request leaves its line incomplete (log 30), the pixel domain's time
(log 11), the raster that the commands move (log 34), the end of a writeback as its command's operand (log 35). -/
def Obligations.DisplayFramesAndLines : Prop :=
  ∀ (s : State) (p : Fin 4) (u : Upsets) (l : Nat) (w : LineWork), s.wf →
    let x := s.pipe p
    let st := Reg.DP_STAT p
    let is := Reg.DP_ISTAT p
    let pe (k : Nat) : List Nat := if k = 3 ∨ k = 4 ∨ k = 5 ∨ (s.reg (Reg.DP_EVTEN p)).getLsbD k = true then [400 + 16 * p.val + k] else []
    let others (t : State) : Prop := (∀ q, q ≠ p → t.pipe q = s.pipe q) ∧ { t with dev := s.dev, evc := s.evc, pipes := s.pipes } = s
    let told (t : State) : Prop := { t with dev := s.dev, evc := s.evc, pipes := s.pipes } = s ∧
      (∀ q, q ≠ p → { t.pipe q with msa := (s.pipe q).msa } = s.pipe q) ∧
      ∀ n : Fin 4, (t.outputSends n = .stream p → n.val < 2 → ∃ m, (t.pipe n).msa = some m ∧ m.htotal = t.htot p ∧ m.vtotal = t.vtot p ∧
        m.hwidth = t.hact p ∧ m.vheight = t.vact p ∧ (m.hsp = true ↔ t.actFld p (Reg.DP_HTIM1 p) Fld.DP_HTIM1_HPOL = 1) ∧
        (m.vsp = true ↔ t.actFld p (Reg.DP_VTIM1 p) Fld.DP_VTIM1_VPOL = 1)) ∧
        (t.outputSends n ≠ .stream p ∨ 2 ≤ n.val → (t.pipe n).msa = (s.pipe n).msa)
    let runs : Prop := s.pipeRuns p = true
    let fresh : Prop := runs ∧ x.next = .latch ∧ x.cur = none ∧ x.whole = false ∧ x.wbOn = false ∧ x.framePend = false ∧ s.ecc = []
    let word (i : Nat) : Nat := leNat (s.bytes (0x5000000 + 64 * p.val + 4 * i) 4)
    let on : Prop := s.flag (Reg.DP_CTRL p) Fld.DP_CTRL_EN = true
    let pending : Prop := s.flag (Reg.DP_COMMIT p) Fld.DP_COMMIT_PENDING = true
    let count (t : State) (a : Nat) : Prop := t.reg a = if s.reg a = 0xFFFFFFFF then s.reg a else s.reg a + 1
    (¬ (runs ∧ x.next = .latch) → exec (.frameLatch p u) s = .next s) ∧
    (fresh → ¬ on → ∃ t, exec (.frameLatch p []) s = .next t ∧ t.pipeRuns p = false ∧ t.flag st Fld.DP_STAT_RRACT = false ∧
      t.flag (Reg.DP_COMMIT p) Fld.DP_COMMIT_PENDING = false ∧ t.llState p = 0 ∧ (t.pipe p).next = .latch ∧ others t ∧
      (s.llState p = 0 → RegsAndEvents s t [st, Reg.DP_COMMIT p] (pe 0)) ∧
      (s.llState p ≠ 0 → t.flag is Fld.DP_ISTAT_LLOVR = true ∧
        RegsAndEvents s t [st, Reg.DP_COMMIT p, Reg.DP_LLSTAT p, is] (pe 0 ++ pe 15))) ∧
    (fresh → on → ∃ t, exec (.frameLatch p []) s = .next t ∧ t.pipeRuns p = true ∧ (t.pipe p).next = .fetch 0 ∧ (t.pipe p).pixel = 0 ∧
      (t.pipe p).line = t.vact p ∧ t.flag (Reg.DP_COMMIT p) Fld.DP_COMMIT_PENDING = false ∧ told t ∧
      (¬ pending → (t.pipe p).active = x.active) ∧
      (pending → s.commitCheck p = none → (t.pipe p).active = t.stagedCopy p ∧
        t.fld st Fld.DP_STAT_PALB = s.fld st Fld.DP_STAT_PALB ^^^ (x.swap % 2) ∧
        t.fld st Fld.DP_STAT_SPRB = s.fld st Fld.DP_STAT_SPRB ^^^ (x.swap / 2 % 2)) ∧
      (∀ c, pending → s.commitCheck p = some c → (t.pipe p).active = x.active ∧ t.flag st Fld.DP_STAT_CREF = true ∧
        t.fld st Fld.DP_STAT_CAUSE = c) ∧
      (word 7 / 65536 = word 0 / 65536 → word 0 / 2 % 4 ≠ 3 → t.fld (Reg.DP_APSTAT p) Fld.DP_APSTAT_ACT = word 0 % 2 ∧
        t.fld (Reg.DP_APSTAT p) Fld.DP_APSTAT_SEQ = word 0 / 65536) ∧
      (word 7 / 65536 ≠ word 0 / 65536 ∨ word 0 / 2 % 4 = 3 → (t.pipe p).apl = x.apl ∧ t.flag is Fld.DP_ISTAT_APH = true)) ∧
    (let gl : Prop := s.actFld p (Reg.DP_GLCTL p) Fld.DP_GLCTL_EN = 1
     let longer : Prop := s.flag st Fld.DP_STAT_RRACT = true ∧ s.vtot p + x.extra < s.actFld p (Reg.DP_RRCTL p) Fld.DP_RRCTL_RRVTOT
     let again : Pipe := { x with pixel := 0, extra := x.extra + 1, hold := false, fresh := true, matched := none }
     let starts (t : State) : Prop := (t.pipe p).line = 0 ∧ (t.pipe p).pixel = 0 ∧ (t.pipe p).next = .fetch 1 ∧ (t.pipe p).extra = 0 ∧
       (t.pipe p).whole = true ∧ (t.pipe p).crc = 0xFFFFFFFF ∧ (t.pipe p).active = x.active ∧ others { t with free := s.free }
     let time : Nat := s.follower (s.pixelCycle p)
     let drawn : State := { s with free := s.free + 1 }
     (¬ (runs ∧ x.next = .frameEnd) → exec (.frameEnd p) s = .next s) ∧
     (runs → x.next = .frameEnd → ¬ gl → longer → exec (.frameEnd p) s = .next (s.setPipe p again)) ∧
     (runs → x.next = .frameEnd → ¬ gl → ¬ longer → ∃ t, exec (.frameEnd p) s = .next t ∧ starts t ∧ t.dev = s.dev ∧ t.evc = s.evc) ∧
     (∀ j, runs → x.next = .frameEnd → gl → (x.glJ = some j ∨ (x.glJ = none ∧ j = s.glChoose p time)) →
       (s.glTargetTime p j < time → x.glJ = none → ∃ t, exec (.frameEnd p) s = .next t ∧ starts t ∧
         t.flag st Fld.DP_STAT_SLIP = true ∧ (t.pipe p).glK = some j ∧ RegsAndEvents s t [st, Reg.DP_GLERR p] (pe 9)) ∧
       (s.glTargetTime p j = time ∨ (s.glTargetTime p j < time ∧ x.glJ ≠ none) → ∃ t, exec (.frameEnd p) s = .next t ∧
         starts t ∧ (t.pipe p).glK = some j ∧ RegsAndEvents s t [Reg.DP_GLERR p] []) ∧
       (time < s.glTargetTime p j → s.lineFits p (s.glTargetTime p j - time) = true →
         exec (.frameEnd p) s = .next (drawn.setPipe p { again with glJ := some j })) ∧
       (time < s.glTargetTime p j → s.lineFits p (s.glTargetTime p j - time) = false →
         exec (.frameEnd p) s = .next (drawn.setPipe p { x with glJ := some j, hold := true, pixel := s.htot p - 1 })))) ∧
    (let m := s.fld (Reg.DP_LMATCH p) Fld.DP_LMATCH_LINE
     let due : Prop := runs ∧ m < s.vtot p ∧ x.matched ≠ some m ∧ s.passIndex p x.line x.pixel ≤ s.passIndex p m 0 ∧
       s.beforeNext p (s.passIndex p m 0) = true
     (due → ∃ t, exec (.lineMatch p) s = .next t ∧ others t ∧
       t.pipe p = { x with line := m, pixel := 0, fresh := x.fresh || x.line != m || x.pixel != 0, matched := some m } ∧
       RegsAndEvents s t [] (pe 1)) ∧ (¬ due → exec (.lineMatch p) s = .next s)) ∧
    (x.framePend = true → x.wbPend = false → ∃ t, exec (.frameDone p) s = .next t ∧ t.pipe p = { x with framePend := false } ∧ others t ∧
      RegsAndEvents s t [] (pe 2)) ∧
    (x.framePend = false ∨ x.wbPend = true → exec (.frameDone p) s = .next s) ∧
    (let wb := Reg.DP_WBSTAT p
     (x.wbPend = true → ∃ t, exec (.writebackDone p false) s = .next t ∧ t.pipe p = { x with wbPend := false } ∧ others t ∧
       t.flag wb Fld.DP_WBSTAT_DONE = true ∧ t.fld wb Fld.DP_WBSTAT_LAST = s.fld wb Fld.DP_WBSTAT_NEXT ∧
       t.fld wb Fld.DP_WBSTAT_NEXT = 1 - s.fld wb Fld.DP_WBSTAT_NEXT ∧ RegsAndEvents s t [wb] []) ∧
     (x.wbPend = true ∨ x.wbOn = true → ∃ t, exec (.writebackDone p true) s = .next t ∧
       t.pipe p = { x with wbOn := false, wbPend := false } ∧ t.reg wb = Fld.DP_WBSTAT_OVF.put 1 (s.reg wb) ∧ others t ∧
       RegsAndEvents s t [wb] (pe 8)) ∧
     (x.wbPend = false → x.wbOn = false → exec (.writebackDone p true) s = .next s ∧ exec (.writebackDone p false) s = .next s)) ∧
    (runs → x.next = .fetch l → s.ecc = [] → ∃ t v, exec (.lineFetchStart p) s = .next t ∧ (t.pipe p).fetch = some v ∧ v.line = l ∧
      v.cfg = x.active ∧ v.buf = [] ∧ v.out = [] ∧ v.failed = false ∧ v.sprites.length ≤ 256 ∧ (t.pipe p).next = .compose l ∧
      (t.pipe p).line = s.fetchLine p l ∧ (t.pipe p).pixel = 0 ∧ (t.pipe p).cur = x.cur ∧ others t) ∧
    (x.fetch = some w → w.todo = [] → exec (.planeFetchResponse p u) s = .next s) ∧
    (∀ a b rest, x.fetch = some w → w.todo = a :: b :: rest → (∀ q ∈ s.fab.accepted, q.1 ≠ 193 + p.val) →
      (∀ g ∈ s.fab.got, g.1 ≠ 193 + p.val) → s.memHeld (64 * a) = false → s.region (64 * a) ≠ .devReg → s.ecc = [] →
      (∀ k, s.targetOf (64 * a) = some k → s.waitingAt k = 0) →
      let r : Request := ⟨.pipe p, .rt0, .read, 64 * a, 64, false⟩
      (s.firewall r = .allowed → exec (.planeFetchResponse p []) s =
        .next (s.setPipe p { x with fetch := some { w with todo := b :: rest, buf := (a, s.bytes (64 * a) 64) :: w.buf } })) ∧
      (∀ k g, s.firewall r = .refused k g → ∃ t, exec (.planeFetchResponse p []) s = .next t ∧
        t.pipe p = { x with fetch := some { w with todo := b :: rest, failed := true } })) ∧
    (x.fetch = some w → w.failed = true ∨ w.todo ≠ [] → w.overran = false → ∃ t, exec (.budgetOverrun p) s = .next t ∧
      count t (Reg.DP_OCNT p) ∧ t.reg is = Fld.DP_ISTAT_BOVR.put 1 (s.reg is) ∧
      (let b := s.actFld p (Reg.DP_LBUD p) Fld.DP_LBUD_BUDGET
       t.pipe p = { x with fetch := some { w with overran := true }, pixel := max x.pixel b, fresh := x.fresh && b ≤ x.pixel }) ∧
      RegsAndEvents s t [Reg.DP_OCNT p, is] (pe 4) ∧ others t) ∧
    (x.fetch = none ∨ (x.fetch = some w ∧ (w.overran = true ∨ (w.failed = false ∧ w.todo = []))) → exec (.budgetOverrun p) s = .next s) ∧
    (runs → x.next = .compose l → x.fetch = some w → x.cur = none → s.ecc = [] → ∃ t, exec (.composeStart p) s = .next t ∧
      (t.pipe p).fetch = none ∧ (t.pipe p).pixel = s.htot p - 16 ∧
      (t.pipe p).next = (if l = 0 then .frameEnd else if l + 1 < s.vact p then .fetch (l + 1) else .latch) ∧
      (w.failed = false → w.todo = [] → (t.pipe p).cur = some { w with underrun := false } ∧ t.dev = s.dev ∧ t.evc = s.evc) ∧
      (w.failed = true ∨ w.todo ≠ [] → (∃ v, (t.pipe p).cur = some v ∧ v.underrun = true ∧ v.line = w.line) ∧ count t (Reg.DP_UCNT p) ∧
        t.reg is = Fld.DP_ISTAT_UNDR.put 1 (s.reg is) ∧ t.reg (Reg.DP_ULINE p) = BitVec.ofNat 32 l ∧ t.evc.sync = s.evc.sync ++ pe 3))

/-- Commits, enables and outputs of a display pipe (R263 to R265, R281 to R283, R288): an accepted GO waits for the latch point and kicks; an
enable checks and takes the staged registers and starts the raster where the pixel clock is locked; an output that another pipe names is
refused, and a locked selection ignores the write; training makes at most 5 attempts at each of its two phases, each with the swing and pre-emphasis that the sink last asked for; AUX
transactions and hot-plug signals show in their status registers, whose rising bits raise event 12; a disabled output drives nothing, an LVDS
output without a running pipe the differential 0 state, and a DisplayPort output that failed to train the idle pattern. -/
def Obligations.DisplayCommitsAndOutputs : Prop :=
  ∀ (s : State) (who : Who) (p : Fin 4) (data : Word) (reply : BitVec 2) (n : Fin 17) (bytes : List Byte)
    (cr eq : List (Bool × BitVec 16)), s.wf →
    let x := s.pipe p
    let st := Reg.DP_STAT p
    let ct := Reg.DP_CTRL p
    let os := Reg.DP_OSTAT p
    let ax := Reg.DP_AUXSTAT p
    let oc := Reg.DP_OCTL p
    let pe (k : Nat) : List Nat := if (s.reg (Reg.DP_EVTEN p)).getLsbD k = true then [400 + 16 * p.val + k] else []
    let rises (a : Nat) (f : Fld) (k : Nat) : List Nat := if s.flag a f = true then [] else pe k
    let others (t : State) : Prop := (∀ q, q ≠ p → t.pipe q = s.pipe q) ∧ { t with dev := s.dev, evc := s.evc, pipes := s.pipes } = s
    let pending : Prop := s.flag (Reg.DP_COMMIT p) Fld.DP_COMMIT_PENDING = true
    let runs : Prop := s.pipeRuns p = true
    let reduced : Prop := s.flag st Fld.DP_STAT_RRACT = true
    let large : Prop := p.val < 2
    (data.getLsbD 0 = false → exec (.commitGo who p data) s = .next s ∧ exec (.rrKick who p data) s = .next s) ∧
    (data.getLsbD 0 = true → pending → ∃ t, exec (.commitGo who p data) s = .next t ∧ t.reg st = Fld.DP_STAT_AWI.put 1 (s.reg st) ∧
      RegsAndEvents s t [st] (rises st Fld.DP_STAT_AWI 13) ∧ OnlyRegs s t) ∧
    (data.getLsbD 0 = true → ¬ pending → ¬ runs → ∃ t, exec (.commitGo who p data) s = .next t ∧
      t.reg (Reg.DP_COMMIT p) = Fld.DP_COMMIT_PENDING.put 1 (s.reg (Reg.DP_COMMIT p)) ∧ t.pipe p = { x with swap := data.toNat / 2 % 8 } ∧
      RegsAndEvents s t [Reg.DP_COMMIT p] [] ∧ others t) ∧
    (data.getLsbD 0 = true → ¬ runs → exec (.rrKick who p data) s = .next s) ∧
    (data.getLsbD 0 = true → runs → ¬ reduced →
      exec (.rrKick who p data) s = .next (s.setPipe p { x with kicked := true })) ∧
    (data.getLsbD 0 = true → runs → reduced → ∃ t, exec (.rrKick who p data) s = .next t ∧
      t.reg st = Fld.DP_STAT_RRACT.put 0 (s.reg st) ∧ (t.pipe p).kicked = true ∧ (t.pipe p).same = 0 ∧
      RegsAndEvents s t [st] (pe 11) ∧ others t) ∧
    (data.getLsbD 0 = true → ¬ pending → runs → ¬ reduced → ∃ t, exec (.commitGo who p data) s = .next t ∧
      t.flag (Reg.DP_COMMIT p) Fld.DP_COMMIT_PENDING = true ∧
      t.pipe p = { x with swap := data.toNat / 2 % 8, kicked := true } ∧ RegsAndEvents s t [Reg.DP_COMMIT p] [] ∧ others t) ∧
    (s.flag ct Fld.DP_CTRL_EN = false → Fld.DP_CTRL_EN.get data = 1 → ¬ runs →
      (∀ k, s.commitCheck p = some k → ∃ t, exec (.pipeEnable who p data) s = .next t ∧ t.flag ct Fld.DP_CTRL_EN = false ∧
        t.fld st Fld.DP_STAT_CAUSE = k ∧ t.flag st Fld.DP_STAT_CREF = true ∧ t.pipes = s.pipes ∧
        RegsAndEvents s t [ct, st] (rises st Fld.DP_STAT_CREF 13)) ∧
      (s.commitCheck p = none → ∃ t, exec (.pipeEnable who p data) s = .next t ∧ t.flag ct Fld.DP_CTRL_EN = true ∧
        (t.pipe p).active = t.stagedCopy p ∧
        (s.flag (Reg.SYS_PXCTL p) Fld.SYS_PXCTL_LOCK = true → t.pipeRuns p = true ∧ (t.pipe p).next = .latch ∧ (t.pipe p).pixel = 0 ∧
          (t.pipe p).line = t.vact p) ∧
        (s.flag (Reg.SYS_PXCTL p) Fld.SYS_PXCTL_LOCK = false → t.pipeRuns p = false) ∧ others t)) ∧
    (s.flag ct Fld.DP_CTRL_EN = true ∨ Fld.DP_CTRL_EN.get data = 0 ∨ runs → ∃ t, exec (.pipeEnable who p data) s = .next t ∧
      t.fld ct Fld.DP_CTRL_EN = Fld.DP_CTRL_EN.get data ∧ RegsAndEvents s t [ct] [] ∧ OnlyRegs s t) ∧
    (let v := Fld.DP_OUTSEL_OUT.get data
     let a := Reg.DP_OUTSEL p
     let taken : Prop := 1 ≤ v ∧ v ≤ 4 ∧ ∃ q, q ≠ p ∧ (s.fld (Reg.DP_OUTSEL q) Fld.DP_OUTSEL_OUT = v ∨
       s.actFld q (Reg.DP_OUTSEL q) Fld.DP_OUTSEL_OUT = v)
     let lock : Bool := (s.reg ct).getLsbD 31
     (lock = true → exec (.outselWrite who p data) s = .next s) ∧
     (lock = false → pending → ∃ t, exec (.outselWrite who p data) s = .next t ∧ t.reg st = Fld.DP_STAT_AWI.put 1 (s.reg st) ∧
       RegsAndEvents s t [st] (rises st Fld.DP_STAT_AWI 13) ∧ OnlyRegs s t) ∧
     (lock = false → ¬ pending → taken → ∃ t, exec (.outselWrite who p data) s = .next t ∧ t.reg st = Fld.DP_STAT_XREF.put 1 (s.reg st) ∧
       RegsAndEvents s t [st] (rises st Fld.DP_STAT_XREF 13) ∧ OnlyRegs s t) ∧
     (lock = false → ¬ pending → ¬ taken → ∃ t, exec (.outselWrite who p data) s = .next t ∧ RegsAndEvents s t [a] [] ∧ OnlyRegs s t ∧
       t.fld a Fld.DP_OUTSEL_OUT = if v ≤ 4 then v else 0)) ∧
    (large → Fld.DP_OCTL_TRAIN.get data = 0 → ∃ t, exec (.linkTrain who p data) s = .next t ∧ RegsAndEvents s t [oc] [] ∧ OnlyRegs s t ∧
      t.fld oc Fld.DP_OCTL_RATE = Fld.DP_OCTL_RATE.get data ∧ t.fld oc Fld.DP_OCTL_LANES = min 2 (Fld.DP_OCTL_LANES.get data)) ∧
    (large → Fld.DP_OCTL_TRAIN.get data = 1 → ∃ t, exec (.linkTrain who p data) s = .next t ∧
      t.flag os Fld.DP_OSTAT_TRAINED = false ∧ t.pipe p = { x with train := .running } ∧ RegsAndEvents s t [oc, os] [] ∧ others t) ∧
    (¬ large → ∃ t, exec (.linkTrain who p data) s = .next t ∧ t.reg oc = data &&& 0x80000007 ∧ RegsAndEvents s t [oc] [] ∧ OnlyRegs s t) ∧
    (x.train ≠ .running → exec (.linkTrainEnd p ⟨cr, eq⟩) s = .next s) ∧
    (x.train = .running →
      let reached (l : List (Bool × BitVec 16)) : Bool := (l.take 5).any (fun q => q.1)
      let drive (d : BitVec 16) (l : List (Bool × BitVec 16)) : BitVec 16 := ((l.take 5).takeWhile (fun q => !q.1)).foldl (fun _ q => q.2) d
      (reached cr = true → reached eq = true → ∃ t, exec (.linkTrainEnd p ⟨cr, eq⟩) s = .next t ∧ others t ∧
        t.reg os = Fld.DP_OSTAT_TRAINED.put 1 (s.reg os) ∧ RegsAndEvents s t [os] [] ∧
        t.pipe p = { x with train := .done, drive := drive (drive 0 cr) eq }) ∧
      (reached cr = false ∨ reached eq = false → ∃ t, exec (.linkTrainEnd p ⟨cr, eq⟩) s = .next t ∧ others t ∧
        t.flag os Fld.DP_OSTAT_TFAIL = true ∧ RegsAndEvents s t [os] (rises os Fld.DP_OSTAT_TFAIL 12) ∧
        t.pipe p = { x with train := .failed, drive := if reached cr then drive (drive 0 cr) eq else drive 0 cr })) ∧
    (s.flag oc Fld.DP_OCTL_EN = false → s.outputSends p = .highZ) ∧
    (s.flag oc Fld.DP_OCTL_EN = true →
      let undriven : Prop := ∀ q, s.driverOf p = some q → s.pipeRuns q = false
      (¬ large → undriven → s.outputSends p = .zero) ∧
      (large → x.train = .failed ∨ (x.train = .done ∧ undriven) → s.outputSends p = .idlePattern)) ∧
    (large → s.flag ax Fld.DP_AUXSTAT_BUSY = false → ∃ t, exec (.auxTransaction who p data) s = .next t ∧
      t.reg ax = Fld.DP_AUXSTAT_BUSY.put 1 (s.reg ax) ∧ t.pipe p = { x with auxCmd := data } ∧ RegsAndEvents s t [ax] [] ∧ others t) ∧
    (¬ large ∨ s.flag ax Fld.DP_AUXSTAT_BUSY = true → exec (.auxTransaction who p data) s = .next s) ∧
    (s.flag ax Fld.DP_AUXSTAT_BUSY = false → exec (.auxDone p reply n bytes) s = .next s) ∧
    (s.flag ax Fld.DP_AUXSTAT_BUSY = true → ∃ t, exec (.auxDone p reply n bytes) s = .next t ∧
      t.flag ax Fld.DP_AUXSTAT_BUSY = false ∧ t.fld ax Fld.DP_AUXSTAT_REPLY = reply.toNat ∧ t.fld ax Fld.DP_AUXSTAT_COUNT = n.val ∧
      t.flag ax Fld.DP_AUXSTAT_DONE = true ∧ OnlyRegs s t ∧
      (x.auxCmd.getLsbD 28 = false → RegsAndEvents s t [ax] (rises ax Fld.DP_AUXSTAT_DONE 12)) ∧
      (x.auxCmd.getLsbD 28 = true → RegsAndEvents s t (ax :: (List.range 4).map (Reg.DP_AUXD p)) (rises ax Fld.DP_AUXSTAT_DONE 12) ∧
        ∀ i b, i < n.val → i < 16 → bytes[i]? = some b → (t.reg (Reg.DP_AUXD p (i / 4))).toNat / 256 ^ (i % 4) % 256 = b.toNat)) ∧
    (¬ large ∨ s.isOff (7 + p.val) = true → exec (.hpdPlug p) s = .next s ∧ exec (.hpdUnplug p) s = .next s ∧ exec (.irqHpd p) s = .next s) ∧
    (large → s.isOff (7 + p.val) = false →
      (∃ t, exec (.hpdPlug p) s = .next t ∧ t.reg os = Fld.DP_OSTAT_PLUG.put 1 (Fld.DP_OSTAT_HPD.put 1 (s.reg os)) ∧
        RegsAndEvents s t [os] (rises os Fld.DP_OSTAT_PLUG 12) ∧ OnlyRegs s t) ∧
      (∃ t, exec (.hpdUnplug p) s = .next t ∧ t.reg os = Fld.DP_OSTAT_UNPLUG.put 1 (Fld.DP_OSTAT_HPD.put 0 (s.reg os)) ∧
        RegsAndEvents s t [os] (rises os Fld.DP_OSTAT_UNPLUG 12) ∧ OnlyRegs s t) ∧
      (∃ t, exec (.irqHpd p) s = .next t ∧ t.reg os = Fld.DP_OSTAT_IRQ.put 1 (s.reg os) ∧
        RegsAndEvents s t [os] (rises os Fld.DP_OSTAT_IRQ 12) ∧ OnlyRegs s t))

/-- The line list engine (R306 to R309): at its place an instruction that the engine meets executes one pxc after the last; END ends the
pass, WAIT makes the next wait for its position or sets LATE, WREG and WREGT write the active copy or the active palette, REP repeats its
body, RAISE raises event 6; an instruction of another OP, or of an engine that stands still, changes nothing. -/
def Obligations.LineListEngine : Prop :=
  ∀ (s : State) (p : Fin 4) (i : Nat), s.wf →
    let x := s.pipe p
    let ls := Reg.DP_LLSTAT p
    let pc := s.llPc p
    let w (k : Nat) : Nat := s.llWord p k
    let next : Nat × Nat := if x.fresh || x.hold then (x.line, x.pixel) else if x.pixel + 1 < s.htot p then (x.line, x.pixel + 1) else ((x.line + 1) % s.vtot p, 0)
    let ops : List (Nat × Instr) := [(0, .llEnd p), (1, .llWait p), (2, .llWreg p), (3, .llWregt p), (4, .llRep p), (5, .llRaise p)]
    let meets : Prop := s.pipeRuns p = true ∧ s.llState p = 2 ∧ s.ecc = [] ∧ s.passIndex p x.line x.pixel ≤ s.passIndex p next.1 next.2 ∧
      s.beforeNext p (s.passIndex p next.1 next.2) = true
    let here : Pipe := { x with line := next.1, pixel := next.2, fresh := false, target := none }
    let others (t : State) : Prop := (∀ q, q ≠ p → t.pipe q = s.pipe q) ∧ { t with dev := s.dev, evc := s.evc, pipes := s.pipes } = s
    let goes (t : State) (n : Nat) : Prop := t.llState p = 2 ∧ t.llPc p = n
    let plain : Prop := x.rep = none ∧ pc < 1023
    (s.pipeRuns p = false ∨ s.llState p = 0 → ∀ q ∈ ops, exec q.2 s = .next s) ∧
    (meets → s.llOp p ≤ 5 → ∀ q ∈ ops, q.1 ≠ s.llOp p → exec q.2 s = .next s) ∧
    (s.llState p = 2 → s.pipeRuns p = true → s.passIndex p x.line x.pixel ≤ s.passIndex p next.1 next.2 →
      s.beforeNext p (s.passIndex p next.1 next.2) = false → ∀ q ∈ ops, exec q.2 s = .next s) ∧
    (meets →
      (s.llOp p = 0 → ∃ t, exec (.llEnd p) s = .next t ∧ t.llState p = 0 ∧ t.pipe p = { here with rep := none } ∧ others t ∧
        RegsAndEvents s t [ls] []) ∧
      (s.llOp p = 1 → plain →
        let line := w 1 / 2 ^ 16 % 8192
        let pixel := w 1 % 8192
        let late : Prop := line < s.vtot p ∧ s.passIndex p line pixel < s.passIndex p next.1 next.2
        let now : Prop := line < s.vtot p ∧ s.passIndex p line pixel = s.passIndex p next.1 next.2
        ∃ t, exec (.llWait p) s = .next t ∧ t.llPc p = pc + 1 ∧ others t ∧ RegsAndEvents s t [ls] [] ∧
          (late → t.llState p = 2 ∧ t.flag ls Fld.DP_LLSTAT_LATE = true ∧ t.pipe p = here) ∧
          (now → t.llState p = 2 ∧ t.pipe p = here) ∧
          (¬ late → ¬ now → t.llState p = 1 ∧ t.pipe p = { here with target := some (line, pixel) })) ∧
      (s.llOp p = 2 → plain →
        let o := w 0 % 2 ^ 20
        let pal := 0x20000 + s.fld (Reg.DP_STAT p) Fld.DP_STAT_PALB * 0x4000
        let a := pipeBase p + o
        ∃ t, exec (.llWreg p) s = .next t ∧ goes t (pc + 1) ∧
          (∀ d, o = 0x300 + 4 * i → i ≤ 5 → RegMap.find a = some d → (t.pipe p).line = next.1 ∧ (t.pipe p).pixel = next.2 ∧
            RegsAndEvents s t [ls] [] ∧ ∃ v : Word,
            (∀ f ∈ d.fields, f.acc = .rwl ∨ f.acc = .rw → f.stores = [] → f.fld.get v = f.fld.get (BitVec.ofNat 32 (w 1))) ∧
            (t.pipe p).active = if v = RegMap.reset a then Sparse.erase o x.active else Sparse.put o v x.active) ∧
          (pal ≤ o → o < pal + 0x2000 → o % 4 = 0 → t.reg a = BitVec.ofNat 32 (w 1) ∧ RegsAndEvents s t [ls, a] []) ∧
          (o % 4 ≠ 0 → t.fld ls Fld.DP_LLSTAT_CAUSE = 2 ∧ t.flag (Reg.DP_ISTAT p) Fld.DP_ISTAT_LLERR = true ∧
            (t.pipe p).active = x.active)) ∧
      (s.llOp p = 3 → plain →
        let o := w 0 % 2 ^ 20
        let pal := 0x20000 + s.fld (Reg.DP_STAT p) Fld.DP_STAT_PALB * 0x4000
        let table := pipeBase p + 0x52000 + s.llBank p * 0x4000 + 4 * (w 1 % 1024)
        ∃ t, exec (.llWregt p) s = .next t ∧ goes t (pc + 1) ∧
          (pal ≤ o → o < pal + 0x2000 → o % 4 = 0 → t.reg (pipeBase p + o) = s.reg table ∧ RegsAndEvents s t [ls, pipeBase p + o] [])) ∧
      (s.llOp p = 4 → x.rep = none →
        let len := w 0 % 1024
        let count := w 1 / 2 ^ 16
        ((len = 0 ∨ count = 0) → pc + 1 + len ≤ 1023 → ∃ t, exec (.llRep p) s = .next t ∧ goes t (pc + 1 + len) ∧ t.pipe p = here ∧
          RegsAndEvents s t [ls] [] ∧ others t) ∧
        (0 < len → 0 < count → pc < 1023 → ∃ t, exec (.llRep p) s = .next t ∧ goes t (pc + 1) ∧
          t.pipe p = { here with rep := some ⟨pc + 1, pc + len, 0, count, w 1 % 8192⟩ } ∧ RegsAndEvents s t [ls] [] ∧ others t)) ∧
      (s.llOp p = 4 → x.rep ≠ none → ∃ t, exec (.llRep p) s = .next t ∧ t.flag (Reg.DP_ISTAT p) Fld.DP_ISTAT_LLERR = true) ∧
      (s.llOp p = 5 → plain → ∃ t, exec (.llRaise p) s = .next t ∧ goes t (pc + 1) ∧ t.pipe p = here ∧ others t ∧
        RegsAndEvents s t [ls] (if (s.reg (Reg.DP_EVTEN p)).getLsbD 6 then [400 + 16 * p.val + 6] else [])) ∧
      (s.llOp p = 5 → ∀ r, x.rep = some r → pc = r.last → r.j + 1 < r.count → r.first ≤ 1023 → ∃ t, exec (.llRaise p) s = .next t ∧
        goes t r.first ∧ t.pipe p = { here with rep := some { r with j := r.j + 1 } }) ∧
      (s.llOp p = 5 → x.rep = none → pc = 1023 → ∃ t, exec (.llRaise p) s = .next t ∧ t.llState p = 0 ∧
        t.fld ls Fld.DP_LLSTAT_CAUSE = 4))

/-- The presser's control (R317, R318, R322, R325 to R329): a start takes up the descriptor at its address and checks it, or is refused while
the presser works; a row is written once every earlier write of the presser has landed, and a landed row, whose own writes have, moves RDONE and the
watermark on, and after the last one the chain goes on or ends with DONE; ABORT stops
the work and completes with ABORTED, and takes the place of an end of the same fc.

The operations on a row (R319 to R321, R323, R324): a row that the presser may begin, with a row buffer free, is read, and its writes are
those of the operation: copied, filled, keyed, blended or combined pixels, each at its place in the destination row, a half byte outside it as
read; another operation, no buffer or no row left changes nothing, a read that fails stops the presser with its cause and address, and one that
is held is made again. CKEY at
4 bpp reads the whole destination row (the model's reading, log 37). -/
def Obligations.PresserEngine : Prop :=
  (∀ (s : State) (who : Who) (data : Word), s.wf →
    let st := Reg.PRS_STAT
    let state := s.fld st Fld.PRS_STAT_STATE
    let a := data.toNat * 256
    let read : List Byte := s.cohBytes a 64
    let desc : List Word := (List.range 16).map (fun i => BitVec.ofNat 32 (leNat ((read.drop (4 * i)).take 4)))
    let request : Request := ⟨.presser, .bk, .read, a, 64, true⟩
    let quiet : Prop := (∀ q ∈ s.fab.accepted, q.1 ≠ Who.presser.id) ∧ ∀ g ∈ s.fab.got, g.1 ≠ Who.presser.id
    let ready : Prop := quiet ∧ s.ecc = [] ∧ s.region a ≠ .devReg ∧ s.firewall request = .allowed ∧ s.memHeld a = false ∧
      (∀ k, s.targetOf a = some k → s.waitingAt k = 0) ∧ ∀ q y, s.l2Get q (lineOf a) = some y → y.dirty = false ∧ y.errs = []
    let ended (u t : State) : Prop := t.fld st Fld.PRS_STAT_STATE = 0 ∧ t.prs.rows = [] ∧ t.mem = u.mem ∧
      ∀ l k, k ∈ (t.lane l).closings → k.job = .press → k.signalled.isSome = true
    let hm1 := (rectOf s.prs.desc 5).hm1
    let w0 := s.prsWord 0
    (state ≠ 0 → ∃ t, exec (.prsStart who data []) s = .next t ∧ t.reg st = Fld.PRS_STAT_SREF.put 1 (s.reg st) ∧
      RegsAndEvents s t [st] [387] ∧ OnlyRegs s t) ∧
    (state = 0 → ready → prsCheck desc = none → ∃ t, exec (.prsStart who data []) s = .next t ∧ t.reg Reg.PRS_CUR = data ∧
      t.reg st = Fld.PRS_STAT_RDONE.put 0 (Fld.PRS_STAT_STATE.put 1 (s.reg st)) ∧ t.prs = { s.prs with desc := desc, begun := 0, rows := [], issued := false } ∧
      RegsAndEvents s t [st, Reg.PRS_CUR] [] ∧ { t with dev := s.dev, prs := s.prs } = s) ∧
    (∀ c, state = 0 → ready → prsCheck desc = some c → ∃ t, exec (.prsStart who data []) s = .next t ∧ ended s t ∧
      t.flag st Fld.PRS_STAT_ERR = true ∧ t.fld st Fld.PRS_STAT_CAUSE = c ∧ t.reg Reg.PRS_EADRL = BitVec.ofNat 32 a ∧
      RegsAndEvents s t [st, Reg.PRS_CUR, Reg.PRS_EADRL, Reg.PRS_EADRH] [385]) ∧
    (∀ k g, state = 0 → quiet → s.region a ≠ .devReg → s.firewall request = .refused k g →
      ∃ t, exec (.prsStart who data []) s = .next t ∧ ended s t ∧ t.flag st Fld.PRS_STAT_ERR = true ∧ t.fld st Fld.PRS_STAT_CAUSE = 1) ∧
    (s.prs.rows = [] ∨ state ≠ 1 ∨ s.writesOnWay .presser = true → exec (.prsRowLanded []) s = .next s) ∧
    (∀ l rest, s.prs.rows = l :: rest → state = 1 → s.writesOnWay .presser = false →
      let row := s.prs.begun - rest.length
      let mark : Prop := w0 / 2 ^ 30 % 2 = 1 ∧ w0 / 2 ^ 16 % 8192 = prsRow s.prs.desc (row - 1)
      let landed (u : State) : Prop := u.dev = s.dev → u.evc = s.evc → u.prs = s.prs →
        (row ≤ hm1 → row < 2 ^ 14 → ∃ t, exec (.prsRowLanded []) s = .next t ∧ t.fld st Fld.PRS_STAT_RDONE = row ∧
          t.fld st Fld.PRS_STAT_STATE = 1 ∧ t.prs = { s.prs with rows := rest, issued := false } ∧
          (mark → t.flag st Fld.PRS_STAT_WM = true) ∧
          (¬ mark → t.fld st Fld.PRS_STAT_WM = s.fld st Fld.PRS_STAT_WM) ∧ t.mem = u.mem) ∧
        (hm1 < row → w0 / 2 ^ 31 = 1 → ∃ t, exec (.prsRowLanded []) s = .next t ∧ t.reg Reg.PRS_CUR = s.prs.desc.getD 11 0) ∧
        (hm1 < row → w0 / 2 ^ 31 ≠ 1 → ∃ t, exec (.prsRowLanded []) s = .next t ∧
          ended u t ∧ t.flag st Fld.PRS_STAT_DONE = true ∧ t.prs.doneFc = some (s.fc, s.flag st Fld.PRS_STAT_DONE))
      (s.prs.issued = true → landed s) ∧
      (∀ u e, s.prs.issued = false → s.engineCells .presser (w0 / 2 ^ 29 % 2 == 1) l = (e, u) →
        (e = .done ∨ (∃ b, e = .uncorrectable b) →
          (u.writesOnWay .presser = true → exec (.prsRowLanded []) s = .next { u with prs := { u.prs with issued := true } }) ∧
          (u.writesOnWay .presser = false → landed u)) ∧
        (e = .held → exec (.prsRowLanded []) s = .next u) ∧
        (∀ c b, e = .refused c b → ∃ t, exec (.prsRowLanded []) s = .next t ∧ ended u t ∧ (Sparse.rising u.dev = true →
          t.flag st Fld.PRS_STAT_ERR = true ∧ t.fld st Fld.PRS_STAT_CAUSE = 5 ∧ t.reg Reg.PRS_EADRL = BitVec.ofNat 32 b)))) ∧
    (Fld.PRS_CMD_ABORT.get data = 0 ∨ 2 ≤ state → exec (.prsAbort who data) s = .next s) ∧
    (Fld.PRS_CMD_ABORT.get data = 1 → state = 1 → ∃ t, exec (.prsAbort who data) s = .next t ∧
      t.reg st = Fld.PRS_STAT_STATE.put 2 (s.reg st) ∧ RegsAndEvents s t [st] [] ∧ OnlyRegs s t) ∧
    (Fld.PRS_CMD_ABORT.get data = 1 → state = 0 → ∃ t, exec (.prsAbort who data) s = .next t ∧ RegsAndEvents s t [st] [] ∧
      { t with dev := s.dev, prs := s.prs } = s ∧
      (∀ was, s.prs.doneFc = some (s.fc, was) → t.flag st Fld.PRS_STAT_ABORTED = true ∧
        t.flag st Fld.PRS_STAT_ABLATE = s.flag st Fld.PRS_STAT_ABLATE ∧
        t.flag st Fld.PRS_STAT_DONE = (s.flag st Fld.PRS_STAT_DONE && was)) ∧
      ((∀ was, s.prs.doneFc ≠ some (s.fc, was)) →
        t.reg st = if s.flag st Fld.PRS_STAT_DONE = false then s.reg st else Fld.PRS_STAT_ABLATE.put 1 (s.reg st))) ∧
    (state ≠ 2 → exec .prsAbortComplete s = .next s) ∧
    (state = 2 → s.prs.rows = [] ∨ s.prs.issued = true → ∃ t, exec .prsAbortComplete s = .next t ∧ ended s t ∧
      t.reg st = Fld.PRS_STAT_STATE.put 0 (Fld.PRS_STAT_ABORTED.put 1 (s.reg st)) ∧ RegsAndEvents s t [st] [384] ∧
      t.prs = { s.prs with rows := [], issued := false } ∧
      { t with dev := s.dev, evc := s.evc, psq := s.psq, prs := s.prs, fab := { t.fab with got := s.fab.got, accepted := s.fab.accepted } } = s)) ∧
  (∀ (s u : State) (k : Nat) (cmd : Instr) (sb db : List Byte), s.wf →
    (k, cmd) ∈ ([(1, .prsCopy []), (2, .prsFill []), (3, .prsCkey []), (4, .prsBlend []), (5, .prsRop []), (6, .prsRopf [])] :
      List (Nat × Instr)) →
    let d := s.prs.desc
    let w (i : Nat) : Nat := (d.getD i 0).toNat
    let src := rectOf d 2
    let dst := rectOf d 5
    let b := dst.bits
    let n := dst.rowBytes
    let source : Bool := k == 1 || k == 3 || k == 4 || k == 5
    let r := if source && 2 * src.base + src.nib < 2 * dst.base + dst.nib then dst.hm1 - s.prs.begun else s.prs.begun
    let coh : Bool := w 0 / 2 ^ 29 % 2 == 1
    let at' : Nat := dst.base + r * dst.pitch
    let edges : List (Nat × Nat) := (if dst.nib = 1 then [(at', 1)] else []) ++
      if (dst.nib + dst.width) % 2 = 1 ∧ (n ≠ 1 ∨ dst.nib ≠ 1) then [(at' + n - 1, 1)] else []
    let sl := if source then lineSplit (src.rowBytes / 64 + 2) (src.base + r * src.pitch) src.rowBytes else []
    let dl := if 4 ≤ k ∨ (k = 3 ∧ b = 4) then lineSplit (n / 64 + 2) at' n else if b = 4 then edges else []
    let begins : Prop := s.fld Reg.PRS_STAT Fld.PRS_STAT_STATE = 1 ∧ w 0 % 16 = k ∧ s.prs.rows.length < 2 ∧ s.prs.begun ≤ dst.hm1
    let sp (i : Nat) : Nat := src.pixel sb i
    let dp (i : Nat) : Nat := dst.pixel db i
    let c (x n : Nat) : Nat := x / 2 ^ n % 256
    let al (i : Nat) : Nat := (c (sp i) 24 * (w 10 % 256) + 127) / 255
    let mix (i n : Nat) : Nat := (c (sp i) n * al i + c (dp i) n * (255 - al i) + 127) / 255
    let first (i : Nat) : Nat := if k = 6 then w 8 % 2 ^ b else sp i
    let written (i : Nat) (x : Nat) : Prop :=
      (k = 1 → x = sp i) ∧ (k = 2 → x = w 8 % 2 ^ b) ∧ (k = 3 → x = sp i ∧ sp i ≠ w 9 % 2 ^ b) ∧
      (k = 4 → x = (al i + (c (dp i) 24 * (255 - al i) + 127) / 255) * 2 ^ 24 + mix i 16 * 2 ^ 16 + mix i 8 * 2 ^ 8 + mix i 0) ∧
      (5 ≤ k → x < 2 ^ b ∧ ∀ n, n < b → x / 2 ^ n % 2 = w 0 / 2 ^ 12 % 16 / 2 ^ (2 * (first i / 2 ^ n % 2) + dp i / 2 ^ n % 2) % 2)
    (¬ begins → exec cmd s = .next s) ∧
    (begins → s.anyHeld (sl ++ dl) = true →
      exec cmd s = .next (s.acceptAll ((sl ++ dl).map (fun q => ⟨.presser, .bk, .read, q.1, q.2, coh⟩)))) ∧
    (begins → s.anyHeld (sl ++ dl) = false →
      (s.prsRead coh (sl ++ dl) = (.held, u) → exec cmd s = .next u) ∧
      (∀ c a, s.prsRead coh (sl ++ dl) = (.refused c a, u) → exec cmd s = .next (u.prsError 4 a)) ∧
      (∀ a, s.prsRead coh (sl ++ dl) = (.uncorrectable a, u) → exec cmd s = .next (u.prsError 6 a)) ∧
      (s.prsRead coh (sl ++ dl) = (.bytes (sb ++ db), u) → sb.length = (sl.map Prod.snd).sum → ∃ l,
          exec cmd s = .next { (u.useGot .presser) with prs := { u.prs with begun := u.prs.begun + 1, rows := u.prs.rows ++ [l] } } ∧
          (8 ≤ b → ∀ a y, (a, y) ∈ l ↔ ∃ i j x, i < dst.width ∧ j < b / 8 ∧ written i x ∧ a = at' + b / 8 * i + j ∧
            y = BitVec.ofNat 8 (x / 256 ^ j)) ∧
          (b = 4 → k ≠ 4 → (∀ a y, (a, y) ∈ l → at' ≤ a ∧ a < at' + n ∧
              (a = at' → dst.nib = 1 → y.toNat % 16 = (db.headD 0).toNat % 16) ∧
              (a = at' + n - 1 → (dst.nib + dst.width) % 2 = 1 → y.toNat / 16 = (db.getLastD 0).toNat / 16)) ∧
            ∀ i, i < dst.width → ∃ y, (at' + (dst.nib + i) / 2, y) ∈ l ∧
              ((∃ x, written i x) → written i (y.toNat / 16 ^ ((dst.nib + i) % 2) % 16)) ∧
              ((∀ x, ¬ written i x) → y.toNat / 16 ^ ((dst.nib + i) % 2) % 16 = dp i)))))

/-- Shuttle commands and ends (R332, R333, R342 to R346): GO and RESUME check the configuration and run the channel, from 0 or from POS, or
show the cause of the first check of R342 that fails; a command that does not fit the state is ignored with WIGN; ABORT and PAUSE drain; the ends
show DONE or ABORTED and raise the channel's event, with ARRIVE only after every write has landed; an ABORT in the fc of the end takes its
place. That a GO with CNT = 0 ends with DONE, that a pause whose writes reach CNT is Paused, and that a RESUME on a side in register space needs
a POS of whole registers are the model's choices (log 69).

Shuttle transfers (R335 to R341, R347): a running channel whose port is free asks for the source line of the next byte of its
mode's unit, a channel of a higher class first, and one whose read the firewall refuses stops with cause 1 and its address; the line that
arrives is written to the destination of a linear transfer, where the port is free, and POS moves on by what was written (a port takes a
channel's write before its read: the model's choice, log 69); the planes that SPLIT makes of a unit hold bit p of each pixel in order, and MERGE puts them together again. -/
def Obligations.ShuttleChannels : Prop :=
  (∀ (s : State) (who : Who) (n : Fin 64), s.wf →
    let st := Reg.SHU_STAT n
    let state := s.shuState n
    let x := s.xfer n
    let only (t : State) (y : Shu) : Prop := t.shu n = y ∧ ∀ m, m ≠ n → t.shu m = s.shu m
    let empty (t : State) : Prop := only t { s.shu n with asked := [], held := [], out := [] }
    let started (t : State) : Prop := only t { Shu.reset with after := s.shuWaiting n }
    let id := (Who.shuttle n).id
    let freed (t : State) : Prop := (∀ q ∈ t.fab.accepted, q.1 ≠ id) ∧ (∀ g ∈ t.fab.got, g.1 ≠ id) ∧
      { t with dev := s.dev, evc := s.evc, shus := s.shus, psq := { t.psq with lanes := s.psq.lanes },
               fab := { t.fab with accepted := s.fab.accepted, got := s.fab.got } } = s
    let unit := if x.mode = 0 then 1 else if x.mode ≤ 2 then x.esz else x.planes
    let other := if x.cnt = 0 then 0 else if x.mode = 0 then x.cnt else if x.mode ≤ 2 then (x.chans - 1) * x.stride + x.cnt / x.chans
      else (x.planes - 1) * x.stride + x.cnt / x.planes
    let stream : Prop := x.mode = 0 ∨ x.mode = 2 ∨ x.mode = 3
    let from' := if stream then x.cnt else other
    let to' := if stream then other else x.cnt
    let bad4 : Prop := (x.mode = 1 ∨ x.mode = 2) ∧ (x.cnt % (x.chans * x.esz) ≠ 0 ∨ x.stride < x.cnt / x.chans) ∨
      3 ≤ x.mode ∧ ((x.planes ≠ 2 ∧ x.planes ≠ 4 ∧ x.planes ≠ 8) ∨ x.cnt % x.planes ≠ 0 ∨ x.stride < x.cnt / x.planes) ∨
      x.pos % unit ≠ 0 ∨ x.cnt < x.pos
    let bad5 : Prop := 0 < x.cnt ∧ x.src < x.dst + to' ∧ x.dst < x.src + from' ∧ (x.mode ≠ 0 ∨ x.src < x.dst)
    let misplaced (go : Bool) (a m : Nat) : Prop := (0 < m ∧ a < 0x11200000 ∧ 0x10000000 < a + m) ∧
      ¬ (0x10000000 ≤ a ∧ a + m ≤ 0x11200000 ∧ a % 4 = 0 ∧ x.cnt % 4 = 0 ∧ x.mode = 0 ∧ (go = true ∨ x.pos % 4 = 0))
    let bad6 (go : Bool) : Prop := misplaced go x.src from' ∨ misplaced go x.dst to'
    let fails (go : Bool) (k : Nat) : Prop := (k = 4 ∧ bad4) ∨ (k = 5 ∧ ¬ bad4 ∧ bad5) ∨ (k = 6 ∧ ¬ bad4 ∧ ¬ bad5 ∧ bad6 go)
    let passes (go : Bool) : Prop := ¬ bad4 ∧ ¬ bad5 ∧ ¬ bad6 go
    let written : Prop := (s.shu n).asked = [] ∧ (s.shu n).out = [] ∧ x.unitWrites (s.shu n).held = []
    let rest (t : State) : Prop := { t with dev := s.dev, evc := s.evc, shus := s.shus, psq := { t.psq with lanes := s.psq.lanes } } = s
    let signalled (t : State) : Prop := ∀ l k, k ∈ (t.lane l).closings → k.job = .shut n → k.signalled.isSome = true
    let ignored (c : Instr) : Prop := ∃ t, exec c s = .next t ∧ t.reg st = Fld.SHU_STAT_WIGN.put 1 (s.reg st) ∧
      RegsAndEvents s t [st] [] ∧ OnlyRegs s t
    let refused (c : Instr) (k : Nat) : Prop := ∃ t, exec c s = .next t ∧ signalled t ∧ rest t ∧ t.shus = s.shus ∧
      t.reg st = Fld.SHU_STAT_CAUSE.put k (Fld.SHU_STAT_ERR.put 1 (s.reg st)) ∧ RegsAndEvents s t [st] [257 + 2 * n.val]
    let waits : Prop := s.flag (Reg.SHU_CTRL n) Fld.SHU_CTRL_ARRIVE = true ∧ s.shuWaiting n = true
    let set (t : State) (k : Nat) : Prop := t.reg st = Fld.SHU_STAT_STATE.put k (s.reg st)
    (state = 0 → passes true → ∃ t, exec (.shuGo who n) s = .next t ∧ set t 1 ∧ t.reg (Reg.SHU_POS n) = 0 ∧ started t ∧ rest t ∧
      RegsAndEvents s t [st, Reg.SHU_POS n] []) ∧
    (∀ k, state = 0 → fails true k → refused (.shuGo who n) k) ∧
    (state ≠ 0 → ignored (.shuGo who n)) ∧
    (state = 0 ∨ state = 3 → passes false → ∃ t, exec (.shuResume who n) s = .next t ∧ set t 1 ∧ started t ∧ rest t ∧
      RegsAndEvents s t [st] []) ∧
    (∀ k, state = 0 ∨ state = 3 → fails false k → refused (.shuResume who n) k) ∧
    (state ≠ 0 → state ≠ 3 → ignored (.shuResume who n)) ∧
    (state = 1 → x.pos < x.cnt → ∃ t, exec (.shuPause who n) s = .next t ∧ set t 2 ∧ RegsAndEvents s t [st] [] ∧ OnlyRegs s t) ∧
    (state ≠ 1 ∨ x.cnt ≤ x.pos → ignored (.shuPause who n)) ∧
    (state ≠ 0 → state ≠ 4 → ∃ t, exec (.shuAbort who n) s = .next t ∧ set t 4 ∧ empty t ∧ freed t ∧ RegsAndEvents s t [st] []) ∧
    (state = 4 → exec (.shuAbort who n) s = .next s) ∧
    (state = 0 → ∃ t, exec (.shuAbort who n) s = .next t ∧ RegsAndEvents s t [st] [] ∧ rest t ∧
      (∀ was, (s.shu n).doneFc = some (s.fc, was) → t.flag st Fld.SHU_STAT_ABORTED = true ∧
        t.flag st Fld.SHU_STAT_ABLATE = s.flag st Fld.SHU_STAT_ABLATE ∧
        t.flag st Fld.SHU_STAT_DONE = (s.flag st Fld.SHU_STAT_DONE && was)) ∧
      ((∀ was, (s.shu n).doneFc ≠ some (s.fc, was)) → t.shus = s.shus ∧
        t.reg st = if s.flag st Fld.SHU_STAT_DONE = false then s.reg st else Fld.SHU_STAT_ABLATE.put 1 (s.reg st))) ∧
    (state = 2 → written → ∃ t, exec (.shuPaused n) s = .next t ∧ set t 3 ∧ empty t ∧ freed t ∧
      RegsAndEvents s t [st] []) ∧
    (state ≠ 2 ∨ ¬ written → exec (.shuPaused n) s = .next s) ∧
    (state = 1 → x.cnt ≤ x.pos → ¬ waits → ∃ t, exec (.shuDone n) s = .next t ∧ freed t ∧ signalled t ∧
      only t { s.shu n with asked := [], held := [], out := [], doneFc := some (s.fc, s.flag st Fld.SHU_STAT_DONE) } ∧
      t.reg st = Fld.SHU_STAT_DONE.put 1 (Fld.SHU_STAT_STATE.put 0 (s.reg st)) ∧ RegsAndEvents s t [st] [256 + 2 * n.val]) ∧
    (state ≠ 1 ∨ x.pos < x.cnt ∨ waits → exec (.shuDone n) s = .next s) ∧
    (state = 4 → ∃ t, exec (.shuAbortComplete n) s = .next t ∧ empty t ∧ freed t ∧ signalled t ∧
      t.reg st = Fld.SHU_STAT_ABORTED.put 1 (Fld.SHU_STAT_STATE.put 0 (s.reg st)) ∧ RegsAndEvents s t [st] [256 + 2 * n.val]) ∧
    (state ≠ 4 → exec (.shuAbortComplete n) s = .next s)) ∧
  (∀ (s : State) (n : Fin 64), s.wf →
    let x := s.xfer n
    let b := s.shu n
    let runs : Prop := s.shuState n = 1
    let line (a : Nat) : Nat := a / 64 * 64
    let pixel := x.pos / x.esz
    let ops : List (Nat × Instr × Nat) := [(0, .shuLinear n, x.src + x.pos),
      (1, .shuInterleave n, x.src + pixel % x.chans * x.stride + pixel / x.chans * x.esz), (2, .shuDeinterleave n, x.src + x.pos),
      (3, .shuSplit n, x.src + x.pos), (4, .shuMerge n, x.src + x.pos / x.planes)]
    let port : Fin 2 := Fin.ofNat 2 (n.val / 32)
    let alone : Prop := s.shuPorts[port.val].used ≠ some s.fc ∧ ∀ m ∈ s.shuReady port, m = n
    let id := (Who.shuttle n).id
    let request (k : ReqKind) (a m : Nat) : Request := ⟨.shuttle n, s.classOf (.shuttle n), k, a, m, x.coh⟩
    let stops (c : Instr) (k : Nat) : Prop := ∃ t, exec c s = .next t ∧ t.shuState n = 0 ∧
      t.flag (Reg.SHU_STAT n) Fld.SHU_STAT_ERR = true ∧ t.fld (Reg.SHU_STAT n) Fld.SHU_STAT_CAUSE = 1 ∧
      t.reg (Reg.SHU_EADR n) = BitVec.ofNat 32 k ∧ t.mem = s.mem
    let asks (c : Instr) (k : Nat) : Prop := ∃ t, exec c s = .next t ∧ t.shu n = { b with asked := [k] } ∧ (∀ m, m ≠ n → t.shu m = s.shu m) ∧
      t.shuPorts[port.val].used = some s.fc ∧ { t with shus := s.shus, shuPorts := s.shuPorts, fab := s.fab } = s ∧
      (x.srcRegs = false → t.fab = { s.fab with
        accepted := if (id, k, false) ∈ s.fab.accepted then s.fab.accepted else s.fab.accepted ++ [(id, k, false)] }) ∧
      (x.srcRegs = true → t.fab = { s.fab with ring := s.fab.ring ++ [(.shuttle n, k, none)], got := s.fab.got ++ [(id, k, none)] })
    (∀ o ∈ ops, (¬ runs ∨ x.mode ≠ o.1) → exec o.2.1 s = .next s) ∧
    (∀ o ∈ ops, runs → x.mode = o.1 → x.pos < x.cnt → 0 < x.unit → x.srcRegs = false → b.asked = [] → b.held = [] → b.out = [] →
      alone → (s.firewall (request .read (line o.2.2) 64) = .allowed → asks o.2.1 (line o.2.2)) ∧
        ∀ c g, s.firewall (request .read (line o.2.2) 64) = .refused c g → stops o.2.1 (line o.2.2)) ∧
    (∀ o ∈ ops, b.asked.length + b.held.length = 16 → b.asked ≠ [] → s.shuPieces n = [] → exec o.2.1 s = .next s) ∧
    (∀ o ∈ ops, s.shuPorts[port.val].used = some s.fc → exec o.2.1 s = .next s) ∧
    (∀ o ∈ ops, ∀ m ∈ s.shuReady port, s.shuRank m < s.shuRank n → (∀ q, (n.val, q) ∈ s.shuPorts[port.val].passed → q < 7) →
      exec o.2.1 s = .next s) ∧
    (runs → x.mode = 0 → x.srcRegs = true → x.pos < x.cnt → b.asked = [] → b.held = [] → b.out = [] → alone →
      let k := (x.src + x.pos) / 4 * 4
      (s.firewall (request .read k 4) = .allowed → asks (.shuLinear n) k) ∧
      ∀ c g, s.firewall (request .read k 4) = .refused c g → stops (.shuLinear n) k) ∧
    (b.asked = [] → exec (.shuReadResponse n []) s = .next s) ∧
    (let k := line (x.src + x.pos)
     let m := min (64 - (x.src + x.pos) % 64) (x.cnt - x.pos)
     let to' := x.dst + x.pos
     let rd := request .read k 64
     let data := s.bytes (x.src + x.pos) m
     let wr := request (.write data) to' m
     runs → x.mode = 0 → x.coh = false → x.pos < x.cnt → x.cnt < 2 ^ 32 → b.asked = [k] → b.held = [] → b.out = [] → s.ecc = [] →
       (∃ i, s.region k = .bank i) → (∃ i, s.region to' = .bank i) → x.srcRegs = false → x.dstRegs = false →
       s.memHeld k = false → s.memHeld to' = false → (∀ a j, a = k ∨ a = to' → s.targetOf a = some j → s.waitingAt j = 0) → s.shuWaiting n = false →
       (∀ g ∈ s.fab.got, g.1 ≠ id) →
       ((id, k, false) ∉ s.fab.accepted → ∀ c g, s.firewall rd = .refused c g → stops (.shuReadResponse n []) k) ∧
       ((id, k, false) ∈ s.fab.accepted ∨ s.firewall rd = .allowed →
         (s.shuPorts[port.val].used = some s.fc → ∃ t, exec (.shuReadResponse n []) s = .next t ∧ t.mem = s.mem ∧
           t.shu n = { b with asked := [], held := [(k, s.bytes k 64)] } ∧ t.dev = s.dev ∧ t.evc = s.evc) ∧
         (alone → s.firewall wr = .allowed → to' % 64 = (x.src + x.pos) % 64 →
           ∃ t, exec (.shuReadResponse n []) s = .next t ∧ t.mem = Memory.writes s.mem to' data ∧ (t.xfer n).pos = x.pos + m ∧
             (t.shu n).asked = [] ∧ RegsAndEvents s t [Reg.SHU_POS n] [] ∧ ∀ j, j ≠ n → t.shu j = s.shu j))) ∧
    (∀ (y : Xfer) (o : Nat) (d : List Byte), y.mode = 3 → d.length = y.planes → y.planes = 2 ∨ y.planes = 4 ∨ y.planes = 8 →
      (y.into o d).length = y.planes ∧ ∀ pl p, pl < y.planes → p < 8 → ∃ v, (y.into o d)[pl]? = some (y.dst + pl * y.stride + o / y.planes, [v]) ∧
        v.getLsbD p = bitOf d (p * y.planes + pl)) ∧
    (∀ (y : Xfer) (o : Nat) (d : List Byte) (e : List Byte), y.planes = 2 ∨ y.planes = 4 ∨ y.planes = 8 → d.length = y.planes →
      Xfer.into { y with mode := 4 } o ((Xfer.into { y with mode := 3 } o d).flatMap (fun q => q.2)) = [(y.dst + o, e)] → e = d))

/-- The spool's commands (R352, R356, R359, R362, R363, R370 to R372): key writes wait for a tick; a gain applies at once, or at the end of
the run in progress; a load asks for its image, is refused while one is pending, fails with its cause, or fills the bank that is not
active; ABORT ends the run, the load and RUN; a read of SPL_TSL latches what the reads of SPL_TSH and SPL_SCNT by that initiator answer.

The spool's streams and TDM ports (R353, R359, R362, R363): a ring is enabled where its configuration stands, and refused otherwise; a
writer's oldest frame advances its index as it lands, waits while its writes are held, and is lost where they are refused; a port that receives
feeds the inputs of its slots. -/
def Obligations.SpoolCommandsAndStreams : Prop :=
  (∀ (s : State) (who : Who) (data : Word), s.wf →
    let st := Reg.SPL_STAT
    let spl (t : State) (x : Spl) : Prop := t.spl = x
    let signalled (t : State) : Prop := ∀ l k, k ∈ (t.lane l).closings → k.job = .mix → k.signalled.isSome = true
    let rest (t : State) : Prop := { t with dev := s.dev, evc := s.evc, spl := s.spl, psq := { t.psq with lanes := s.psq.lanes } } = s
    let pending := s.flag st Fld.SPL_STAT_LPEND
    (∀ v off, exec (.voiceKeyOn who v off) s = .next { s with spl := { s.spl with keys := s.spl.keys ++ [(s.fc, v.val, true)] } }) ∧
    (∀ v, exec (.voiceKeyOff who v) s = .next { s with spl := { s.spl with keys := s.spl.keys ++ [(s.fc, v.val, false)] } }) ∧
    (∀ g : Fin 1024, s.spl.run = none → ∃ t, exec (.splGainWrite who g data) s = .next t ∧ t.reg (Reg.SPL_GAIN g) = data.and 0xFFFF ∧
      RegsAndEvents s t [Reg.SPL_GAIN g] [] ∧ rest t ∧ t.spl.gainHeld = s.spl.gainHeld) ∧
    (∀ (g : Fin 1024) (pc : Nat), s.spl.run = some pc → exec (.splGainWrite who g data) s =
      .next { s with spl := { s.spl with gainHeld := s.spl.gainHeld ++ [(g.val, data.and 0xFFFF)] } }) ∧
    (pending = false → ∃ t, exec (.programLoad who data) s = .next t ∧ t.reg st = Fld.SPL_STAT_LPEND.put 1 (s.reg st) ∧
      spl t { s.spl with load := some (.reading (data.toNat * 256)) } ∧ RegsAndEvents s t [st] [] ∧ rest t) ∧
    (pending = true → ∃ t, exec (.programLoad who data) s = .next t ∧ t.reg st = Fld.SPL_STAT_LREF.put 1 (s.reg st) ∧
      RegsAndEvents s t [st] [465] ∧ OnlyRegs s t) ∧
    ((∀ a, s.spl.load ≠ some (.reading a)) → exec (.programLoadEnd []) s = .next s) ∧
    (∀ a b, s.spl.load = some (.reading a) →
      let coh := s.flag Reg.SPL_CTRL Fld.SPL_CTRL_COH
      let n := leNat (b.take 4)
      s.splLines coh a 64 = (.bytes b, s) →
      (n = 0 ∨ 4096 < n → ∃ t, exec (.programLoadEnd []) s = .next t ∧ spl t { s.spl with load := none } ∧ signalled t ∧ rest t ∧
        t.reg st = Fld.SPL_STAT_LPEND.put 0 (Fld.SPL_STAT_CAUSE.put 6 (Fld.SPL_STAT_LERR.put 1 (s.reg st))) ∧ RegsAndEvents s t [st] [465]) ∧
      (∀ c, 0 < n → n ≤ 4096 → s.splLines coh (a + 64) (4 * n + 4 - 64) = (.bytes c, s) →
        let bank := 1 - s.mixBank
        ∃ t, exec (.programLoadEnd []) s = .next t ∧ t.spl.load = some (.ready n) ∧
          t.spl.length = (if bank = 0 then (n, s.spl.length.2) else (s.spl.length.1, n)) ∧
          (∀ i, i < n → t.reg (mixAddr bank i) = BitVec.ofNat 32 (leNat (((b ++ c).drop (4 + 4 * i)).take 4))) ∧
          RegsAndEvents s t ((List.range n).map (fun i => mixAddr bank i)) [] ∧ { t with dev := s.dev, ecc := s.ecc, spl := s.spl } = s)) ∧
    (∀ a u, s.spl.load = some (.reading a) → s.splLines (s.flag Reg.SPL_CTRL Fld.SPL_CTRL_COH) a 64 = (.held, u) →
      exec (.programLoadEnd []) s = .next u) ∧
    (∀ a e read u, s.spl.load = some (.reading a) → s.splLines (s.flag Reg.SPL_CTRL Fld.SPL_CTRL_COH) a 64 = (read, u) →
      read = .refused e ∨ read = .uncorrectable e → Sparse.rising u.dev = true → ∃ t, exec (.programLoadEnd []) s = .next t ∧ t.spl.load = none ∧ signalled t ∧
        t.flag st Fld.SPL_STAT_LERR = true ∧ t.flag st Fld.SPL_STAT_LPEND = false ∧ t.fld st Fld.SPL_STAT_CAUSE = (if read = .refused e then 4 else 5) ∧
        t.reg Reg.SPL_EADRL = BitVec.ofNat 32 e) ∧
    (data.getLsbD 0 = false → exec (.splAbort who data) s = .next s) ∧
    (data.getLsbD 0 = true → ∃ t, exec (.splAbort who data) s = .next t ∧
      t.reg st = Fld.SPL_STAT_LPEND.put 0 (s.reg st) ∧ t.reg Reg.SPL_CTRL = Fld.SPL_CTRL_RUN.put 0 (s.reg Reg.SPL_CTRL) ∧
      spl t { s.spl with run := none, load := none, abort := some s.spl.switched, fresh := true, gainHeld := [] } ∧ rest t ∧
      (pending = true → signalled t) ∧ (pending = false → t.psq = s.psq) ∧
      RegsAndEvents s t ([st, Reg.SPL_CTRL] ++ s.spl.gainHeld.map (fun g => Reg.SPL_GAIN g.1)) []) ∧
    (∃ t, exec (.splTslRead who) s = .next t ∧ t.dev = s.dev ∧ t.mem = s.mem ∧ t.evc = s.evc ∧
      Sparse.get who.id t.fab.resp = some (.data (leBytes 4 (s.reg Reg.SPL_TSL).toNat)) ∧
      ∀ u : State, u.spl.latches = t.spl.latches → u.readSpl who Reg.SPL_TSH 0 = u.respondWord who (s.reg Reg.SPL_TSH) ∧
        u.readSpl who Reg.SPL_SCNT 0 = u.respondWord who (s.reg Reg.SPL_SCNT))) ∧
  (∀ (s : State) (who : Who) (data : Word), s.wf →
    (∀ (writer : Bool) (n : Fin 64),
      let a := if writer then Reg.SPL_WCTL n else Reg.SPL_RCTL n
      let write : Instr := .streamEnable who writer n data
      (s.flag a Fld.SPL_RCTL_EN = true → ∃ t, exec write s = .next t ∧ t.flag a Fld.SPL_RCTL_EN = data.getLsbD 31 ∧
        Fld.SPL_RCTL_EN.put 0 (t.reg a) = Fld.SPL_RCTL_EN.put 0 (s.reg a) ∧ RegsAndEvents s t [a, Reg.SPL_STAT] [] ∧ OnlyRegs s t) ∧
      (∀ d, s.flag a Fld.SPL_RCTL_EN = false → RegMap.find a = some d →
        let want := d.written false (Fld.SPL_RCTL_EN.put 0 data) 0 (s.reg a)
        let bad := s.streamRefused writer n (s.ringAt a want)
        (data.getLsbD 31 = false → exec write s = .next (s.setReg a want)) ∧
        (data.getLsbD 31 = true → bad = false → ∃ t, exec write s = .next t ∧ t.reg a = Fld.SPL_RCTL_EN.put 1 want ∧
          RegsAndEvents s t [a] [] ∧ OnlyRegs s t) ∧
        (data.getLsbD 31 = true → bad = true → ∃ t, exec write s = .next t ∧ t.reg a = want ∧
          t.reg Reg.SPL_STAT = Fld.SPL_STAT_CAUSE.put 7 (Fld.SPL_STAT_CREF.put 1 (s.reg Reg.SPL_STAT)) ∧
          RegsAndEvents s t [a, Reg.SPL_STAT] [467] ∧ OnlyRegs s t))) ∧
    (∀ (w : Fin 64) (f : SplFrame),
      let g := s.writerRing w
      let v : State := { s with spl := { s.spl with frames := s.spl.frames.eraseP (fun f => f.writer == w) } }
      let oldest := s.spl.frames.find? (fun f => f.writer == w)
      let lines := lineSplit (f.bytes.length / 64 + 2) f.addr f.bytes.length
      (oldest = none → exec (.writerFrameLanded w []) s = .next s) ∧
      (oldest = some f → s.anyHeld lines = true →
        exec (.writerFrameLanded w []) s = .next (s.acceptAll (lines.map (fun p => ⟨.spool, .rt1, .write [], p.1, p.2, f.coh⟩)))) ∧
      (∀ u e, oldest = some f → s.anyHeld lines = false → v.engineWrites .spool f.coh f.addr f.bytes = (e, u) →
        ((∀ c a, e ≠ .refused c a) →
          exec (.writerFrameLanded w []) s = .next (u.setReg (Reg.SPL_WWIDX w) (BitVec.ofNat 32 (g.after g.own)))) ∧
        (∀ c a, e = .refused c a → exec (.writerFrameLanded w []) s = .next ((u.writerOverflow w).streamError a)))) ∧
    (∀ (p : Fin 8) (slots : List Word), Fld.SPL_TDMCTL_RXEN.get s.spl.tdm[p.val] ≠ 1 → exec (.tdmReceiveFrame p slots) s = .next s) ∧
    (∀ (p : Fin 8) (slots : List Word), Fld.SPL_TDMCTL_RXEN.get s.spl.tdm[p.val] = 1 →
      ∃ t, exec (.tdmReceiveFrame p slots) s = .next t ∧ t.spl.txNow = s.spl.txNow ∧ { t with spl := s.spl } = s ∧
        ∀ k, k < 16 → t.tdmInput (64 + 16 * p.val + k) =
          (if (s.inPin (160 + p.val)).isSome then signed 24 ((slots.getD k 0).toNat / 256) else 0, s.spl.tdm[p.val].getLsbD k)))

/-- The mix program (R365 to R367): CLR makes a bus of its mode; MIX and MIXA add a source's sample times a gain or a weight; OUT stores a
clamped sample; NOP does nothing; an instruction with an error has no effect but its report; the last instruction and END end the run,
whose outputs are then delivered: an enabled writer copies a frame of them, or loses it where its ring is full. A clamp
that changes a value reports it. A sum beyond the bound of R365, which no program of its lengths reaches, wraps in its 40 bits (the model's
choice, log 38).

A sample tick (R351, R353, R357, R370, R372, R488): while the audio PLL is locked to device time it falls at its place after a boundary,
within 25 ns, and else at any time (the model's reading, log 90); the count of ticks advances, a loaded program becomes active, an abort shows, the frame
queued behind the one in transmission is next, and the run starts from outputs of zero, or, with RUN = 0, zeros are delivered. The
envelope of a voice moves as its state says. -/
def Obligations.MixProgramAndSampleTick : Prop :=
  (∀ (s : State) (pc : Nat), s.wf → s.ecc = [] → s.spl.run = some pc →
    let w := s.mixWord pc
    let b := w / 2 ^ 13 % 64
    let src := w / 2 ^ 19 % 512
    let op := w / 2 ^ 28
    let st := Reg.SPL_STAT
    let clip (v : Int) : Int := max (-8388608) (min 8388607 v)
    let w40 (v : Int) : Int := signed 40 (v % 2 ^ 40).toNat
    let input := s.spl.inputs.getD src (0, false)
    let x : Int := if src < 256 then input.1 else clip (s.bus (src - 256)).acc
    let active : Bool := if src < 256 then input.2 else (s.bus (src - 256)).active
    let clips : Prop := 256 ≤ src ∧ clip (s.bus (src - 256)).acc ≠ (s.bus (src - 256)).acc
    let clipped (t : State) (yes : Prop) : Prop :=
      (¬ yes → t.dev = s.dev ∧ t.evc = s.evc) ∧
      (yes → t.reg st = Fld.SPL_STAT_CLIP.put 1 (s.reg st) ∧
        RegsAndEvents s t [st] (if s.flag st Fld.SPL_STAT_CLIP = false ∧ (s.reg Reg.SPL_EVTEN).getLsbD 4 = true then [468] else []))
    let goesOn (t : State) : Prop := t.spl.run = some (pc + 1) ∧ { t with dev := s.dev, evc := s.evc, spl := s.spl } = s
    let bus (t : State) (y : Bus) : Prop := t.bus b = y ∧ (∀ c, c ≠ b → t.bus c = s.bus c) ∧ t.spl.outputs = s.spl.outputs
    let cmds : List (Instr × (Nat → Bool)) := [(.mixEnd, (· == 0)), (.mixClr, (· == 1)), (.mixMix, (· == 2)), (.mixMixa, (· == 3)),
      (.mixOut, (· == 4)), (.mixNop, (fun n => 5 ≤ n))]
    (∀ c ∈ cmds, c.2 op = false → exec c.1 s = .next s) ∧
    s.mixError w = (if 5 < op ∨ mixZeros w = false then some 1 else if (op = 2 ∨ op = 3 ∨ op = 4) ∧ 320 ≤ src then some 2
      else if (op = 2 ∧ (s.bus b).auto = true) ∨ (op = 3 ∧ (s.bus b).auto = false) then some 3 else none) ∧
    (∀ c ∈ cmds, ∀ k, c.2 op = true → s.mixError w = some k → pc + 1 < s.mixLength → ∃ t, exec c.1 s = .next t ∧ goesOn t ∧
      t.spl = { s.spl with run := some (pc + 1) } ∧
      t.reg st = Fld.SPL_STAT_EPC.put pc (Fld.SPL_STAT_CAUSE.put k (Fld.SPL_STAT_PERR.put 1 (s.reg st))) ∧
      RegsAndEvents s t [st] (if s.flag st Fld.SPL_STAT_PERR then [] else [467])) ∧
    (s.mixError w = none → pc + 1 < s.mixLength →
      (op = 1 → ∃ t, exec .mixClr s = .next t ∧ goesOn t ∧ clipped t False ∧
        bus t { s.bus b with acc := 0, active := false, auto := w / 4096 % 2 == 1 }) ∧
      (op = 2 → ∃ t, exec .mixMix s = .next t ∧ goesOn t ∧ clipped t clips ∧
        bus t { s.bus b with acc := w40 ((s.bus b).acc + Int.tdiv (x * signed 16 (s.reg (Reg.SPL_GAIN (w % 1024))).toNat) 4096)
                             active := (s.bus b).active || active }) ∧
      (op = 3 →
        let m := s.mixaAt pc
        let wk : Int := (((m.s : Int) + Int.fdiv (((m.t : Int) - m.s) * (s.bus b).step) 256).toNat : Nat)
        ∃ t, exec .mixMixa s = .next t ∧ goesOn t ∧ clipped t clips ∧ (t.mixaAt pc).a = active ∧ ((t.mixaAt pc).w : Int) = wk ∧
          bus t { s.bus b with acc := w40 ((s.bus b).acc + Int.tdiv (x * wk) 65536), active := (s.bus b).active || active }) ∧
      (op = 4 → ∃ t, exec .mixOut s = .next t ∧ goesOn t ∧ clipped t (clips ∨ clip x ≠ x) ∧ (∀ c, t.bus c = s.bus c) ∧
        t.spl.outputs = s.spl.outputs.set! (w % 128) (clip x)) ∧
      (op = 5 → exec .mixNop s = .next { s with spl := { s.spl with run := some (pc + 1) } })) ∧
    (s.mixError w = none → s.spl.gainHeld = [] → (∀ i : Fin 64, s.flag (Reg.SPL_WCTL i) Fld.SPL_WCTL_EN = false) →
      let done (t : State) : Prop := t = { s with spl := { s.spl with run := none, txNext := some s.spl.outputs.toList } }
      (op = 0 → ∃ t, exec .mixEnd s = .next t ∧ done t) ∧ (op = 5 → s.mixLength ≤ pc + 1 → ∃ t, exec .mixNop s = .next t ∧ done t)) ∧
    (s.mixError w = none → s.spl.gainHeld = [] → op = 0 → ∀ i : Fin 64, (∀ j : Fin 64, s.flag (Reg.SPL_WCTL j) Fld.SPL_WCTL_EN = true ↔ j = i) →
      (∀ f ∈ s.spl.frames, f.writer ≠ i) →
      let g := s.writerRing i
      let frame : SplFrame := ⟨i, g.coh, g.frame g.own, (List.range g.chans).flatMap (fun c =>
        leBytes g.esz (BitVec.ofInt 32 (s.spl.outputs.toList.getD (g.first + c) 0)).toNat)⟩
      let ended : Spl := { s.spl with run := none, txNext := some s.spl.outputs.toList }
      let mark := if i.val < 32 then Reg.SPL_WOVFL else Reg.SPL_WOVFH
      (g.after g.own ≠ g.other → exec .mixEnd s = .next { s with spl := { ended with frames := s.spl.frames ++ [frame] } }) ∧
      (g.after g.own = g.other → ∃ t, exec .mixEnd s = .next t ∧ t.spl = ended ∧ { t with dev := s.dev, evc := s.evc, spl := s.spl } = s ∧
        t.reg mark = s.reg mark ||| BitVec.ofNat 32 (2 ^ (i.val % 32)) ∧
        RegsAndEvents s t [mark] (if (s.reg Reg.SPL_EVTEN).getLsbD 7 then [471] else [])))) ∧
  ((∀ (s : State), s.wf → s.ecc = [] →
    let runs := s.flag Reg.SPL_CTRL Fld.SPL_CTRL_RUN
    let after := (3 * (((s.psq.time / 2 ^ 32 : Nat) : Int) - (s.reg64 Reg.SYS_APHL Reg.SYS_APHH : Nat))) % 62500
    let onTime : Prop := s.flag Reg.SYS_APLL Fld.SYS_APLL_DTLOCK = true → s.flag Reg.SYS_APLL Fld.SYS_APLL_LOCKED = true → 57 ≤ after ∧ after ≤ 216
    let may : Prop := onTime ∧ s.spl.run = none ∧ s.sys.clocks.getLsbD 11 = true ∧ s.poweredOff 0x10B00000 = false ∧ Block.spl ∉ s.fab.clearing
    (¬ may → exec (.sampleTick []) s = .next s) ∧
    (may → ∃ t, exec (.sampleTick []) s = .next t ∧ t.reg Reg.SPL_SCNT = s.reg Reg.SPL_SCNT + 1 ∧
      t.spl.run = (if runs then some 0 else none) ∧ t.spl.outputs = Vector.replicate 128 0 ∧ t.spl.txNow = s.spl.txNext ∧
      t.spl.txNext = (if runs then none else some (List.replicate 128 0)) ∧ t.spl.rx = [] ∧ t.spl.abort = none ∧ t.spl.gainOld = [] ∧
      (∀ n, s.spl.load = some (.ready n) → t.mixBank = 1 - s.mixBank ∧ t.flag Reg.SPL_STAT Fld.SPL_STAT_LPEND = false ∧ t.spl.load = none ∧
        t.spl.switched = true) ∧
      ((∀ n, s.spl.load ≠ some (.ready n)) → t.mixBank = s.mixBank ∧ t.spl.load = s.spl.load ∧ t.spl.switched = false) ∧
      (s.spl.abort.isSome → t.flag Reg.SPL_STAT Fld.SPL_STAT_ABORTED = true) ∧
      ((∀ r : Fin 64, s.flag (Reg.SPL_RCTL r) Fld.SPL_RCTL_EN = false) → t.mem = s.mem ∧ t.ctxs = s.ctxs))) ∧
  (∀ (p : Voice) (l : Nat), l ≤ 65536 →
    p.envelope 0 l = (0, 0) ∧
    p.envelope 1 l = (if p.ar = 0 ∨ 65536 ≤ l + p.ar then (2, 65536) else (1, l + p.ar)) ∧
    p.envelope 2 l = (if p.dr = 0 ∨ l ≤ p.sl + p.dr then (3, p.sl) else (2, l - p.dr)) ∧
    p.envelope 3 l = (3, p.sl) ∧
    p.envelope 4 l = (if p.rr = 0 ∨ l ≤ p.rr then (0, 0) else (4, l - p.rr))) ∧
  (∀ (s : State) (v : Fin 64), s.wf → s.ecc = [] →
    let a := Reg.SPL_VCTL v
    let e := (s.voice v).envelope (s.fld a Fld.SPL_VCTL_STATE) (s.fld a Fld.SPL_VCTL_LEVEL)
    let pos := s.spl.vpos[v.val]
    let next := pos + (s.voice v).inc
    (s.fld a Fld.SPL_VCTL_STATE = 0 → (s.voiceTick v).1 = (0, false)) ∧
    (e.1 ≠ 0 → next < (s.voice v).len * 65536 → (s.voiceTick v).1.2 = true ∧ (s.voiceTick v).2.spl.vpos = s.spl.vpos.set v.val next) ∧
    (e.1 ≠ 0 → (s.voice v).len * 65536 ≤ next → (s.voice v).loop = false → (s.voiceTick v).1.2 = false ∧
      (s.voiceTick v).2.fld a Fld.SPL_VCTL_STATE = 0)))

/-- Frames at the seam's ports (R376, R379 to R382, R385 to R388): a port that is off receives nothing; a frame for no valid VLAN is counted
as discarded; a broadcast frame joins the class of its priority at every other port of its VLAN, or is counted where the class is full; an
idle port takes the frame at the head of its highest class whose gate is open; pre-emption holds a frame at the first point
at which it may be cut (the fragment minima and what goes before a fragment are the model's, log 31) and resumes it; a frame that ends is stamped with the time at which it began (log 85); a gate write sets
the gates of its mask; ageing marks an entry and then removes it; a recovery that no frame passed for its time starts anew. -/
def Obligations.SeamFrames : Prop :=
  ∀ (s : State) (p : Fin 10) (l : List Byte) (ago : Nat), s.wf → s.ecc = [] →
    let x := s.sport p
    let on := s.flag (Reg.SEAM_PCTL p) Fld.SEAM_PCTL_EN
    let receive : Instr := .frameReceive p l ago []
    let stamp := s.portStamp p ago
    let drawn : State := { s with free := s.free + 1 }
    let drops (t : State) (k : Nat) : Prop := t.seam = s.seam ∧ RegsAndEvents s t [Reg.SEAM_PDROP k] [] ∧ OnlyRegs drawn t ∧
      t.reg (Reg.SEAM_PDROP k) = (if s.reg (Reg.SEAM_PDROP k) = 0xFFFFFFFF then 0xFFFFFFFF else s.reg (Reg.SEAM_PDROP k) + 1)
    let state := s.fld (Reg.SEAM_PCTL p) Fld.SEAM_PCTL_STATE
    let vid := (s.frameVlan p l).1
    let pcp := (s.frameVlan p l).2
    let entry := s.vlan vid
    let bridged : Prop := on = true ∧ p.val < 8 ∧ 14 ≤ l.length ∧ s.flag Reg.SEAM_CTRL Fld.SEAM_CTRL_EN = true
    let idle : Prop := x.wire = none ∧ x.held = none
    let run : Prop := on = true ∧ (p = 9 ∨ s.flag Reg.SEAM_CTRL Fld.SEAM_CTRL_EN = true)
    let eligible (c : Nat) (f : SFrame) : Prop := s.gateOpen p c = true ∧ (x.classes.getD c []).head? = some f ∧ f.elig ≤ s.fc
    (on = false ∨ p = 8 ∨ l.length < 14 → exec receive s = .next s) ∧
    (on = true → p = 9 → 14 ≤ l.length → s.flag Reg.SEAM_RXDEF Fld.SEAM_RXDEF_EN = false → ∃ t, exec receive s = .next t ∧ drops t 9) ∧
    (p.val < 8 → s.flag Reg.SEAM_CTRL Fld.SEAM_CTRL_EN = false → ∃ k, exec receive s = .next { s with free := k }) ∧
    (bridged → state ≠ 1 → state ≠ 2 ∨ entry / 2 ^ 31 = 0 ∨ entry.testBit p = false → ∃ t, exec receive s = .next t ∧ drops t p.val) ∧
    (bridged → state = 2 → entry / 2 ^ 31 = 1 → entry.testBit p = true → entry.testBit 8 = false → dstMac l = 0xFFFFFFFFFFFF →
      isGptp l = false → s.fdbFind (srcMac l) vid = none → s.fdbFind (dstMac l) vid = none → s.flag Reg.SEAM_CTRL Fld.SEAM_CTRL_LEARN = false →
      ∃ t, exec receive s = .next t ∧ t.mem = s.mem ∧ ∀ e : Fin 10, let c := s.pcpClass e pcp
        let goes : Prop := e.val < 8 ∧ e ≠ p ∧ entry.testBit e = true
        let out := if (entry / 2 ^ 16).testBit e then untag l else withTag l (pcp * 2 ^ 13 + tci l / 2 ^ 12 % 2 * 2 ^ 12 + vid)
        (goes → s.classFull e c = false → (t.sport e).classes.getD c [] =
          (s.sport e).classes.getD c [] ++ [⟨padFrame out, c, s.fc + 24, .bridge⟩]) ∧
        (goes → s.classFull e c = true → t.sport e = s.sport e ∧
          t.reg (Reg.SEAM_PDROP e) = if s.reg (Reg.SEAM_PDROP e) = 0xFFFFFFFF then 0xFFFFFFFF else s.reg (Reg.SEAM_PDROP e) + 1) ∧
        (¬ goes → t.sport e = s.sport e)) ∧
    (¬ run → exec (.frameSelect p) s = .next s) ∧
    (∀ c f, run → p = 8 → c < 8 → eligible c f → f.cls = c → (∀ d g, c < d → d < 8 → ¬ eligible d g) → f.origin = .telegram →
      isGptp f.bytes = false → aafPdu f.bytes = none → s.tgFind f.bytes = none → s.flag Reg.SEAM_RXDEF Fld.SEAM_RXDEF_EN = false →
      ∃ t, exec (.frameSelect p) s = .next t ∧ OnlyRegs { drawn with seam := t.seam } t ∧ RegsAndEvents s t [Reg.SEAM_PDROP 8] [] ∧
        t.seam = (s.setSport p { x with classes := x.classes.set! c (x.classes.getD c []).tail }).seam ∧
        t.reg (Reg.SEAM_PDROP 8) = if s.reg (Reg.SEAM_PDROP 8) = 0xFFFFFFFF then 0xFFFFFFFF else s.reg (Reg.SEAM_PDROP 8) + 1) ∧
    (∀ c f, run → p ≠ 8 → idle → c < 8 → eligible c f → f.cls = c → (∀ d g, c < d → d < 8 → ¬ eligible d g) →
      exec (.frameSelect p) s = .next (s.setSport p { x with classes := x.classes.set! c (x.classes.getD c []).tail, wire := some f, cut := 0, since := s.fc })) ∧
    (idle ∨ p = 8 → (∀ c f, c < 8 → ¬ eligible c f) → exec (.frameSelect p) s = .next s) ∧
    (∀ h, run → p ≠ 8 → x.wire = none → x.held = some h → (∀ c f, c < 8 → s.preemptable p c = false → ¬ eligible c f) →
      exec (.frameSelect p) s = .next (s.setSport p { x with wire := some h, held := none, since := s.fc })) ∧
    (run → p ≠ 8 → x.wire.isSome → x.held.isSome → exec (.frameSelect p) s = .next s) ∧
    (∀ w c f, run → p ≠ 8 → x.wire = some w → x.held = none → s.preemptable p w.cls = true → s.preempts p = true → c < 8 →
      let speed := ([10, 100, 1000, 2500, 5000, 10000] : List Nat).getD (s.fld (Reg.SEAM_PSTAT p) Fld.SEAM_PSTAT_SPEED) 10
      let sent := (s.fc - x.since) * speed / 6000 - 8
      let may : Prop := 64 * (1 + s.fld (Reg.SEAM_PPRE p) Fld.SEAM_PPRE_ADDFRAG) - 4 ≤ sent ∧ x.cut + sent + 64 ≤ w.bytes.length + 4
      (¬ may → exec (.frameSelect p) s = .next s) ∧
      (may → eligible c f → f.cls = c → s.preemptable p c = false → (∀ d g, c < d → d < 8 → s.preemptable p d = false → ¬ eligible d g) →
      exec (.frameSelect p) s = .next (s.setSport p
        { x with classes := x.classes.set! c (x.classes.getD c []).tail, wire := some f, held := some w, cut := x.cut + sent, since := s.fc }))) ∧
    (x.wire = none → exec (.frameTransmitEnd p ago) s = .next s) ∧
    (∀ f, x.wire = some f → f.origin = .bridge ∨ f.origin = .telegram ∨ f.origin = .followUp →
      exec (.frameTransmitEnd p ago) s = .next (drawn.setSport p { x with wire := none })) ∧
    (∀ f n, x.wire = some f → f.origin = .pdelayReq n →
      exec (.frameTransmitEnd p ago) s = .next (drawn.setSport p { x with wire := none, t1 := some (n, stamp) })) ∧
    (∀ f q d u, x.wire = some f → f.origin = .queue q d.idx → s.txList q = [d] → d.left = 1 → d.result = none →
      let ended : TxD := { d with left := 0, result := some 0, stamp := if d.ts = true ∧ p.val < 8 then stamp else d.stamp }
      let v := (drawn.setSport p { x with wire := none }).setTxList q [ended]
      let d4 := if s.qAborting false q = true then 2 ^ 31 + 2 ^ 28 else 2 ^ 31
      let at' := v.qDesc false q d.idx + 16
      let w := (u.setTxList q []).qDone false q at' d4
      v.engineWrites .seam (v.qCoh false q) at' (wordBytes (BitVec.ofNat 32 d4 :: ended.words.tail)) = (.done, u) → w.txList q = [] →
      exec (.frameTransmitEnd p ago) s = .next (if d.evt then w.qEvent false q else w)) ∧
    (∀ (who : Who) (k : Fin 8) (data : Word),
      let mask := Fld.SEAM_GSET_MASK.get data
      let old := s.fld (Reg.SEAM_GATE k) Fld.SEAM_GATE_GATES
      ∃ t, exec (.gateSet who k data) s = .next t ∧ RegsAndEvents s t [Reg.SEAM_GATE k, Reg.SEAM_POVR k] [] ∧ OnlyRegs s t ∧
        (∀ c, c < 8 → (t.fld (Reg.SEAM_GATE k) Fld.SEAM_GATE_GATES).testBit c =
          if mask.testBit c then (Fld.SEAM_GSET_VAL.get data).testBit c else old.testBit c) ∧
        t.reg (Reg.SEAM_POVR k) = (match (s.sport (Fin.ofNat 10 k)).wire with
          | some f => if old.testBit f.cls && mask.testBit f.cls && !(Fld.SEAM_GSET_VAL.get data).testBit f.cls &&
              s.reg (Reg.SEAM_POVR k) != 0xFFFFFFFF then s.reg (Reg.SEAM_POVR k) + 1 else s.reg (Reg.SEAM_POVR k)
          | none => s.reg (Reg.SEAM_POVR k))) ∧
    (∀ (link : Bool) (speed : Fin 6) (ok : Bool),
      let w : Word := BitVec.ofNat 32 (bit link * 2 ^ 31 + speed.val * 2 ^ 28 + bit (ok && p.val < 8) * 2 ^ 27)
      s.reg (Reg.SEAM_PSTAT p) ≠ w → link = false ∨ speedAllowed p (s.flag (Reg.SEAM_PCTL p) Fld.SEAM_PCTL_MODE) speed = true →
      ∃ t, exec (.portStatusChange p link speed ok) s = .next t ∧ t.reg (Reg.SEAM_PSTAT p) = w ∧ OnlyRegs s t ∧
        RegsAndEvents s t [Reg.SEAM_PSTAT p] (if (s.reg Reg.SEAM_EVTEN).getLsbD p then [496 + p.val] else [])) ∧
    (let due : Prop := s.flag Reg.SEAM_CTRL Fld.SEAM_CTRL_EN = true ∧
        s.seam.aged + s.fld Reg.SEAM_CTRL Fld.SEAM_CTRL_AGE * 750000000 ≤ s.fc
     (¬ due → exec (.ageingScan []) s = .next s) ∧
     (due → ∃ t, exec (.ageingScan []) s = .next t ∧ t.seam = { s.seam with aged := s.fc } ∧
       RegsAndEvents s t (s.fdbDynamic.map (fun o => 0x10C00004 + o)) [] ∧
       ∀ o ∈ s.fdbDynamic, t.seamWord o 1 =
         if s.seamWord o 1 / 2 ^ 29 % 2 = 1 then s.seamWord o 1 % 2 ^ 31 else s.seamWord o 1 + 2 ^ 29)) ∧
    (∀ c : Fin 2048,
      let r := s.cbRec c
      let w (i : Nat) := s.seamWord (0xC0000 + 16 * c.val) i
      let due : Prop := w 0 / 2 ^ 31 = 1 ∧ w 0 / 2 ^ 29 % 2 = 1 ∧ r.takeAny = false ∧ r.passed + w 1 % 2 ^ 24 * 750 ≤ s.fc
      (¬ due → exec (.cbRecoveryReset c) s = .next s) ∧
      (due → ∃ t, exec (.cbRecoveryReset c) s = .next t ∧ t.cbRec c = { r with takeAny := true, hist := [] } ∧
        RegsAndEvents s t [] [512] ∧ { t with dev := s.dev, evc := s.evc, seam := s.seam } = s))

/-- The seam's time engine (R389 to R393): Pdelay_Req and Sync messages are sent when they are due; an accepted Sync shows the offset, ends
holdover, and where the engine disciplines device time, slews it by the offset and corrects its rate; without one for its time, holdover
begins; in standby neither acts. The messages' layout is the standards' (PRESUMED, log 31), and a Sync of no interval leaves the rate open (the
model's choice, log 85). -/
def Obligations.SeamTimeEngine : Prop :=
  ∀ (s : State), s.wf → s.ecc = [] →
    let hold := s.flag Reg.PSQ_DTCTRL Fld.PSQ_DTCTRL_HOLD
    (∀ p : Fin 8,
      let q : Fin 10 := p.castLE (by decide)
      let x := s.sport q
      let log (f : Fld) := logByte (s.fld Reg.SEAM_PTPCTL f)
      let may : Prop := s.ptpOn = true ∧ s.classFull q ptpCls = false
      let req := ptpFrame s.hmac 2 8 (portId s.hmac p) x.pdSeq 5 (log Fld.SEAM_PTPCTL_LOGPD) (beBytes 20 0)
      let sync := ptpFrame s.hmac 0 0x208 (portId s.hmac p) x.syncSeq 0 (log Fld.SEAM_PTPCTL_LOGSYNC) (beBytes 10 0)
      (may → s.role p ≠ 0 → (∀ n, x.pdSent = some n → n + s.pdInterval ≤ s.fc) →
        exec (.pdelayReqSend p) s = .next (s.setSport q { x with
          pdSent := some s.fc
          pdSeq := (x.pdSeq + 1) % 65536
          classes := x.classes.set! ptpCls (x.classes.getD ptpCls [] ++ [⟨padFrame req, ptpCls, s.fc + 24, .pdelayReq x.pdSeq⟩]) })) ∧
      (¬ may ∨ s.role p = 0 → exec (.pdelayReqSend p) s = .next s) ∧
      (may → s.role p = 1 → (∀ n, x.syncSent = some n → n + s.syncInterval ≤ s.fc) →
        exec (.syncSend p) s = .next (s.setSport q { x with
          syncSent := some s.fc
          syncSeq := (x.syncSeq + 1) % 65536
          classes := x.classes.set! ptpCls (x.classes.getD ptpCls [] ++ [⟨padFrame sync, ptpCls, s.fc + 24, .sync x.syncSeq⟩]) })) ∧
      (¬ may ∨ s.role p ≠ 1 → exec (.syncSend p) s = .next s)) ∧
    (s.sys.standby ≠ 0 ∨ s.seam.sync = none ∨ s.seam.fup = none ∨ s.slavePort = none ∨ s.ptpOn = false → exec .syncAccept s = .next s) ∧
    (∀ n t f m g p, s.sys.standby = 0 → s.ptpOn = true → s.seam.sync = some (n, t, f) → s.seam.fup = some (n, m, g) → s.slavePort = some p →
      f ≤ g + s.syncInterval → g ≤ f + s.syncInterval → s.flag Reg.SEAM_PTPCTL Fld.SEAM_PTPCTL_ISTEP = false →
      let mt := m + (s.sport (Fin.ofNat 10 p)).mld
      let ns := Int.tdiv (t - mt) (2 ^ 16)
      ∃ u, exec .syncAccept s = .next u ∧ u.mem = s.mem ∧
        u.reg Reg.SEAM_PTPOFFL = BitVec.ofInt 32 ns ∧ u.reg Reg.SEAM_PTPOFFH = BitVec.ofInt 32 (Int.fdiv ns (2 ^ 32)) ∧
        u.flag Reg.SEAM_PTPSTAT Fld.SEAM_PTPSTAT_OVALID = true ∧ u.flag Reg.PSQ_DTCTRL Fld.PSQ_DTCTRL_HOLD = false ∧
        u.seam = { s.seam with sync := none, fup := none, prevSync := some (mt, t), syncFc := s.fc } ∧
        (hold = true → (s.reg Reg.SEAM_EVTEN).getLsbD 12 = true → u.evc = (s.raise 508).evc) ∧
        (hold = false → u.evc = s.evc) ∧
        (s.disciplined = false → u.psq = s.psq) ∧
        (s.disciplined = true → u.psq.adjRem = clampInt (-(2 ^ 63)) ((2 ^ 31 - 1) * 2 ^ 32) (-((t - mt) * 2 ^ 16))) ∧
        (s.disciplined = true → (hold = true ∨ s.seam.prevSync = none) → u.psq.inc = s.psq.inc) ∧
        (∀ m0 t0, s.disciplined = true → hold = false → s.seam.prevSync = some (m0, t0) → t ≠ t0 →
          u.psq.inc = servoInc s.psq.inc (mt - m0) (t - t0) (s.fld Reg.SEAM_PTPCTL Fld.SEAM_PTPCTL_RSH))) ∧
    (let due : Prop := s.sys.standby = 0 ∧ s.ptpOn = true ∧ s.slavePort.isSome = true ∧ hold = false ∧
        s.seam.syncFc + s.fld Reg.SEAM_PTPCTL Fld.SEAM_PTPCTL_SRTO * s.syncInterval ≤ s.fc
     (¬ due → exec .holdoverEnter s = .next s) ∧
     (due → ∃ t, exec .holdoverEnter s = .next t ∧ t.flag Reg.PSQ_DTCTRL Fld.PSQ_DTCTRL_HOLD = true ∧ OnlyRegs s t ∧
       RegsAndEvents s t [Reg.PSQ_DTCTRL] (if (s.reg Reg.SEAM_EVTEN).getLsbD 11 then [507] else [])))

/-- The seam's queues (R394 to R402): an enable with a ring of a size it may have starts the ring, and a doorbell moves its TAIL, each
refused with QWI where it may not; a descriptor is taken, its frame placed in its class, or completed with its error; a receive completion
lands, or waits while memory is held; an abort stops the queue, marks the descriptors completed in its fc or later as aborted, and ends with the queue off.
Without a timestamp the words D5 to D7 are open (log 84). -/
def Obligations.SeamQueues : Prop :=
  ∀ (s : State) (who : Who) (rx : Bool) (q : Fin 8192) (data : Word), s.wf → s.ecc = [] →
    let at' (i : Nat) : Nat := 0x10C00000 + (if rx then 0x40000 else 0x20000) + 16 * q.val + 4 * i
    let ignored (c : Instr) : Prop := ∃ t, exec c s = .next t ∧ OnlyRegs s t ∧ RegsAndEvents s t [Reg.SEAM_STAT] [] ∧
      t.reg Reg.SEAM_STAT = Fld.SEAM_STAT_QWI.put 1 (s.reg Reg.SEAM_STAT)
    let szl := data.toNat % 16
    let port := data.toNat / 2 ^ 25 % 16
    let enable : Instr := .queueEnable who rx q data
    let bell : Instr := if rx then .rxDoorbell who data else .txDoorbell who data
    let on := s.qEnabled rx q
    (on = true → ignored enable) ∧
    (on = false → data.getLsbD 31 = true → (szl < 2 ∨ 12 < szl ∨ (rx = false ∧ (port = 8 ∨ 9 < port))) → ignored enable) ∧
    (on = false → (data.getLsbD 31 = true → 2 ≤ szl ∧ szl ≤ 12 ∧ (rx = false → port ≠ 8 ∧ port ≤ 9)) →
      ∃ t, exec enable s = .next t ∧ t.qEnabled rx q = data.getLsbD 31 ∧ t.reg (at' 0) = data &&& 0xDFFF800F ∧ OnlyRegs s t ∧
        RegsAndEvents s t (if data.getLsbD 31 then [at' 0, at' 3] else [at' 0]) [] ∧ (data.getLsbD 31 = true → t.reg (at' 3) = 0)) ∧
    (Fld.SEAM_TXDB_QUEUE.get data = q.val → on = true → ∃ t, exec bell s = .next t ∧ OnlyRegs s t ∧ RegsAndEvents s t [at' 3] [] ∧
      t.qTail rx q = Fld.SEAM_TXDB_TAIL.get data % s.qSize rx q ∧ t.qHead rx q = s.qHead rx q) ∧
    (Fld.SEAM_TXDB_QUEUE.get data = q.val → on = false → ignored bell) ∧
    (let p := s.qPort q
     let cls := s.qClass q
     let idx := s.qHead false q
     let desc := s.qDesc false q idx
     let fetch : Instr := .txDescriptorFetch q []
     let s1 : State := { s with free := s.free + 1 }
     (s.qWork false q = false → exec fetch s = .next s) ∧
     (∀ d b, s.qWork false q = true → s1.engineReads .seam (s.qCoh false q) desc 32 = (.bytes d, s1) →
       let w (i : Nat) : Nat := leNat (slice d (4 * i) 4)
       let len := w 2 % 2 ^ 11
       let next := s.qTail false q * 2 ^ 16 + (idx + 1) % s.qSize false q
       let took : TxD := ⟨idx, w 2 / 2 ^ 31 == 1, w 2 / 2 ^ 30 % 2 == 1, 0, none, Config.freeNat s.free⟩
       (14 ≤ len → len ≤ 1518 → s.portUp p = true → w 3 / 2 ^ 31 = 0 → s.classFull p cls = true → exec fetch s = .next s) ∧
       (14 ≤ len → len ≤ 1518 → s.portUp p = true → w 3 / 2 ^ 31 = 0 → s.classFull p cls = false → w 2 / 2 ^ 28 % 4 = 0 → s.txList q = [] →
         s1.engineReads .seam (s.qCoh false q) (w 0 + w 1 % 256 * 2 ^ 32) len = (.bytes b, s1) →
         ∃ t, exec fetch s = .next t ∧ t.seamWord (queueAt false q) 3 = next % 2 ^ 32 ∧ t.txList q = [{ took with left := 1 }] ∧
           t.sport p = { s.sport p with classes := (s.sport p).classes.set! cls ((s.sport p).classes.getD cls [] ++
             [⟨padFrame b, cls, s.fc + 24, .queue q idx⟩]) } ∧
           RegsAndEvents s t [0x10C2000C + 16 * q.val] [] ∧ { t with dev := s.dev, seam := s.seam, free := s.free } = s) ∧
       (∀ u r, (if len < 14 ∨ 1518 < len then r = 3 else w 3 / 2 ^ 31 = 0 ∧ s.portUp p = false ∧ r = 4) → s.txList q = [] →
         let ended : TxD := { took with result := some r }
         let v := (s1.qAdvance false q).setTxList q [ended]
         let y := (u.setTxList q []).qDone false q (v.qDesc false q idx + 16) (2 ^ 31 + r * 2 ^ 28)
         v.engineWrites .seam (v.qCoh false q) (v.qDesc false q idx + 16) (wordBytes ended.words) = (.done, u) → y.txList q = [] →
         exec fetch s = .next (if ended.evt then y.qEvent false q else y)))) ∧
    (s.seam.rxc = [] → exec (.rxCompletionLanded []) s = .next s) ∧
    (∀ c l w r u e, s.seam.rxc = c :: l → c.words = w :: r →
      let d4 : Word := if s.qAborting true c.q = true then BitVec.ofNat 32 (w.toNat / 2 ^ 31 * 2 ^ 31 + 2 ^ 28 + w.toNat % 2 ^ 28) else w
      s.engineWrites .seam (s.qCoh true c.q) (c.addr + 16) (wordBytes (d4 :: r)) = (e, u) →
      (e = .held → exec (.rxCompletionLanded []) s = .next u) ∧
      (e = .done → ∃ t, exec (.rxCompletionLanded []) s = .next t ∧ t.seam.rxc = l ∧ { u.qEvent true c.q with seam := t.seam } = t ∧
        Sparse.get (8192 + c.q) t.seam.doneFc = some u.fc)) ∧
    (Fld.SEAM_QCMD_ABORT.get data = 0 → exec (.queueAbort who data) s = .next s) ∧
    (Fld.SEAM_QCMD_ABORT.get data = 1 → s.flag Reg.SEAM_QSTAT Fld.SEAM_QSTAT_BUSY = true → ignored (.queueAbort who data)) ∧
    (Fld.SEAM_QCMD_ABORT.get data = 1 → s.flag Reg.SEAM_QSTAT Fld.SEAM_QSTAT_BUSY = false → Fld.SEAM_QCMD_RX.get data = bit rx →
      Fld.SEAM_QCMD_QUEUE.get data = q.val → ∃ t, exec (.queueAbort who data) s = .next t ∧ t.qAborting rx q = true ∧
        (rx = true → Sparse.get (8192 + q.val) s.seam.doneFc ≠ some s.fc → RegsAndEvents s t [Reg.SEAM_QSTAT] [] ∧
          t.reg Reg.SEAM_QSTAT = Fld.SEAM_QSTAT_BUSY.put 1 (s.reg Reg.SEAM_QSTAT) ∧ t.mem = s.mem ∧ t.seam.rxc = s.seam.rxc) ∧
        (∀ a d4, let key := if rx then 8192 + q.val else q.val
          let v : State := { s.setFld Reg.SEAM_QSTAT Fld.SEAM_QSTAT_BUSY 1 with
            seam := { s.seam with aborts := s.seam.aborts ++ [(⟨rx, q.val, false⟩ : QAbort)] } }
          Sparse.get key s.seam.doneFc = some s.fc → s.seam.landed.filter (fun l => l.1 == key) = [(key, a, d4)] →
          let u := (v.engineWrite .seam (v.qCoh rx q) a (leBytes 4 (d4 - d4 / 2 ^ 28 % 8 * 2 ^ 28 + 2 ^ 28))).2
          (rx = true → t = u) ∧ (rx = false → s.txList q = [] → t.mem = u.mem)) ∧
        (rx = false → ∀ (p : Fin 10) c f i, f ∈ (t.sport p).classes.getD c [] → f.origin ≠ .queue q i)) ∧
    (s.qAborting rx q = false ∨ (rx = true ∧ ((∃ c ∈ s.seam.rxc, c.q = q.val) ∨ s.qWaits q = true)) →
      exec (.queueAbortComplete rx q) s = .next s) ∧
    (∀ a, s.seam.aborts = [a] → a.rx = rx → a.q = q.val → (rx = true → (∀ c ∈ s.seam.rxc, c.q ≠ q.val) ∧ s.qWaits q = false) →
      (rx = false → s.qOnWire q = false ∧ s.txList q = []) →
      ∃ t, exec (.queueAbortComplete rx q) s = .next t ∧ t.qEnabled rx q = false ∧ t.seam = { s.seam with aborts := [] } ∧
        t.flag Reg.SEAM_QSTAT Fld.SEAM_QSTAT_ABORTED = true ∧ t.flag Reg.SEAM_QSTAT Fld.SEAM_QSTAT_BUSY = false ∧
        (a.late = true → t.flag Reg.SEAM_QSTAT Fld.SEAM_QSTAT_ABLATE = true) ∧ RegsAndEvents s t [at' 0, Reg.SEAM_QSTAT] [509] ∧
          OnlyRegs { s with seam := t.seam } t)

/-- Telegrams (R403 to R409, R414): INS and DEL answer their result; an insert starts the entry's counts and a subscriber's deadline, and
counts it in its bucket or lists it in its group; PUBLISH swaps the buffers of a group and builds its publishers in ascending order, each
frame counted and placed in its queue's class; a command while one is busy is ignored with TREF (how many fc BUSY lasts is free, log 32), and with EN = 0 nothing is published (DEDUCED, log 84); the scan
takes an entry in each fc and marks, at the end of the fc, a subscriber whose deadline has passed. -/
def Obligations.Telegrams : Prop :=
  ∀ (s : State) (who : Who) (i : Fin 32768), s.wf → s.ecc = [] →
    let st := Reg.SEAM_TSTAT
    let n := Config.freeNat s.free % 5
    let busy : Prop := s.flag st Fld.SEAM_TSTAT_BUSY = true
    let shows (t : State) (v : Word) : Prop := t.reg st = (if n = 0 then v else Fld.SEAM_TSTAT_BUSY.put 1 v) ∧
      t.seam.tcmd = if n = 0 then s.seam.tcmd else some (s.fc + n)
    let outcome (c : Instr) (r : Nat) : Prop := ∃ t, exec c s = .next t ∧ RegsAndEvents s t [st] [506] ∧
      { t with dev := s.dev, evc := s.evc, free := s.free, seam := { t.seam with tcmd := s.seam.tcmd } } = s ∧
      shows t (Fld.SEAM_TSTAT_TREF.put 1 (Fld.SEAM_TSTAT_RES.put r (s.reg st)))
    let placed : Prop := ∀ h, s.tgKey i = some h → s.tgSlot h = i.val
    let outside (t : State) : Prop := ∀ a, a < 0x20400000 + 64 * i.val ∨ 0x20400000 + 64 * i.val + 64 ≤ a →
      Memory.read t.mem a = Memory.read s.mem a
    let ins : Instr := .telegramInsert who i
    let del : Instr := .telegramDelete who i
    let kind := s.tgKind i
    let on := s.flag Reg.SEAM_CTRL Fld.SEAM_CTRL_EN
    (busy → ∀ c ∈ [ins, del], ∃ t, exec c s = .next t ∧ OnlyRegs s t ∧ RegsAndEvents s t [st] [] ∧
      t.reg st = Fld.SEAM_TSTAT_TREF.put 1 (s.reg st)) ∧
    (¬ busy →
    ((∃ h, s.tgKey i = some h ∧ s.tgSlot h ≠ i.val) → outcome ins 1) ∧
    (placed → s.tgValid i = true → outcome ins 2) ∧
    (placed → s.tgValid i = false → s.tgContent i = false → outcome ins 3) ∧
    (placed → s.tgValid i = false → s.tgContent i = true → ∃ t, exec ins s = .next t ∧ shows t (Fld.SEAM_TSTAT_RES.put 0 (s.reg st)) ∧
      RegsAndEvents s t [st] [] ∧ outside t ∧ t.tg i 0 = s.tg i 0 % 2 ^ 31 + 2 ^ 31 ∧ t.tg i 11 = 0 ∧ t.tg i 14 = 0 ∧ t.tg i 15 = 0 ∧
      (∀ k, 0 < k → k < 11 → t.tg i k = s.tg i k) ∧
      t.tg i 12 + t.tg i 13 * 2 ^ 32 = (if kind = 2 then (s.now + 1000 * s.tg i 10) % 2 ^ 64 else 0) ∧
      (∀ h, s.tgKey i = some h → t.keyedIn (h % 4096) = s.keyedIn (h % 4096) + 1) ∧
      (kind = 1 → t.members (s.tgGroup i) = insertIndex i (s.members (s.tgGroup i)))) ∧
    (s.tgValid i = false → outcome del 4) ∧
    (s.tgValid i = true → ∃ t, exec del s = .next t ∧ shows t (Fld.SEAM_TSTAT_RES.put 0 (s.reg st)) ∧ RegsAndEvents s t [st] [] ∧ outside t ∧
      t.tg i 0 = s.tg i 0 % 2 ^ 31 ∧ (∀ k, 0 < k → k < 16 → t.tg i k = s.tg i k) ∧
      (∀ h, Sparse.rising s.seam.keyed = true → s.tgKey i = some h → t.keyedIn (h % 4096) = s.keyedIn (h % 4096) - 1) ∧
      (Sparse.rising s.seam.groups = true → s.tgKey i = none → ∀ j, j ∈ t.members (s.tgGroup i) ↔ j ∈ s.members (s.tgGroup i) ∧ j ≠ i.val))) ∧
    (∀ data, let g := Fld.SEAM_PUB_GROUP.get data
      let pg := Reg.SEAM_PGSTAT g
      let publish : Instr := .publish who data
      (on = false → exec publish s = .next s) ∧
      (on = true → s.flag pg Fld.SEAM_PGSTAT_BUSY = true → ∃ t, exec publish s = .next t ∧ OnlyRegs s t ∧ RegsAndEvents s t [Reg.SEAM_STAT] [511] ∧
        t.reg Reg.SEAM_STAT = Fld.SEAM_STAT_PREF.put 1 (s.reg Reg.SEAM_STAT)) ∧
      (on = true → s.flag pg Fld.SEAM_PGSTAT_BUSY = false → ∃ t, exec publish s = .next t ∧ RegsAndEvents s t [pg] [] ∧
        t.fld pg Fld.SEAM_PGSTAT_FRONT = 1 - s.fld pg Fld.SEAM_PGSTAT_FRONT ∧
        (t.flag pg Fld.SEAM_PGSTAT_BUSY = true ↔ s.members g ≠ []) ∧ (s.members g ≠ [] → Sparse.get g t.seam.builds = some 0) ∧
        { t with dev := s.dev, seam := { t.seam with builds := s.seam.builds } } = s)) ∧
    (∀ g : Fin 256, (on = false ∨ Sparse.get g.val s.seam.builds = none → exec (.telegramBuild g []) s = .next s) ∧
      ∀ n j, on = true → Sparse.get g.val s.seam.builds = some n → s.nextPublisher g n = some j → j < 32768 → s.tg j 0 / 2 ^ 24 % 2 = 0 →
        let q := s.tg j 6 % 2 ^ 13
        let p := s.qPort q
        let cls := s.qClass q
        (s.qEnabled false q = true → s.classFull p cls = true → exec (.telegramBuild g []) s = .next s) ∧
        (s.qEnabled false q = true → s.classFull p cls = false → ∃ t, exec (.telegramBuild g []) s = .next t ∧
          t.tg j 11 = (s.tg j 11 + 1) % 2 ^ 32 ∧ t.tg j 14 = (s.tg j 14 + 1) % 2 ^ 32 ∧
          t.sport p = { s.sport p with classes := (s.sport p).classes.set! cls ((s.sport p).classes.getD cls [] ++
            [⟨padFrame (s.pdBuild j), cls, s.fc + 24, .telegram⟩]) } ∧
          (s.nextPublisher g (j + 1) ≠ none → Sparse.get g.val t.seam.builds = some (j + 1) ∧ t.dev = s.dev) ∧
          (s.nextPublisher g (j + 1) = none → t.flag (Reg.SEAM_PGSTAT g) Fld.SEAM_PGSTAT_BUSY = false)) ∧
        (s.qEnabled false q = false → ∃ t, exec (.telegramBuild g []) s = .next t ∧ t.seam.ports = s.seam.ports ∧ t.tg j 11 = s.tg j 11 ∧
          t.tg j 15 = min (s.tg j 15 + 1) 0xFFFFFFFF)) ∧
    ((on = false ∨ s.seam.visit.isSome = true → exec (.supervisionVisit []) s = .next s) ∧
     (on = true → s.seam.visit = none → exec (.supervisionVisit []) s =
       .next { s with seam := { s.seam with scan := (s.seam.scan + 1) % 32768, visit := some s.seam.scan } })) ∧
    (s.seam.visit = none → s.scanVisit = s) ∧
    (∀ j, s.seam.visit = some j →
     let v : State := { s with seam := { s.seam with visit := none } }
     let t := s.scanVisit
     let s0 := leNat (s.bytes (s.tgStatus j) 4)
     let late : Prop := s.tgValid j = true ∧ s.tgKind j = 2 ∧ s.tg j 10 ≠ 0 ∧ s0 / 2 ^ 14 % 2 = 0 ∧ s.tg j 12 + s.tg j 13 * 2 ^ 32 ≤ s.now
     (¬ late → t = v) ∧
     (late → t.seam = v.seam ∧ RegsAndEvents s t [] [752 + s.tgGroup j] ∧
       (s.tg j 0 / 2 ^ 26 % 2 = 0 → leNat (t.bytes (s.tgStatus j) 4) = s0 / 2 ^ 15 * 2 ^ 15 + 2 ^ 14 ∧
         ∀ a, a < s.tgStatus j ∨ s.tgStatus j + 4 ≤ a → Memory.read t.mem a = Memory.read s.mem a) ∧
       (s.tg j 0 / 2 ^ 26 % 2 = 1 → leNat (t.bytes (s.tgStatus j) 4) / 2 ^ 13 % 4 = 2)))

/-- The island measures and keeps time (R428 to R434): a sample goes to the sets that take part, and time passes; a fault of a channel that
begins is logged and marks the period; a second's end classifies the second, counts it (one that a power fail cut, in no period), and closes
a period at every 300th; a time message and the edge that follows it slew the time or set it; the synchronised state follows the last good
edge. A log entry takes the next number, and where flash fails on it a second one follows. The model's own choices here: the place of a
time message in its sample interval and the count at the end of a lengthened second (log 40), the cut second and the entries after a
flash failure (log 45). -/
def Obligations.IslandMeasurementAndTime : Prop :=
  (∀ r, 0 < r → sinc3 r (List.replicate (3 * r) true) = r ^ 3 ∧ sinc3 r (List.replicate (3 * r) false) = 0) ∧
  (∀ x : IslSet, x.n ≠ 0 → x.vac2 / x.n < 11000 * 11000 →
    let d := x.vdc / x.n
    x.classify = if 2000 ≤ d ∧ d ≤ 4000 then 2 else if 1000 ≤ d ∧ d ≤ 1999 then 3 else if 400 ≤ d ∧ d ≤ 999 then 4 else 15) ∧
  (∀ s : State,
    let i := s.isl
    let only (t : State) : Prop := { t with isl := i } = s
    let sets (c : Instr) (p : Island → Prop) : Prop := ∃ t, exec c s = .next t ∧ only t ∧ p t.isl
    let logged (j : Island) : Prop := j.lseq = i.lseq + (if Config.flashFails i.flashOps then 2 else 1)
    (∀ st, i.running = false ∨ i.len ≤ i.sub → exec (.measurementSample st) s = .next s) ∧
    (∀ st, i.running = true → i.sub < i.len → i.params = none → exec (.measurementSample st) s =
      .next { s with isl := { i with sub := i.sub + 1000, sc := i.sc + 1000 } }) ∧
    (∀ st a, i.running = true → i.sub < i.len → i.params = some a → i.bitsFit (16000 / i.mdiv a) st = true →
      sets (.measurementSample st) (fun j => j.sub = i.sub + 1000 ∧ j.sc = i.sc + 1000 ∧ j.energy = i.energy ∧ j.flash = i.flash ∧
        ∀ k : Fin 2, if i.setOn k then (j.sets[k]).n = (i.sets[k]).n + 1 else j.sets[k] = i.sets[k])) ∧
    (∀ (ch : Fin 8) (ranged : Bool),
      let c := i.chans[ch]
      let is := if ranged then c.over25 else c.faultNow
      let was := if ranged then c.ranged else c.fault
      (i.running = false ∨ i.setOn (ch / 4) = false ∨ is = was → exec (.modulatorFault ch ranged) s = .next s) ∧
      (i.running = true → i.setOn (ch / 4) = true → is ≠ was → sets (.modulatorFault ch ranged) (fun j => logged j ∧
        (if ranged then (j.chans[ch]).ranged else (j.chans[ch]).fault) = is ∧ j.period.modf = (i.period.modf || is) ∧
        ∀ k, k ≠ ch → j.chans[k] = i.chans[k]))) ∧
    (i.running = false ∨ i.sub < i.len → exec .secondEnd s = .next s) ∧
    (i.running = true → i.len ≤ i.sub →
      let step := max (-250000) (min 250000 i.slew)
      let counted := if i.cut then i.period.secs else countSecond i.period.secs i.classify.1
      sets .secondEnd (fun j => j.sec = i.sec + 1 ∧ j.sub = i.sub - i.len ∧ j.slew = i.slew - step ∧ (j.len : Int) = 25000000 + step ∧
        j.cls = i.classify.1 ∧ j.status.isSome = true ∧ j.cut = false ∧ (i.classify.1 = 15 → j.energy = i.energy) ∧
        ((i.sec + 1) % 300 ≠ 0 → j.closed = i.closed ∧ j.period.secs = counted) ∧
        ((i.sec + 1) % 300 = 0 → j.period.secs = [0, 0, 0, 0, 0, 0] ∧ ∃ c, j.closed = i.closed ++ [c] ∧ c.tend = i.sec + 1 ∧
          c.period.secs = counted))) ∧
    (∀ b, i.running = true → b.length = 12 → b.take 2 = [0x55, 0xAA] → b.drop 10 = leBytes 2 (crc16 ((b.drop 2).take 8)).toNat →
      exec (.timeMessage b) s = .next { s with
        isl := { i with tod := some (leNat ((b.drop 2).take 8), i.sc + Config.freeNat s.free % 1000) }, free := s.free + 1 }) ∧
    (∀ b, i.running = false ∨ b.length ≠ 12 ∨ b.take 2 ≠ [0x55, 0xAA] → exec (.timeMessage b) s = .next s) ∧
    (∀ after : Fin 1000, i.running = false ∨ i.tod = none → exec (.ppsEdge after) s = .next s) ∧
    (∀ (after : Fin 1000) (sec t : Nat), i.running = true → i.tod = some (sec, t) →
      let p := i.sub + after.val - 1000
      let now := if p < i.len then (i.sec, min p (min i.len 25000000 - 1)) else (i.sec + 1, min (p - i.len) 24999999)
      let e := ((now.1 : Int) - sec) * 25000000 + now.2
      (t + 25000000 < i.sc + after.val → exec (.ppsEdge after) s = .next s) ∧
      (i.sc + after.val ≤ t + 25000000 → -25000000 < e → e < 25000000 → sets (.ppsEdge after) (fun j => j.tod = none ∧ j.offNs = e * 40 ∧
        j.slew = e - ((i.len : Int) - 25000000) ∧ j.sec = i.sec ∧ j.lseq = i.lseq ∧
        j.good = if -250000 < e ∧ e < 250000 then some (i.sc + after.val) else i.good)) ∧
      (i.sc + after.val ≤ t + 25000000 → e ≤ -25000000 ∨ 25000000 ≤ e → sets (.ppsEdge after) (fun j => j.tod = none ∧ j.sec = sec ∧
        j.sub = 1000 - after.val ∧ j.len = 25000000 ∧ j.slew = 0 ∧ j.cut = false ∧ logged j ∧
        ∃ c, j.closed = i.closed ++ [c] ∧ c.tstep = true ∧ c.period = i.period ∧ c.tend = now.1))) ∧
    (i.running = false ∨ i.inSync = i.synced → exec .syncStateChange s = .next s) ∧
    (i.running = true → i.inSync ≠ i.synced → sets .syncStateChange (fun j => j.synced = i.inSync ∧ logged j ∧
      j.period.unsync = (i.period.unsync || !i.inSync))))

/-- The island's records, its stops and its restart (R426, R434 to R436, R448, R450): the record of the oldest period that has ended becomes
the newest in flash, or, read back wrongly, is logged and stays to do; a power fail leaves a checkpoint with its commit word in one of the 64
slots, or, where flash fails, a logged failure; a loss of power leaves none; a restart finds the newest record, takes the checkpoint that
belongs to it, makes the interrupted period's record, and starts a period; a firmware extension whose hash is not the sealed one is not
loaded. The checkpoint's layout, its next slot and what follows a flash failure are the model's choice (log 45), and so is what counts as the
extension's bytes (log 41). -/
def Obligations.IslandRecordsAndRestarts : Prop :=
  ∀ s : State,
    let i := s.isl
    let sets (c : Instr) (p : Island → Prop) : Prop := ∃ t, exec c s = .next t ∧ { t with isl := i } = s ∧ p t.isl
    let stops (c : Instr) (p : Island → Prop) : Prop := ∃ t, exec c s = .next t ∧ { t with isl := i, selm := s.selm } = s ∧
      t.isl.running = false ∧ t.isl.debug = false ∧ t.isl.queue = [] ∧ t.isl.sram = [] ∧ t.selm = { s.selm with writing := false } ∧ p t.isl
    (∀ v, i.running = false ∨ i.closed = [] → exec (.dataPeriodEnd v) s = .next s) ∧
    (∀ c rest, i.running = true → i.closed = c :: rest →
      sets (.dataPeriodEnd true) (fun j => j.rnum = i.rnum + 1 ∧ j.closed = rest ∧ j.recSeq = c.logseq ∧ j.lseq = i.lseq ∧
        j.prevH = sha256 ((i.record c).take 0x110) ∧ j.energy = i.energy) ∧
      sets (.dataPeriodEnd false) (fun j => j.rnum = i.rnum ∧ j.closed = i.closed ∧ i.lseq + 1 ≤ j.lseq ∧ j.lseq ≤ i.lseq + 2 ∧
        j.prevH = i.prevH)) ∧
    (i.running = false → exec .powerFail s = .next s ∧ exec .islandPowerLost s = .next s ∧ exec .selRstN s = .next s) ∧
    (i.running = true →
      stops .powerFail (fun j => j.energy = i.settle.energy ∧ j.rnum = i.rnum ∧ j.sec = i.sec ∧ j.period = i.period ∧
        if Config.flashFails i.flashOps then i.lseq + 2 ≤ j.lseq ∧ j.lseq ≤ i.lseq + 4
        else i.lseq + 1 ≤ j.lseq ∧ j.lseq ≤ i.lseq + 2 ∧ (i.period.secs.length = 6 → Sparse.rising i.flash = true → ∃ k seq, k < 64 ∧
          j.flashBytes (0x100000 + 4096 * k) 252 = (i.settle.presentCkpt seq).bytes ∧
          j.flashBytes (0x100000 + 4096 * k + 252) 4 = [0, 0, 0, 0])) ∧
      stops .islandPowerLost (fun j => j.lseq = i.lseq ∧ j.flash = i.flash ∧ j.energy = i.energy) ∧
      stops .selRstN (fun j => j.lseq = i.lseq ∧ j.flash = i.flash ∧ j.energy = i.energy)) ∧
    (i.running = true → exec .islandRestart s = .next s) ∧
    (i.running = false → sets .islandRestart (fun j => j.running = true ∧ j.synced = false ∧ j.cls = 15 ∧ j.queue = [] ∧ j.len = 25000000 ∧
      j.period.start = true ∧ j.period.secs = [0, 0, 0, 0, 0, 0] ∧ j.otp = i.otp ∧
      j.fwLoaded = (i.extension.isSome && !(i.sealed && i.extHash != i.storedHash)) ∧
      ∃ newest, (∀ k n, k < 32768 → i.slotRec k = some n → n ≤ newest) ∧ (newest = 0 ∨ ∃ k, k < 32768 ∧ i.slotRec k = some newest) ∧
        (∀ c, i.checkpoint = some c → c.rnum = newest → j.energy = c.energy ∧ j.sec = c.sec ∧ j.sub = c.sub ∧ j.cklost = false ∧
          (j.cut = true ↔ 0 < c.sub) ∧
          ((j.rnum = newest + 1 ∧ j.closed = []) ∨
            (j.rnum = newest ∧ ∃ p, j.closed = [p] ∧ p.ploss = true ∧ p.period = c.period ∧ p.tend = c.sec ∧ p.sys = c.sys))) ∧
        ((∀ c, i.checkpoint = some c → c.rnum ≠ newest) → j.cklost = true ∧ j.closed = [] ∧ j.rnum = newest ∧ j.sub = 0 ∧ j.cut = false ∧
          (newest = 0 → j.sec = 0 ∧ j.energy = List.replicate 20 0))))

/-- The mailbox (R438 to R445): READY that rises starts the island's output, and its fall stops it; messages of 512 bytes leave in the order
identity, status, then the rest, while fewer than eight are in the queue by its count and the Gray-coded read pointer; a replay covers what
lies between REPLAYH hours ago and the present (the span's bounds are the model's reading, log 46, and the message layouts log 43); the writer writes the oldest one into the ring, waits while the ring is full or memory is held, and stops at an
error; a landed slot moves WIDX, the count and the read pointer on and raises its events. -/
def Obligations.MailboxMessages : Prop :=
  (∀ (i : Island) (kind : Nat) (replay : Bool) (p : List Byte), (i.message kind replay p).length = 512) ∧
  (∀ (s : State) (who : Who) (data : Word), s.wf →
    let i := s.isl
    let st := Reg.SELM_MSTAT
    let ctl := Reg.SELM_MCTL
    let en := s.flag ctl Fld.SELM_MCTL_EN
    let writes : Prop := en = true ∧ s.selm.fell = false ∧ s.selm.stopped = false ∧ s.selm.writing = false
    let szl := Fld.SELM_MCTL_SZL.get data
    let count (g : BitVec 4) : BitVec 4 := g ^^^ g >>> 1 ^^^ g >>> 2 ^^^ g >>> 3
    let queued : Nat := (i.sent - count s.selm.taken).toNat
    let land (t : State) : Prop := { t with dev := s.dev, evc := s.evc, isl := i, selm := s.selm } = s
    (i.running = true → i.ready = false → s.selm.fell = false → s.flag st Fld.SELM_MSTAT_READY = true →
      ∃ t, exec .readyRise s = .next t ∧ { t with isl := i } = s ∧ t.isl.ready = true ∧ t.isl.sendId = true ∧ t.isl.mseq = 0 ∧ t.isl.queue = [] ∧
        t.isl.sent = count s.selm.taken ∧
        t.isl.nextRec = i.rnum + 1 ∧ t.isl.nextLog = i.lseq + 1 ∧
        (∀ r, r ∈ t.isl.replayRecs ↔ r ∈ i.recNums ∧ i.sec - i.replaySpan ≤ recTend ((i.readRec r).getD []) ∧
          recTend ((i.readRec r).getD []) ≤ i.sec) ∧
        ∀ n, n ∈ t.isl.replayLogs ↔ n ∈ i.logNums ∧ i.sec - i.replaySpan ≤ leNat ((((i.readLog n).getD []).drop 8).take 8) ∧
          leNat ((((i.readLog n).getD []).drop 8).take 8) ≤ i.sec) ∧
    (i.running = false ∨ i.ready = true ∨ s.selm.fell = true ∨ s.flag st Fld.SELM_MSTAT_READY = false → exec .readyRise s = .next s) ∧
    (s.selm.fell = true → exec .readyFall s =
      .next { s with isl := { i with ready := false, queue := [], sent := count s.selm.taken }, selm := { s.selm with fell := false, writing := false } }) ∧
    (s.selm.fell = false → exec .readyFall s = .next s) ∧
    (i.running = false ∨ i.ready = false ∨ 8 ≤ queued → exec .mailboxSend s = .next s) ∧
    (i.running = true → i.ready = true → queued < 8 →
      let sent (kind : Nat) (p : List Byte) (j : Island) : Prop := j.queue = i.queue ++ [i.message kind false p] ∧ j.sent = i.sent + 1 ∧
        j.mseq = i.mseq + 1
      (i.sendId = true → ∃ t, exec .mailboxSend s = .next t ∧ { t with isl := i } = s ∧ sent 4 i.identity t.isl ∧ t.isl.sendId = false) ∧
      (∀ p, i.sendId = false → i.status = some p → ∃ t, exec .mailboxSend s = .next t ∧ { t with isl := i } = s ∧ sent 3 p t.isl ∧
        t.isl.status = none) ∧
      (∀ r, i.sendId = false → i.status = none → i.replayRecs = [] → i.replayLogs = [] →
        (fromTo i.nextRec i.rnum).find? (fun r => (i.readRec r).isSome) = some r →
        ∃ t, exec .mailboxSend s = .next t ∧ { t with isl := i } = s ∧ sent 1 ((i.readRec r).getD []) t.isl ∧ t.isl.nextRec = r + 1)) ∧
    (i.queue = [] ∨ ¬ writes → exec .mailboxMessageWrite s = .next s) ∧
    (writes → i.queue ≠ [] → s.ringFull = true → s.flag st Fld.SELM_MSTAT_WAIT = false → ∃ t, exec .mailboxMessageWrite s = .next t ∧
      t.reg st = Fld.SELM_MSTAT_WAIT.put 1 (s.reg st) ∧ RegsAndEvents s t [st] [1286] ∧ OnlyRegs s t) ∧
    (∀ m l, writes → i.queue = m :: l → s.ringFull = false →
      let r := s.engineWrites .mailbox (s.flag ctl Fld.SELM_MCTL_COH) s.slotAddr m
      (r.1 = .done ∨ (∃ b, r.1 = .uncorrectable b) →
        exec .mailboxMessageWrite s = .next { r.2 with selm := { r.2.selm with writing := true } }) ∧
      (r.1 = .held → exec .mailboxMessageWrite s = .next r.2) ∧
      (∀ e b, r.1 = .refused e b → Sparse.rising r.2.dev = true → ∃ t, exec .mailboxMessageWrite s = .next t ∧ t.selm.stopped = true ∧
        t.flag st Fld.SELM_MSTAT_MERR = true ∧ t.reg Reg.SELM_EADRL = BitVec.ofNat 32 b ∧ t.isl = r.2.isl)) ∧
    (s.selm.writing = false ∨ i.queue = [] → exec .selmSlotLanded s = .next s) ∧
    (∀ m l, s.selm.writing = true → i.queue = m :: l → ∃ t, exec .selmSlotLanded s = .next t ∧ land t ∧ t.isl = { i with queue := l } ∧
      count t.selm.taken = count s.selm.taken + 1 ∧ t.selm = { s.selm with writing := false, taken := t.selm.taken } ∧ t.widx = (s.widx + 1) % s.ringSize % 4096 ∧
      t.reg Reg.SELM_MCNT = (if s.reg Reg.SELM_MCNT = 0xFFFFFFFF then 0xFFFFFFFF else s.reg Reg.SELM_MCNT + 1) ∧
      RegsAndEvents s t [Reg.SELM_WIDX, Reg.SELM_MCNT]
        (1280 :: (if m.getD 4 0 = 1 then [1281] else if m.getD 4 0 = 2 then [1282] else []))) ∧
    (en = false → data.getLsbD 31 = true → 4 ≤ szl → szl ≤ 12 → ∃ t, exec (.selmEnable who data) s = .next t ∧
      t.flag ctl Fld.SELM_MCTL_EN = true ∧ t.fld ctl Fld.SELM_MCTL_SZL = szl ∧ t.reg Reg.SELM_WIDX = 0 ∧ t.reg Reg.SELM_RIDX = 0 ∧
      t.reg st = Fld.SELM_MSTAT_READY.put 1 (s.reg st) ∧ t.selm = { s.selm with stopped := false } ∧ land t ∧
      RegsAndEvents s t [ctl, st, Reg.SELM_WIDX, Reg.SELM_RIDX] []) ∧
    (en = false → data.getLsbD 31 = true → szl < 4 ∨ 12 < szl → ∃ t, exec (.selmEnable who data) s = .next t ∧
      t.reg st = Fld.SELM_MSTAT_WIGN.put 1 (s.reg st) ∧ RegsAndEvents s t [st] [] ∧ OnlyRegs s t) ∧
    (en = true → data.getLsbD 31 = false → s.flag st Fld.SELM_MSTAT_READY = true → ∃ t, exec (.selmEnable who data) s = .next t ∧
      t.flag ctl Fld.SELM_MCTL_EN = false ∧ t.flag st Fld.SELM_MSTAT_READY = false ∧ t.flag st Fld.SELM_MSTAT_WAIT = false ∧
      t.selm = { s.selm with writing := false, fell := true } ∧ RegsAndEvents s t [ctl, st] [] ∧ land t) ∧
    (let link := s.flag st Fld.SELM_MSTAT_ILINK
     (link = i.running → exec .ilinkChange s = .next s) ∧
     (link ≠ i.running → ∃ t, exec .ilinkChange s = .next t ∧ t.flag st Fld.SELM_MSTAT_ILINK = i.running ∧ OnlyRegs s t ∧
       RegsAndEvents s t [st] [if i.running then 1284 else 1285])))

/-- The island's configuration port and its seal (R446 to R449): an unsealed island takes a parameter block into the next free one, makes
a key where it holds none, and opens its debug access; a sealed one refuses all three. SEAL counts a fuse and makes the island sealed; UNSEAL
with its ball held low counts a fuse, destroys the active key and marks the period. An island that does not run answers nothing. A log entry that
flash fails on is followed by a second one (log 45); the drawing of a key is the model's choice (log 16). -/
def Obligations.SealAndConfiguration : Prop :=
  ∀ (s : State) (block : List Byte) (low : Bool),
    let i := s.isl
    let sets (c : Instr) (p : Island → Prop) : Prop := ∃ t, exec c s = .next t ∧ { t with isl := i, free := s.free } = s ∧ p t.isl
    let refused (c : Instr) : Prop := exec c s = .next { s with isl := { i with reply := .refused } }
    let logged (j : Island) : Prop := j.lseq = i.lseq + (if Config.flashFails i.flashOps then 2 else 1)
    let cmds : List Instr := [.cfgReadIdentity, .cfgWriteParameters block, .cfgGenerateKey, .cfgDebugAccess, .seal, .unseal low]
    (i.running = false → ∀ c ∈ cmds, exec c s = .next s) ∧
    (i.running = true →
      exec .cfgReadIdentity s = .next { s with isl := { i with
        reply := .identity (i.otpBytes 0 0x40) i.seals ((List.range 4).map (fun k => i.pubKey k)) } } ∧
      (i.sealed = true → ∀ c ∈ ([.cfgWriteParameters block, .cfgGenerateKey, .cfgDebugAccess, .seal] : List Instr), refused c) ∧
      (∀ b, i.sealed = false → i.freeBlock = some b → sets (.cfgWriteParameters block) (fun j => j.reply = .accepted ∧ logged j ∧
        j.otpBytes (blockBase b) 384 = block.take 384 ++ List.replicate (384 - block.length) 0)) ∧
      (i.sealed = false → i.freeBlock = none → refused (.cfgWriteParameters block)) ∧
      (i.holdsKey i.activeSlot = true → refused .cfgGenerateKey) ∧
      (∀ k, i.sealed = false → i.holdsKey i.activeSlot = false → (List.range 4).find? (fun k => !i.slotUsed k) = some k →
        let d := (Config.randomKey s.free).toNat % (p256N - 1) + 1
        sets .cfgGenerateKey (fun j => j.reply = .accepted ∧ logged j ∧
          ((∀ a, a < 32 → i.otpAt (0x80 + 128 * k + a) = 0) → j.privKey k = beBytes 32 d))) ∧
      (i.sealed = false → sets .cfgDebugAccess (fun j => j = { i with debug := true, reply := .accepted })) ∧
      (i.params = none ∨ i.holdsKey i.activeSlot = false ∨ 8 ≤ i.seals → refused .seal) ∧
      (∀ a, i.sealed = false → i.params = some a → i.holdsKey i.activeSlot = true → i.seals < 8 → sets .seal (fun j => j.reply = .accepted ∧
        j.sealed = true ∧ j.seals = i.seals + 1 ∧ j.debug = false ∧ logged j)) ∧
      (i.sealed = false ∨ low = false → refused (.unseal low)) ∧
      (i.sealed = true → low = true → sets (.unseal low) (fun j => j.reply = .accepted ∧ j.sealed = false ∧ j.seals = i.seals + 1 ∧
        j.holdsKey i.activeSlot = false ∧ j.period.unsealed = true ∧ (∀ c ∈ j.closed, c.period.unsealed = true) ∧ j.closed.length = i.closed.length ∧
        logged j)))

/-- Timer units (R451 to R455, R458, R459): a tick counts below the period and reloads at it; a compare channel that the count has reached fires
once; an edge of the ball records the count or the time; the signals of a master reset, clock or start its slaves at the pc edge after, and
its level gates them; a unit whose owner is halted
freezes, and takes no tick that passed in the freeze when it ends (log 67); a tick of the edge of a reset is dropped, a
signal waits for the compares of the edge before, and a level that the ball does not show is no event (log 50). Device time is what the
follower copy of the peripheral domain shows (R28), whose difference from the master the spec leaves open within its bound (log 11).

The registers of a timer unit (R452, R454, R456, R457): a write of a low half takes the staged high half with it; a read of a low half
latches the high half for its reader, and a captured value's clears CAPPEND; a write that sets EN arms the compare channels above the
count and starts the prescaler; a compare value or a compare mode written at or below the count fires. -/
def Obligations.TimerUnits : Prop :=
  (∀ (s : State) (u : Fin 32), s.wf →
    let x := s.unit u
    let st := Reg.TMR_STAT u
    let compare (c : Fin 4) : Bool := s.chMode u c == 1
    let tick : Prop := s.canTick u = true ∧ s.sourceTick u = true
    let after : Tmr := { x with due := x.due + s.tickFc u, quot := s.quotient u }
    let ev (k : Nat) : List Nat := if (s.reg (Reg.TMR_IEN u)).getLsbD k then [1008 + 6 * u.val + k] else []
    let slaves (g : Nat) : List (Nat × Nat × Nat) := ((List.finRange 32).filter (fun (v : Fin 32) => s.fld (Reg.TMR_TRIG v) Fld.TMR_TRIG_SRC == u.val &&
      s.fld (Reg.TMR_TRIG v) Fld.TMR_TRIG_SIG == g && 2 ≤ s.trigMode v)).map (fun v => (v.val, s.trigMode v, s.fc / 3))
    let others (t : State) : Prop := ∀ v, v ≠ u → t.unit v = s.unit v
    let rest (t : State) : Prop := { t with dev := s.dev, evc := s.evc, tmr := s.tmr, tmrX := s.tmrX, pins := s.pins, sys := s.sys } = s ∧
      { t.sys with wakes := s.sys.wakes } = s.sys ∧ (s.sys.standby = 0 → t.sys = s.sys)
    let woken (t : State) (on : Bool) : Prop := t.sys =
      if on = true ∧ s.sys.standby ≠ 0 ∧ s.sys.blind ≤ s.fc then { s.sys with wakes := s.sys.wakes ||| BitVec.ofNat 18 (2 ^ 16) } else s.sys
    let ien (k : Nat) : Bool := (s.reg (Reg.TMR_IEN u)).getLsbD k
    let due (m : Nat) : Prop := s.fc / 3 ≠ 0 ∧ (u.val, m, s.fc / 3 - 1) ∈ s.tmrX.signals
    let started (y z : Tmr) : Prop := z.cnt = 0 ∧ z.per = y.per ∧ z.cmp = y.cmp ∧ z.due = y.due ∧ ∀ c, z.armed[c.val] = compare c ∧
      z.out[c.val] = if compare c && s.chOut u c == 4 then true else if compare c && s.chOut u c == 5 then false else y.out[c.val]
    let reloads (y : Tmr) (sig : List (Nat × Nat × Nat)) (t : State) : Prop := started y (t.unit u) ∧ t.reg st = Fld.TMR_STAT_PERF.put 1 (s.reg st) ∧
      t.tmrX.signals = sig ++ slaves 4 ∧ others t ∧ rest t ∧ woken t (ien 4) ∧ RegsAndEvents s t [st] (ev 4)
    let clocked (t : State) : Prop := if s.fld (Reg.TMR_CTL u) Fld.TMR_CTL_CLKSEL = 1 then
        t.pins.inputs.getLsbD (128 + u.val) = s.inLevel (128 + u.val) ∧ t.pins = { s.pins with inputs := t.pins.inputs }
      else t.pins = s.pins
    (s.fld (Reg.TMR_CTL u) Fld.TMR_CTL_CLKSEL = 1 → s.sourceTick u = true →
      let old := s.pins.inputs.getLsbD (128 + u.val)
      let new := s.inLevel (128 + u.val)
      match s.fld (Reg.TMR_CTL u) Fld.TMR_CTL_EDGE with
      | 0 => old = false ∧ new = true
      | 1 => old = true ∧ new = false
      | _ => old ≠ new) ∧
    (¬ tick ∨ x.per ≤ x.cnt → exec (.timerTick u) s = .next s) ∧
    (tick → x.cnt < x.per → s.fld (Reg.TMR_CTL u) Fld.TMR_CTL_CLKSEL ≠ 1 →
      exec (.timerTick u) s = .next (s.setUnit u { after with cnt := x.cnt + 1 })) ∧
    (tick → x.cnt < x.per → ∃ t, exec (.timerTick u) s = .next t ∧ t.unit u = { after with cnt := x.cnt + 1 } ∧ others t ∧ rest t ∧
      t.tmrX = s.tmrX ∧ RegsAndEvents s t [] [] ∧ clocked t) ∧
    (¬ tick ∨ x.cnt < x.per → exec (.timerReload u) s = .next s) ∧
    (tick → x.per ≤ x.cnt → ∃ t, exec (.timerReload u) s = .next t ∧ reloads after s.tmrX.signals t ∧ clocked t) ∧
    (∀ c : Fin 4,
      let fires : Prop := s.ticks u = true ∧ compare c = true ∧ x.armed[c] = true ∧ x.cmp[c] ≤ x.cnt
      (¬ fires → exec (.compareFire u c) s = .next s) ∧
      (fires → ∃ t, exec (.compareFire u c) s = .next t ∧ others t ∧ rest t ∧ woken t (ien c) ∧ RegsAndEvents s t [st] (ev c) ∧
        t.reg st = Fld.TMR_STAT_CHF.put (s.fld st Fld.TMR_STAT_CHF ||| 2 ^ c.val) (s.reg st) ∧ t.tmrX.signals = s.tmrX.signals ++ slaves c ∧
        t.unit u = { x with armed := x.armed.set c false, out := x.out.set c (match s.chOut u c with
          | 1 => true | 2 => false | 3 => !x.out[c] | 4 => false | 5 => true | _ => x.out[c]) })) ∧
    (∀ (c : Fin 4) (level : Bool), s.inLevel (4 * u.val + c.val) ≠ level → exec (.capture u c level) s = .next s) ∧
    (∀ c : Fin 4,
      let level := s.inLevel (4 * u.val + c.val)
      let w := s.cctl u c
      let old := s.pins.inputs.getLsbD (4 * u.val + c.val)
      let edge : Prop := match Fld.TMR_CCTL_CEDGE.get w with
        | 0 => old = false ∧ level = true
        | 1 => old = true ∧ level = false
        | _ => old ≠ level
      let takes : Prop := edge ∧ s.chMode u c = 2 ∧ s.frozen u = false
      let again := (s.fld st Fld.TMR_STAT_CAPPEND).testBit c
      let mark (f : Fld) (v : Word) : Word := f.put (s.fld st f ||| 2 ^ c.val) v
      let taken := mark Fld.TMR_STAT_CHF (mark Fld.TMR_STAT_CAPPEND (s.reg st))
      ∃ t, exec (.capture u c level) s = .next t ∧ t.pins.inputs.getLsbD (4 * u.val + c.val) = level ∧ rest t ∧
        (¬ takes → t.sys = s.sys ∧ t.tmr = s.tmr ∧ t.tmrX = s.tmrX ∧ RegsAndEvents s t [] []) ∧
        (takes → others t ∧ woken t (ien c || (again && ien 5)) ∧ t.unit u = { x with cap := x.cap.set c (if Fld.TMR_CCTL_CVAL.get w = 1 then (s.unitTime + 2 ^ 64 - 8) % 2 ^ 48 else x.cnt) } ∧
          t.tmrX.signals = s.tmrX.signals ++ slaves c ∧ t.reg st = (if again then mark Fld.TMR_STAT_COVR taken else taken) ∧
          RegsAndEvents s t [st] (ev c ++ if again then ev 5 else []))) ∧
    (∀ m, ¬ due m → (m = 2 → exec (.triggerReset u) s = .next s) ∧ (m = 3 → exec (.triggerClock u) s = .next s) ∧
      (m = 4 → exec (.triggerStart u) s = .next s)) ∧
    (s.ticks u = true → s.canTick u = false → exec (.triggerReset u) s = .next s ∧ exec (.triggerClock u) s = .next s) ∧
    (due 2 → ¬ (s.ticks u = true ∧ s.canTick u = false) → ∃ t, exec (.triggerReset u) s = .next t ∧
      t.tmrX.signals = s.tmrX.signals.erase (u.val, 2, s.fc / 3 - 1) ∧ others t ∧
      rest t ∧ RegsAndEvents s t [] [] ∧ (if s.ticks u = true ∧ s.trigMode u = 2 then
        started (if s.sourceTick u then after else x) (t.unit u) else t.unit u = x)) ∧
    (due 3 → s.canTick u = true → s.trigMode u = 3 →
      (x.cnt < x.per → ∃ t, exec (.triggerClock u) s = .next t ∧ t.unit u = { x with cnt := x.cnt + 1 } ∧ others t ∧ rest t ∧
        RegsAndEvents s t [] []) ∧
      (x.per ≤ x.cnt → ∃ t, exec (.triggerClock u) s = .next t ∧ reloads x (s.tmrX.signals.erase (u.val, 3, s.fc / 3 - 1)) t)) ∧
    (due 4 → s.frozen u = false → s.trigMode u = 4 →
      s.flag (Reg.TMR_CTL u) Fld.TMR_CTL_EN = false →
      ∃ t, exec (.triggerStart u) s = .next t ∧ t.flag (Reg.TMR_CTL u) Fld.TMR_CTL_EN = true ∧ (t.unit u).cnt = x.cnt ∧
        (t.unit u).due = s.fc + s.tickFc u ∧ ∀ c : Fin 4, (t.unit u).armed[c] = (compare c && decide (x.cnt < x.cmp[c]))) ∧
    (let g := s.gateSignal u
     (s.trigMode u ≠ 1 ∨ s.frozen u = true ∨ x.gate = g → exec (.triggerGate u) s = .next s) ∧
     (s.trigMode u = 1 → s.frozen u = false → x.gate ≠ g → exec (.triggerGate u) s = .next (s.setUnit u
       (if g then { x with gate := true, due := s.fc + x.left.getD (s.tickFc u), left := none, quot := after.quot }
        else { x with gate := false, left := some (x.due - s.fc) })))) ∧
    (let own : Ctx := Fin.ofNat 128 (s.fld (Reg.TMR_OWN u) Fld.TMR_OWN_CTX)
     let want : Bool := s.flag (Reg.TMR_CTL u) Fld.TMR_CTL_FRZ && (s.ctx own).run == .halted
     ∃ t, exec (.debugFreeze u) s = .next t ∧ t.sys = s.sys ∧ t.frozen u = want ∧ others t ∧ rest t ∧ t.tmrX = s.tmrX ∧
       RegsAndEvents s t [st] [] ∧
       (if s.frozen u = true ∧ want = false then
         ∃ k, t.unit u = { x with due := x.due + k * s.tickFc u, quot := after.quot } ∧ s.fc < x.due + k * s.tickFc u ∧
           (s.fc < x.due → k = 0) ∧ (x.due ≤ s.fc → x.due + k * s.tickFc u ≤ s.fc + s.tickFc u)
        else t.unit u = x))) ∧
  (∀ (s : State) (who : Who) (u : Fin 32) (data : Word), s.wf →
    let x := s.unit u
    let st := Reg.TMR_STAT u
    let n := data.toNat
    let hits (t : State) (c : Fin 4) : Prop := (t.unit u).armed[c] = false ∧ (t.fld st Fld.TMR_STAT_CHF).testBit c = true
    let quiet (c : Fin 4) : Prop := ∀ d, d ≠ c → s.firing u d = false
    exec (.cntlWrite who u data) s = .next (s.setUnit u { x with
      cnt := n + x.stCnt * 2 ^ 32
      armed := Vector.ofFn (fun c => s.chMode u c == 1 && n + x.stCnt * 2 ^ 32 < x.cmp[c]) }) ∧
    exec (.perlWrite who u data) s = .next (s.setUnit u { x with per := n + x.stPer * 2 ^ 32 }) ∧
    (∃ t, exec (.cntlRead who u) s = .next t ∧ Sparse.get who.id t.fab.resp = some (.data (leBytes 4 x.cnt)) ∧ t.dev = s.dev ∧ t.tmr = s.tmr ∧
      t.readTmr who (Reg.TMR_CNTH u) 0 = t.respondWord who (BitVec.ofNat 32 (x.cnt / 2 ^ 32))) ∧
    (∀ c : Fin 4, ∃ t, exec (.caplRead who u c) s = .next t ∧ Sparse.get who.id t.fab.resp = some (.data (leBytes 4 x.cap[c])) ∧ t.tmr = s.tmr ∧
      RegsAndEvents s t [st] [] ∧ t.fld st Fld.TMR_STAT_CHF = s.fld st Fld.TMR_STAT_CHF ∧
      (∀ k, k < 4 → (t.fld st Fld.TMR_STAT_CAPPEND).testBit k = ((s.fld st Fld.TMR_STAT_CAPPEND).testBit k && k != c.val)) ∧
      t.readTmr who (Reg.TMR_CAPH u c) 0 = t.respondWord who (BitVec.ofNat 32 (x.cap[c] / 2 ^ 32))) ∧
    (let a := Reg.TMR_CTL u
     let v := s.plainWrite a data 0
     (s.flag a Fld.TMR_CTL_EN = false → data.getLsbD 31 = true → s.frozen u = false → ∃ t, exec (.timerEnable who u data) s = .next t ∧
       t.reg a = v.reg a ∧ t.flag a Fld.TMR_CTL_EN = true ∧ (t.unit u).cnt = x.cnt ∧
       (t.unit u).due = s.fc + 3 * (data.toNat % 256 + 1) ∧ (∀ k, k ≠ u → t.unit k = s.unit k) ∧
       ∀ c : Fin 4, (t.unit u).armed[c] = (s.chMode u c == 1 && decide (x.cnt < x.cmp[c])) ∧
         (s.chMode u c = 1 → x.cmp[c] ≤ x.cnt → (t.fld st Fld.TMR_STAT_CHF).testBit c = true)) ∧
     (s.flag a Fld.TMR_CTL_EN = true → Fld.TMR_CTL_CLKSEL.get (v.reg a) = s.fld a Fld.TMR_CTL_CLKSEL →
       Fld.TMR_CTL_PRE.get (v.reg a) = s.fld a Fld.TMR_CTL_PRE → exec (.timerEnable who u data) s = .next v)) ∧
    (∀ c : Fin 4, quiet c → ∃ t, exec (.cmplWrite who u c data) s = .next t ∧ RegsAndEvents s t [st]
        (if s.ticks u = true ∧ (s.chMode u c = 1 ∧ n + x.stCmp[c] * 2 ^ 32 ≤ x.cnt) ∧ (s.reg (Reg.TMR_IEN u)).getLsbD c = true
         then [1008 + 6 * u.val + c.val] else []) ∧
      (t.unit u).cmp = x.cmp.set c (n + x.stCmp[c] * 2 ^ 32) ∧ (t.unit u).cnt = x.cnt ∧
      (s.chMode u c = 1 → s.ticks u = true → n + x.stCmp[c] * 2 ^ 32 ≤ x.cnt → hits t c) ∧
      (s.chMode u c = 1 → x.cnt < n + x.stCmp[c] * 2 ^ 32 → (t.unit u).armed[c] = true)) ∧
    (∀ c : Fin 4, quiet c →
      let a := Reg.TMR_CCTL u c
      let v := s.plainWrite a data 0
      (data.toNat % 4 ≠ 1 ∨ s.chMode u c = 1 → exec (.cctlModeWrite who u c data) s = .next v) ∧
      (data.toNat % 4 = 1 → s.chMode u c ≠ 1 → ∃ t, exec (.cctlModeWrite who u c data) s = .next t ∧ t.reg a = v.reg a ∧ t.chMode u c = 1 ∧
        (x.cnt < x.cmp[c] ∨ s.ticks u = false → (t.unit u).armed[c] = true ∧ (t.unit u).out[c] = false) ∧
        (s.ticks u = true → x.cmp[c] ≤ x.cnt → hits t c))))

/-- Pins (R462 to R468): a write to DSET, DCLR or DTGL sets, clears or toggles bits of DOUT; a write that moves a pin's drive takes effect, but
for the private port of core 15 in lockstep; a new input selection takes the new pin's level as the last one, and one that names no pin reads
0; a level that the ball shows, that the line's filter passes and that meets its trigger sets its bit and raises its event; a line that is set up anew
starts from its pin's level. A level that the ball does not show, or that the filter has not passed, is no occurrence (log 52). -/
def Obligations.PinsAndLines : Prop :=
  ∀ (s : State) (who : Who) (data : Word), s.wf →
    (∀ p : Fin 5,
      let a := Reg.PIN_DOUT p
      let writes (c : Instr) (v : Word) : Prop := ∃ t, exec c s = .next t ∧ t.reg a = v ∧ RegsAndEvents s t [a] [] ∧ OnlyRegs s t
      writes (.pinDset who p data) (s.reg a ||| data) ∧ writes (.pinDclr who p data) (s.reg a &&& ~~~data) ∧
      writes (.pinDtgl who p data) (s.reg a ^^^ data)) ∧
    (∀ a, driveReg a = false → exec (.pinDriveChange who a data) s = .next s) ∧
    (∀ a, driveReg a = true →
      (s.lockstep = true → a = Reg.PIN_PPCTL 15 ∨ a = Reg.PIN_PPMSK 15 → exec (.pinDriveChange who a data) s = .next s) ∧
      (s.lockstep = false ∨ (a ≠ Reg.PIN_PPCTL 15 ∧ a ≠ Reg.PIN_PPMSK 15) → exec (.pinDriveChange who a data) s = .next (s.plainWrite a data 0))) ∧
    (∀ g : Fin 168,
      let a := Reg.PIN_ISEL g
      let v := s.plainWrite a data 0
      (v.reg a = s.reg a → exec (.iselWrite who g data) s = .next v) ∧
      (v.reg a ≠ s.reg a → ∃ t, exec (.iselWrite who g data) s = .next t ∧ t.reg a = v.reg a ∧ { t with pins := s.pins } = v ∧
        t.pins.inputs.getLsbD g = v.inLevel g ∧ ∀ k, k ≠ g.val → k < 168 → t.pins.inputs.getLsbD k = s.pins.inputs.getLsbD k)) ∧
    (∀ (n : Fin 16) (level : Bool),
      let a := Reg.PIN_IRQCFG n
      let old := s.pins.filtered.getLsbD n
      let ball := s.ballLevel (32 * s.fld a Fld.PIN_IRQCFG_PORT + n.val)
      let new := if ball ≠ old ∧ s.fld a Fld.PIN_IRQCFG_FILT ≤ s.pins.held[n] then ball else old
      let trig := s.fld a Fld.PIN_IRQCFG_TRIG
      let meets : Prop := s.flag a Fld.PIN_IRQCFG_EN = true ∧ new = level ∧ (match trig with
        | 0 => old = false ∧ level = true
        | 1 => old = true ∧ level = false
        | 2 => old ≠ level
        | 3 => level = true
        | _ => level = false)
      (¬ meets → exec (.pinIrqOccurrence n level) s = .next s) ∧
      (meets → ∃ t, exec (.pinIrqOccurrence n level) s = .next t ∧ t.pins.filtered.getLsbD n = level ∧
        (∀ k : Fin 16, k ≠ n → t.pins.filtered.getLsbD k = s.pins.filtered.getLsbD k ∧ t.pins.held[k] = s.pins.held[k]) ∧
        (old ≠ level → t.pins.held[n] = 0) ∧
        { t with dev := s.dev, evc := s.evc, pins := s.pins, sys := s.sys } = s ∧
        t.sys = (if trig ≤ 2 ∧ s.sys.standby ≠ 0 ∧ s.sys.blind ≤ s.fc then
          { s.sys with wakes := s.sys.wakes ||| BitVec.ofNat 18 (2 ^ n.val) } else s.sys) ∧
        t.reg Reg.PIN_IRQSTAT = s.reg Reg.PIN_IRQSTAT ||| BitVec.ofNat 32 (2 ^ n.val) ∧
        RegsAndEvents s t [Reg.PIN_IRQSTAT] [1200 + n.val])) ∧
    (∀ n : Fin 16,
      let a := Reg.PIN_IRQCFG n
      let v := s.plainWrite a data 0
      let keeps : Prop := v.reg a = s.reg a ∨ v.reg a = (s.reg a).and 0x7FFFFFFF
      (keeps → exec (.irqcfgWrite who n data) s = .next v) ∧
      (¬ keeps → ∃ t, exec (.irqcfgWrite who n data) s = .next t ∧ { t with pins := s.pins } = v ∧
        t.pins.filtered.getLsbD n = v.ballLevel (v.irqPin n) ∧ t.pins.held[n] = 0 ∧ t.pins.inputs = s.pins.inputs)) ∧
    (∀ g : Fin 168, 160 ≤ s.fld (Reg.PIN_ISEL g) Fld.PIN_ISEL_PIN → s.inLevel g = false) ∧
    (∀ p, p < 160 → s.pinsReset = false → s.fld (Reg.PIN_CFG p) Fld.PIN_CFG_MODE = 0 →
      let out := (s.reg (Reg.PIN_DOUT (p / 32))).getLsbD (p % 32)
      let enable := (s.reg (Reg.PIN_OE (p / 32))).getLsbD (p % 32)
      s.pinDrive p = if enable = false then none
        else if s.flag (Reg.PIN_CFG p) Fld.PIN_CFG_OD = true ∧ out = true then none else some out)

/-- Balls (R502, R503, R506, R514): each general-purpose pin lies on its one ball of rows A to C or of columns 1 and 2, each signal of a
DDR channel on the ball that its number gives, and the array has 41 × 41 balls; while a reset is held a pin drives nothing and reads low
where nothing drives it; a quad's voltage code after reset is that of TARGET 2. -/
def Obligations.BallsAndTheirReset : Prop :=
  (∀ (port : Fin 5) (i : Fin 32) (p : Fin 160), p.val = 32 * port.val + i.val → ∀ k col : Nat,
    (ball k col = some (.pin p) ↔ if port.val < 3 then k = port.val + 1 ∧ col = 5 + i.val else k = 5 + i.val ∧ col = port.val - 2)) ∧
  (∀ (ch : Fin 4) (n : Fin 129) (k col : Nat), ball k col = some (.ddr ch n) ↔ k = 38 - 4 * ch.val + n.val / 33 ∧ col = 5 + n.val % 33) ∧
  (∀ k col : Nat, (ball k col).isSome = true ↔ 1 ≤ k ∧ k ≤ 41 ∧ 1 ≤ col ∧ col ≤ 41) ∧
  (∀ (s : State) (p : Nat), s.pinsReset = true → s.pinDrive p = none ∧ (s.pins.outside.getD p none = none → s.ballLevel p = false) ∧
    ∀ v, s.pins.outside.getD p none = some v → s.ballLevel p = v) ∧
  (∀ (q : Fin 4) (j : Fin 3), State.reset.qvidLevel q j = (j.val == 1))

/-- Block power, and the voltage and frequency of quads (R474 to R479): a block that may go off and is not busy goes off and loses what it held
(log 53), and one that is off comes up with its registers at their reset values; a request against a change or a busy block is refused; the end of
a change raises its event; a display pipe's pixel PLL goes off with it. A faster point raises the voltage, waits, changes assist and bias for
750 fc and then the frequency; a slower one lowers the frequency first, then assist and bias, then the voltage; the divider changes at a
wheel position 0 after the crossing; a TARGET written meanwhile is staged, and a power fault stops the sequencer (log 48). That these steps
are commands, and where they lie in time, is the model's choice (log 53). -/
def Obligations.PowerAndVoltage : Prop :=
  ∀ (s : State) (who : Who), s.wf →
    (∀ b : Block,
      let i := b.index
      let bp := Reg.SYS_BPSTAT
      let pipe : Prop := 7 ≤ i ∧ i ≤ 10
      let off := (s.reg Reg.SYS_BPWR).getLsbD i
      let changing := s.sys.changes.any (fun c => c.1 == i)
      let refused (c : Instr) : Prop := ∃ t, exec c s = .next t ∧ t.reg bp = Fld.SYS_BPSTAT_REF.put 1 (s.reg bp) ∧
        RegsAndEvents s t [bp] [1307] ∧ OnlyRegs s t
      (canPowerOff i = false ∨ off = true → exec (.blockPowerOff who b) s = .next s) ∧
      (canPowerOff i = false ∨ off = false → exec (.blockPowerOn who b) s = .next s) ∧
      (canPowerOff i = true → off = false → changing = true ∨ s.powerBusy i = true → refused (.blockPowerOff who b)) ∧
      (canPowerOff i = true → off = true → changing = true → refused (.blockPowerOn who b)) ∧
      (canPowerOff i = true → off = false → changing = false → s.powerBusy i = false → ∃ t, exec (.blockPowerOff who b) s = .next t ∧
        t.reg Reg.SYS_BPWR = s.reg Reg.SYS_BPWR ||| BitVec.ofNat 32 (2 ^ i) ∧ t.reg bp = s.reg bp ||| BitVec.ofNat 32 (2 ^ i) ∧
        t.sys = { s.sys with changes := s.sys.changes ++ [(i, true)] } ∧ RegsAndEvents s t [Reg.SYS_BPWR, bp] [] ∧
        { t with dev := s.dev, sys := s.sys } = s) ∧
      (canPowerOff i = true → off = true → changing = false → ∃ t, exec (.blockPowerOn who b) s = .next t ∧
        (t.reg Reg.SYS_BPWR).getLsbD i = false ∧ (t.reg bp).getLsbD i = true ∧ t.sys = { s.sys with changes := s.sys.changes ++ [(i, false)] } ∧
        (b ≠ .prs → t.ctxs = s.ctxs ∧ t.quads = s.quads) ∧
        ∀ a, b.base ≤ a → a < b.base + 0x100000 → lockOf a ≠ some a → t.reg a = RegMap.reset a) ∧
      (changing = false → exec (.blockPowerChangeDone b) s = .next s) ∧
      (∀ o, s.sys.changes = [(i, o)] → ∃ t, exec (.blockPowerChangeDone b) s = .next t ∧ t.sys = { s.sys with changes := [], clocks := t.sys.clocks } ∧
        (o = false ∨ ¬ pipe → t.sys.clocks = s.sys.clocks) ∧
        (o = true → (let v := ({ s with sys := { s.sys with changes := [] } } : State).blockReset b
            t.fab = v.fab ∧ RegsAndEvents v t (if pipe then [Reg.SYS_PXCTL (i - 7)] else []) [1306]) ∧
          (pipe → t.flag (Reg.SYS_PXCTL (i - 7)) Fld.SYS_PXCTL_LOCK = false ∧ t.sys.clocks.getLsbD i = false) ∧ (canPowerOff i = true →
          ∀ a, b.base ≤ a → a < b.base + 0x100000 → lockOf a ≠ some a → t.reg a = RegMap.reset a)) ∧
        (o = false → (t.reg bp).getLsbD i = false ∧ RegsAndEvents s t [bp] [1306] ∧ (b = .spl ∨ b = .seam → b ∈ t.fab.clearing)))) ∧
    (∀ (q : Fin 4) (data : Word) (good : Bool),
      let a := Reg.SYS_QDVFS q
      let x := s.quad q
      let v := s.plainWrite a data 0
      let k := Fld.SYS_QDVFS_TARGET.get data
      let asks (y : Quad) (w : Word) : Prop := ∃ t, exec (.dvfsRequest who q data) s = .next t ∧ t.quad q = y ∧ t.reg a = w ∧
        RegsAndEvents s t [a] [] ∧ ∀ p, p ≠ q → t.quad p = s.quad p
      let busy := Fld.SYS_QDVFS_BUSY.put 1 (v.reg a)
      let ends (c : Instr) (y : Quad) (n : Nat) : Prop := ∃ t, exec c s = .next t ∧ t.quad q = { y with point := n, dvfs := .idle } ∧
        t.reg a = Fld.SYS_QDVFS_PEND.put 0 (Fld.SYS_QDVFS_BUSY.put 0 (Fld.SYS_QDVFS_CUR.put n (s.reg a))) ∧
        RegsAndEvents s t [a] [1298 + q.val]
      (x.dvfs ≠ .idle → asks { x with pendTarget := some k } (Fld.SYS_QDVFS_PEND.put 1 (v.reg a))) ∧
      let crossed := x.cycles + (ccRate x.point + 14) / 15 + 2
      let here := (s.positionZero q x.cross).isSome
      (x.dvfs = .idle → k < x.point → asks { x with qvid := BitVec.ofNat 3 k, dvfs := .settling k true } busy) ∧
      (x.dvfs = .idle → x.point < k → asks { x with dvfs := .divider k false, cross := crossed } busy) ∧
      (x.dvfs = .idle → k = x.point → k = Fld.SYS_QDVFS_CUR.get (v.reg a) → k = x.qvid.toNat → exec (.dvfsRequest who q data) s = .next v) ∧
      (x.dvfs = .idle → k = x.point → k ≠ Fld.SYS_QDVFS_CUR.get (v.reg a) ∨ k ≠ x.qvid.toNat →
        asks { x with qvid := BitVec.ofNat 3 k, dvfs := .settling k false } busy) ∧
      (here = true → s.sys.clocks.getLsbD (2 + q.val) = true ∧ ∃ c, x.cross ≤ c ∧ c % 16 = 0) ∧
      (∀ c, s.sys.clocks.getLsbD (2 + q.val) = true → x.cross ≤ c → c % 16 = 0 → c ≤ x.cycles → x.cycles < c + x.span → here = true) ∧
      (here = false → exec (.dvfsDividerChange q) s = .next s) ∧
      (∀ n, here = true → x.dvfs = .divider n false → exec (.dvfsDividerChange q) s =
        .next (s.setQuad q { x with point := n, dvfs := .biasing n false (s.fc + 750) })) ∧
      (∀ n, here = true → x.dvfs = .divider n true → x.pendTarget = none → ends (.dvfsDividerChange q) x n) ∧
      (∀ n up d, x.dvfs = .biasing n up d → (s.fc < d → s.biasTick q = s) ∧ (d ≤ s.fc → s.biasTick q = s.setQuad q
        (if up then { x with assist := n, dvfs := .divider n true, cross := crossed }
         else { x with assist := n, qvid := BitVec.ofNat 3 n, dvfs := .settling n false }))) ∧
      (x.dvfs = .idle → exec (.dvfsDividerChange q) s = .next s ∧ exec (.dvfsFault q) s = .next s ∧
        exec (.dvfsSettleEnd q good) s = .next (if s.sys.waking.isSome then s.setQuad q { x with qpg := good } else s)) ∧
      (∀ n, x.dvfs = .settling n false → good = true → x.pendTarget = none → x.point = n → ends (.dvfsSettleEnd q good) { x with qpg := true } n) ∧
      (∀ n, x.dvfs = .settling n false → good = false → exec (.dvfsSettleEnd q good) s = .next (s.setQuad q { x with qpg := false })) ∧
      (∀ n, x.dvfs = .settling n true → exec (.dvfsSettleEnd q good) s =
        .next (s.setQuad q (if good then { x with qpg := true, dvfs := .biasing n true (s.fc + 750) } else { x with qpg := false }))) ∧
      (∀ n up, x.dvfs = .settling n up → ∃ t, exec (.dvfsFault q) s = .next t ∧
        t.quad q = { x with dvfs := .idle, pendTarget := none, qpg := false } ∧ RegsAndEvents s t [a] [1302 + q.val] ∧
        t.reg a = Fld.SYS_QDVFS_PEND.put 0 (Fld.SYS_QDVFS_BUSY.put 0 (Fld.SYS_QDVFS_ERR.put 1 (s.reg a)))))

/-- Standby (R255, R480 to R485): an armed device whose contexts are all Asleep or Off is refused with the cause of what stands against it,
or goes down: the event controller is saved and suspended, the quads' clocks run on to a wheel position 0 and stop at the voltage code 4. An
enabled source that has occurred, or holds, wakes it; the quads' voltages come back, and once each QPG has been read high the wake completes:
the quads have their clocks again, the controller is restored, and the source is shown. Which steps an entry completes, and when each
command of the wake falls, is the model's choice (log 53). -/
def Obligations.StandbyAndWake : Prop :=
  ∀ (s : State) (who : Who) (data : Word) (steps : Fin 6) (src : Fin 18), s.wf →
    let sb := Reg.SYS_STBY
    let go : Prop := s.flag sb Fld.SYS_STBY_GO = true ∧ s.sys.standby = 0 ∧ ∀ c, (s.ctx c).run = .asleep ∨ (s.ctx c).run = .off
    let down : Word := Fld.SYS_STBY_GO.put 0 (s.reg sb)
    let cause : Option Nat :=
      if s.fld Reg.PRS_STAT Fld.PRS_STAT_STATE ≠ 0 then some 1
      else if ∃ n : Fin 64, s.fld (Reg.SHU_STAT n) Fld.SHU_STAT_STATE ≠ 0 ∧ s.fld (Reg.SHU_STAT n) Fld.SHU_STAT_STATE ≠ 3 then some 2
      else if s.flag Reg.SPL_CTRL Fld.SPL_CTRL_RUN = true ∨ s.flag Reg.SPL_STAT Fld.SPL_STAT_LPEND = true then some 3
      else if s.flag Reg.SEAM_CTRL Fld.SEAM_CTRL_EN = true then some 4
      else if ∃ p : Fin 4, s.flag (Reg.DP_STAT p) Fld.DP_STAT_RUN = true then some 5
      else if s.sys.changes ≠ [] ∨ ∃ q, (s.quad q).dvfs ≠ .idle then some 6
      else none
    let trig := s.fld (Reg.PIN_IRQCFG src) Fld.PIN_IRQCFG_TRIG
    let line := s.pins.filtered.getLsbD src
    let waits : Prop := (∃ r ∈ s.fab.port, s.portHeld r.addr = true) ∨ (∃ r ∈ s.fab.ring, s.portHeld r.2.1 = true) ∨
      ∃ x ∈ s.fab.accepted, s.portHeld x.2.1 = true
    let armed : Prop := (s.reg Reg.SYS_WAKEEN).getLsbD src = true ∧
      if src.val < 16 then s.flag (Reg.PIN_IRQCFG src) Fld.PIN_IRQCFG_EN = true ∧
        (if trig ≤ 2 then s.sys.wakes.getLsbD src = true else s.sys.blind ≤ s.fc ∧ line = (trig == 3))
      else if src.val = 16 then s.sys.wakes.getLsbD 16 = true else s.sys.blind ≤ s.fc ∧ waits
    (exec (.standbyArm who data) s = .next (s.plainWrite sb data 0)) ∧
    (¬ go → exec (.standbyEntry steps) s = .next s) ∧
    (∀ k, go → cause = some k → ∃ t, exec (.standbyEntry steps) s = .next t ∧ t.reg sb = down ∧
      t.reg Reg.SYS_STBYSTAT = Fld.SYS_STBYSTAT_CAUSE.put k (Fld.SYS_STBYSTAT_REF.put 1 (s.reg Reg.SYS_STBYSTAT)) ∧
      RegsAndEvents s t [sb, Reg.SYS_STBYSTAT] [1297] ∧ OnlyRegs s t) ∧
    (go → cause = none → ∃ t, exec (.standbyEntry steps) s = .next t ∧ t.sys.standby = steps.val + 1 ∧ t.sys.wakes = 0 ∧
      t.sys.blind = (if steps.val = 5 then s.fc + 18 else s.fc) ∧
      (steps.val < 2 → t.evc = { s.evc with suspended := true, saved := t.evc.saved } ∧ t.evc.saved.isSome = true ∧ t.reg sb = down ∧
        t.mem = s.mem ∧ t.ctxs = s.ctxs) ∧
      (steps.val = 1 → (∀ q, (t.quad q).qvid = 4 ∧ (s.sys.clocks.getLsbD (2 + q.val) = true → (t.quad q).cycles % 16 = 0 ∧
        (s.quad q).cycles ≤ (t.quad q).cycles ∧ (t.quad q).cycles < (s.quad q).cycles + 16)) ∧ ∀ q, q < 4 → t.sys.clocks.getLsbD (2 + q) = false) ∧
      (s.fab.targets = [] → t.evc.suspended = true ∧ t.ctxs = s.ctxs ∧ (1 ≤ steps.val → ∀ q, (t.quad q).qvid = 4) ∧
        (steps.val = 5 → ∀ n, 2 ≤ n → n < 14 → t.sys.clocks.getLsbD n = false) ∧
        (3 ≤ steps.val → ∀ b a, b < 32 → (s.reg Reg.SYS_FMRET).getLsbD b = false → 0x1000000 + 0x100000 * b ≤ a →
          a < 0x1100000 + 0x100000 * b → Memory.read t.mem a = 0))) ∧
    (0 < s.sys.standby → s.sys.waking = none → armed → ∃ t, exec (.wakeSource src) s = .next t ∧ { t with quads := s.quads } =
      { s with sys := { s.sys with waking := some src.val } } ∧ ∀ q, t.quad q = if 2 ≤ s.sys.standby then
        { s.quad q with qvid := BitVec.ofNat 3 (s.quad q).point, qpg := false } else s.quad q) ∧
    (s.sys.standby = 0 ∨ s.sys.waking ≠ none ∨ ¬ armed → exec (.wakeSource src) s = .next s) ∧
    (s.sys.waking = none ∨ (2 ≤ s.sys.standby ∧ ∃ q, (s.quad q).qpg = false) → exec .wakeComplete s = .next s) ∧
    (∀ n, s.sys.waking = some n → s.sys.standby < 2 ∨ (∀ q, (s.quad q).qpg = true) →
      let u := s.evcRestore
      ∃ t, exec .wakeComplete s = .next t ∧ t.sys.standby = 0 ∧ t.sys.waking = none ∧ t.sys.wakes = 0 ∧
        RegsAndEvents u t (Reg.SYS_WAKESRC :: [0, 1, 2, 3].map Reg.DP_STAT) [1296] ∧
        t.reg Reg.SYS_WAKESRC = Fld.SYS_WAKESRC_SRC.put n (Fld.SYS_WAKESRC_VALID.put 1 (s.reg Reg.SYS_WAKESRC)) ∧
        (∀ q, t.quad q = { s.quad q with assist := (s.quad q).point }) ∧ (∀ q, q < 4 → t.sys.clocks.getLsbD (2 + q) = true) ∧ t.mem = s.mem) ∧
    (∀ v, s.evc.saved = some v →
      let u := s.evcRestore
      u.evc.suspended = false ∧ u.evc.saved = none ∧ u.flag Reg.EVC_STAT Fld.EVC_STAT_RSTD = true ∧
      (∀ a, inEvc a → a ≠ Reg.EVC_STAT → u.reg a = (Sparse.get a v.regs).getD (RegMap.reset a)) ∧ ∀ a, ¬ inEvc a → u.reg a = s.reg a)

/-- Clocks (R486 to R488, R493): a PLL that locks starts its clock, a pixel PLL only while it is enabled and its pipe has power; a lock that is lost
is shown and the output runs on; a new audio phase ends the lock to device time; a setting outside its limits, or for a pipe that runs, is refused; FAULT_N takes a write with the Lining bit only. -/
def Obligations.ClocksAndFaultOutput : Prop :=
  ∀ (s : State) (who : Who) (data : Word) (n : Fin 14), s.wf →
    let starts : State := { s with sys := { s.sys with clocks := s.sys.clocks ||| BitVec.ofNat 14 (2 ^ n.val) } }
    let may : Prop := s.sys.boot ≠ .held ∧ (n.val < 2 ∨ s.sys.standby = 0 ∨ s.sys.waking ≠ none)
    let pixel : Prop := 7 ≤ n.val ∧ n.val ≤ 10
    let p : Fin 4 := Fin.ofNat 4 (n.val - 7)
    let off := (s.reg Reg.SYS_BPSTAT).getLsbD n
    let clk := Reg.SYS_CLKSTAT
    (¬ may → exec (.pllLock n) s = .next s) ∧
    (may → ¬ pixel → n.val ≠ 11 ∨ s.sys.clocks.getLsbD 11 = false → exec (.pllLock n) s = .next starts) ∧
    (may → pixel → s.flag (Reg.SYS_PXCTL p) Fld.SYS_PXCTL_EN = false ∨ off = true → exec (.pllLock n) s = .next s) ∧
    (may → pixel → s.flag (Reg.SYS_PXCTL p) Fld.SYS_PXCTL_EN = true → off = false → ∃ t, exec (.pllLock n) s = .next t ∧
      t.reg (Reg.SYS_PXCTL p) = Fld.SYS_PXCTL_LOCK.put 1 (s.reg (Reg.SYS_PXCTL p)) ∧ t.sys = starts.sys ∧
      (t.pipeRuns p = (s.pipeRuns p || (s.flag (Reg.DP_CTRL p) Fld.DP_CTRL_EN && s.sys.standby == 0))) ∧
      RegsAndEvents s t [Reg.SYS_PXCTL p, Reg.DP_STAT p] []) ∧
    (may → n.val = 11 → s.sys.clocks.getLsbD 11 = true → ∃ t, exec (.pllLock n) s = .next t ∧ RegsAndEvents s t [Reg.SYS_APLL] [] ∧
      OnlyRegs s t ∧ t.reg Reg.SYS_APLL = if s.flag Reg.SYS_APLL Fld.SYS_APLL_DTLOCK then Fld.SYS_APLL_LOCKED.put 1 (s.reg Reg.SYS_APLL)
        else s.reg Reg.SYS_APLL) ∧
    (s.sys.clocks.getLsbD n = false → exec (.pllLockLost n) s = .next s) ∧
    (s.sys.clocks.getLsbD n = true → ∃ t, exec (.pllLockLost n) s = .next t ∧ OnlyRegs s t ∧
      t.reg clk = Fld.SYS_CLKSTAT_LOST.put (s.fld clk Fld.SYS_CLKSTAT_LOST ||| 2 ^ n.val) (s.reg clk) ∧
      (pixel → t.flag (Reg.SYS_PXCTL p) Fld.SYS_PXCTL_LOCK = false) ∧ (n.val = 11 → t.flag Reg.SYS_APLL Fld.SYS_APLL_LOCKED = false) ∧
      RegsAndEvents s t (clk :: if 7 ≤ n.val ∧ n.val ≤ 10 then [Reg.SYS_PXCTL p] else if n.val = 11 then [Reg.SYS_APLL] else []) [1308]) ∧
    (∀ q : Fin 4,
      let a := Reg.SYS_PXCTL q
      let int := Fld.SYS_PXCTL_INT.get data
      let div := Fld.SYS_PXCTL_DIV.get data
      let frac := s.fld (Reg.SYS_PXFRAC q) Fld.SYS_PXFRAC_FRAC
      let mod := s.fld (Reg.SYS_PXMOD q) Fld.SYS_PXMOD_MOD
      let v := int * mod + frac
      let good : Prop := 48 * mod ≤ v ∧ v ≤ 96 * mod ∧ frac < mod ∧ 2 ≤ div ∧ div ≤ 96 ∧ div * mod ≤ v ∧ v ≤ 24 * (div * mod)
      (s.pipeRuns q = true ∨ ¬ good → ∃ t, exec (.pxctlWrite who q data) s = .next t ∧ OnlyRegs s t ∧ RegsAndEvents s t [clk] [] ∧
        t.reg clk = Fld.SYS_CLKSTAT_PWI.put 1 (s.reg clk)) ∧
      (s.pipeRuns q = false → good → ∃ t, exec (.pxctlWrite who q data) s = .next t ∧ RegsAndEvents s t [a] [] ∧
        t.fld a Fld.SYS_PXCTL_INT = int ∧ t.fld a Fld.SYS_PXCTL_DIV = div ∧ t.flag a Fld.SYS_PXCTL_LOCK = false ∧
        t.fld a Fld.SYS_PXCTL_EN = Fld.SYS_PXCTL_EN.get data ∧ t.sys.clocks.getLsbD (7 + q.val) = false ∧
        (t.pipe q).pll = ⟨int, frac, mod, div⟩ ∧ ∀ r, r ≠ q → t.pipe r = s.pipe r)) ∧
    (∀ a, a = Reg.SYS_APHL ∨ a = Reg.SYS_APHH → (s.landSys who a data 0).flag Reg.SYS_APLL Fld.SYS_APLL_LOCKED =
      (s.flag Reg.SYS_APLL Fld.SYS_APLL_LOCKED && !s.flag Reg.SYS_APLL Fld.SYS_APLL_DTLOCK)) ∧
    (who.lining = false → exec (.sysFaultWrite who data) s = .next s) ∧
    (who.lining = true → exec (.sysFaultWrite who data) s = .next (s.plainWrite Reg.SYS_FAULT data 0))

/-- The boot (R494 to R499): once the resets are released and quad 0's clock runs, context 0 starts in the boot ROM at the Lining level;
what answers the read of the copy that the source and the count name, and not before a network attempt is made, decides: a copy that
cannot be read gives its error and the next copy is tried; after the last one the boot has failed, FAULT_N shows it and the
context has stopped itself: Off, unless a pending Lining cause starts it again (R187), and with the KILL that the Lining level held
completed (R100, log 70); an image whose header, signature and hash hold (R498, each check spelled out) lies in the Lining store, and the
context goes on at its entry. The boot ROM's run as one command for each copy, and an image too short for a header, are the model's
choice (log 54), the MAC address and the root keys its configuration (log 44). -/
def Obligations.BootSequence : Prop :=
  ∀ (s : State) (source : BootRead) (image : Option (List Byte)) (why : Fin 3) (copy : Nat), s.wf →
    let check : Instr := .bootCopyCheck ⟨source, image⟩ why
    let src := s.fld Reg.SYS_STRAP Fld.SYS_STRAP_BOOTSRC
    let bs := Reg.SYS_BOOTSTAT
    let copies := if src = 2 then 3 else 2
    let runs : Prop := s.sys.boot = .rom copy ∧ (s.ctx 0).run = .active
    let asked : Prop := s.sys.bootAt ≤ s.fc ∧ source = match src with
      | 0 => .qspi 0x03 (if copy = 0 then 0 else 0x200000)
      | 1 => .emmc (copy + 1) 0
      | _ => .network Config.macAddress copy
    let next : Sys := { s.sys with boot := .rom (copy + 1), bootAt := if src = 2 then s.sys.bootAt + 1500000000 else s.sys.bootAt }
    let restarts : Prop := (s.ctx 0).lpend ≠ 0 ∧ s.flag (Reg.HYC_CSTAT 0) Fld.HYC_CSTAT_EXH = false
    let failed (e : Nat) : Prop := ∃ t, exec check s = .next t ∧ t.flag Reg.SYS_FAULT Fld.SYS_FAULT_BOOT = true ∧
      t.flag (Reg.HYC_CSTAT 0) Fld.HYC_CSTAT_STOPPED = true ∧ t.sys.boot = .done ∧ t.fld bs Fld.SYS_BOOTSTAT_ERR = e ∧
      t.flag bs Fld.SYS_BOOTSTAT_OK = false ∧ t.mem = s.mem ∧ (restarts → (t.ctx 0).run = .active) ∧ (¬ restarts → (t.ctx 0).run = .off) ∧
      ((s.ctx 0).heldKill = true → t.flag (Reg.HYC_CSTAT 0) Fld.HYC_CSTAT_ABLATE = true ∧
        (t.fld (Reg.HYC_CORESTAT 0) Fld.HYC_CORESTAT_KDONE).testBit 0 = true) ∧
      ((s.ctx 0).heldKill = false → ¬ restarts → t.evc = s.evc) ∧ ∀ c, c ≠ 0 → t.ctx c = s.ctx c
    (s.sys.boot ≠ .released ∨ s.sys.clocks.getLsbD 2 = false → exec .bootStart s = .next s) ∧
    (s.sys.boot = .released → s.sys.clocks.getLsbD 2 = true → ∃ t, exec .bootStart s = .next t ∧ t.sys = { s.sys with boot := .rom 0, bootAt := s.fc } ∧
      (t.ctx 0).run = .active ∧ (t.ctx 0).pc = 0 ∧ (t.ctx 0).npc = 4 ∧ (t.ctx 0).status.lvl = true ∧ (t.ctx 0).status.ie = false ∧
      (∀ r, (t.ctx 0).rg r = 0) ∧ (∀ c, c ≠ 0 → t.ctx c = s.ctx c) ∧ t.mem = s.mem) ∧
    (¬ (∃ k, s.sys.boot = .rom k) ∨ (s.ctx 0).run ≠ .active → exec check s = .next s) ∧
    (runs → src = 3 → failed 9) ∧
    (runs → src ≠ 3 → ¬ asked → exec check s = .next s) ∧
    (∀ b : List Byte,
      let n (o k : Nat) : Nat := leNat ((b.drop o).take k)
      let key := (b.drop 0x20).take 64
      headerError b = if b.length < 256 ∨ n 0 4 ≠ 0x57424F54 ∨ n 4 2 ≠ 1 then some 2
        else if n 8 4 < 4 ∨ 393216 < n 8 4 ∨ n 12 4 % 4 ≠ 0 ∨ n 8 4 ≤ n 12 4 then some 3
        else if (if n 6 2 < 4 then Config.rootKeyHash (n 6 2) else none).any (fun h => h != sha256 key) = true then some 4
        else if ecdsaVerify key (sha256 (b.take 0x80)) ((b.drop 0x80).take 64) = true then none else some 5) ∧
    (runs → src ≠ 3 → asked → image = none →
      let e := if why = 0 then 1 else if why = 1 then 7 else 8
      (copy + 1 < copies → ∃ t, exec check s = .next t ∧ t.sys = next ∧
        t.reg bs = Fld.SYS_BOOTSTAT_ERR.put e (s.reg bs) ∧ RegsAndEvents s t [bs] [] ∧ { t with dev := s.dev, sys := s.sys } = s) ∧
      (copies ≤ copy + 1 → failed e)) ∧
    (∀ b e, runs → src ≠ 3 → asked → image = some b → headerError b = some e → e < 16 →
      (copy + 1 < copies → ∃ t, exec check s = .next t ∧ t.sys = next ∧ t.fld bs Fld.SYS_BOOTSTAT_ERR = e ∧ t.mem = s.mem) ∧
      (copies ≤ copy + 1 → failed e)) ∧
    (∀ b, runs → src ≠ 3 → asked → image = some b → headerError b = none →
      let n (o k : Nat) : Nat := leNat ((b.drop o).take k)
      let p := (b.drop 256).take (n 8 4)
      n 8 4 ≤ (b.drop 256).length → sha256 p = (b.drop 0x60).take 32 → ∃ t, exec check s = .next t ∧ t.sys.boot = .done ∧
        (t.ctx 0).pc = BitVec.ofNat 48 (0x4000000 + n 12 4) ∧ (t.ctx 0).npc = BitVec.ofNat 48 (0x4000000 + n 12 4) + 4 ∧
        t.flag bs Fld.SYS_BOOTSTAT_OK = true ∧ t.fld bs Fld.SYS_BOOTSTAT_SRC = src ∧
        (∀ k, k < p.length → Memory.read t.mem (0x4000000 + k) = p.getD k 0) ∧
        (∀ k, p.length ≤ k → k < 0x80000 → Memory.read t.mem (0x4000000 + k) = 0) ∧
        ∀ a, a < 0x4000000 ∨ 0x4080000 ≤ a → Memory.read t.mem a = Memory.read s.mem a)

/-- Resets (R490 to R492, R494): the power-on reset leaves the device in its reset state and shows cause 1; SYS_RST_N, and SYSRST with the Lining
bit, do the same with causes 2 and 3 but leave the fabric, peripheral, DDR and network clocks running; writes that the fabric has accepted are
performed first, and fabric memory and DRAM keep what they hold (at the power-on reset the model's reading, log 3); a per-block reset with the
Lining bit gives its block its reset values, but for a LOCK, which holds (the model's reading, log 5), and holds accesses while it clears; the
release samples the straps: the balls PA0 to PA2, where one that nothing pulls up reads 0. The island is none of it. -/
def Obligations.ResetsAndRelease : Prop :=
  ∀ (s : State) (who : Who) (b : Block) (straps : BitVec 3), s.wf →
    let rs := Reg.SYS_RSTSTAT
    let fresh (t : State) (cause : Nat) : Prop := t.ctxs = State.reset.ctxs ∧ t.cores = State.reset.cores ∧ t.quads = State.reset.quads ∧
      t.psq = State.reset.psq ∧ t.spl = State.reset.spl ∧ t.seam = State.reset.seam ∧ t.evc = State.reset.evc ∧ t.tmr = State.reset.tmr ∧
      t.sys.boot = .held ∧ t.reg rs = Fld.SYS_RSTSTAT_CAUSE.put cause (RegMap.reset rs) ∧
      ∀ a, a ≠ rs → t.reg a = RegMap.reset a
    let warm (c : Instr) (cause : Nat) (clocks : BitVec 14) : Prop := ∃ t, exec c s = .next t ∧ fresh t cause ∧
      t.sys.clocks = clocks ∧ (∀ a, keptMemory a = false → Memory.read t.mem a = memDefault a) ∧
      (s.fab.targets = [] → s.fab.port = [] → s.prs.rows = [] → t.isl = s.isl ∧ t.pending = s.pending ∧
        ∀ a, keptMemory a = true → Memory.read t.mem a = Memory.read s.mem a)
    warm .pwronRstN 1 0 ∧
    warm .sysRstN 2 (s.sys.clocks &&& 0b11000001000011) ∧
    (who.lining = true → warm (.sysrst who) 3 (s.sys.clocks &&& 0b11000001000011)) ∧
    (who.lining = false → exec (.sysrst who) s = .next s ∧ exec (.brst who b) s = .next s) ∧
    (b.resettable = false ∨ s.blockOff b = true → exec (.brst who b) s = .next s) ∧
    (who.lining = true → b.resettable = true → s.blockOff b = false → ∃ t, exec (.brst who b) s = .next t ∧ b ∈ t.fab.clearing ∧
      (t.reg Reg.SYS_RSTCTL).getLsbD b.index = true ∧ (b ≠ .prs → t.ctxs = s.ctxs ∧ t.quads = s.quads) ∧
      (∀ a, b.base ≤ a → a < b.base + 0x100000 → t.reg a =
        if lockOf a = some a ∧ (s.reg a).getLsbD 31 = true then RegMap.reset a ||| 0x80000000 else RegMap.reset a) ∧
      (b ≠ .prs → b ≠ .seam → t.mem = s.mem) ∧ (b = .shu → ∀ n, t.shu n = State.reset.shu n) ∧ (b = .spl → t.spl = State.reset.spl) ∧
      (b = .psq → t.psq = State.reset.psq) ∧ (b = .tmr → t.tmr = State.reset.tmr) ∧
      (b ≠ .prs → ∀ a, (a < b.base ∨ b.base + 0x100000 ≤ a) → a ≠ Reg.SYS_RSTCTL → (b = .selm → a ≠ Reg.SELM_MSTAT) → t.reg a = s.reg a)) ∧
    (s.sys.boot ≠ .held → exec (.resetRelease straps) s = .next s) ∧
    (s.sys.boot = .held → s.pinsReset = true → ∃ t, exec (.resetRelease straps) s = .next t ∧ t.sys = { s.sys with boot := .released } ∧
      t.reg Reg.SYS_STRAP = straps.zeroExtend 32 ∧ t.lockstep = (straps.getLsbD 2 && !Config.variantN) ∧
      RegsAndEvents s t [Reg.SYS_STRAP, Reg.HYC_LSCTL] [] ∧ ∀ k ∈ ([.psq, .spl, .seam, .fab] : List Block), k ∈ t.fab.clearing)

/-- A step runs the command at the front of the queue on the state with the queue's rest, whatever the command and the state. -/
def Obligations.StepRunsTheFrontCommand : Prop :=  ∀ (c : Instr) (rest : List Instr) (s : State), s.pending = c :: rest → step s = exec c { s with pending := rest }

/-- With no command waiting, a step is one fabric cycle while the fabric PLL's output runs, and nothing otherwise (the model's choice, log 2):
lanes note that their entry has become the due head (R53) and the supervision scan makes its visit (R414); then device time advances by its
increment and by what an adjustment adds in this cycle (R29, R31), each quad whose clock runs counts core cycles, open tack windows count down
(R194), a point's assist and bias that have changed are taken (R477), and no memory and no register changes; at a pc edge the pins, the input functions and the lines'
filters follow their balls (R464, R468; log 52); accesses that were held are made again, where there are any. What the follower copies of
device time show is drawn anew (R28, log 11). -/
def Obligations.IdleStepIsOneFabricCycle : Prop :=
  ∀ (s : State), s.pending = [] →
    let v := s.endCycle
    let slew := v.fld Reg.PSQ_DTCTRL Fld.PSQ_DTCTRL_SLEW
    let most : Int := (v.psq.inc / 2 ^ slew : Nat)
    let adj := v.psq.adjRem
    let add : Int := if 0 < adj then min most adj else if adj < 0 then max (-most) adj else 0
    let runs (q : Fin 4) : Bool := v.sys.clocks.getLsbD (2 + q.val)
    (s.sys.clocks.getLsbD 0 = false → step s = .next s) ∧
    (s.seam.visit = none → { v with psq := { v.psq with lanes := s.psq.lanes } } = s ∧ ∀ l, v.lane l = { s.lane l with
      dueSince := if s.dueHead l = true ∧ (s.lane l).dueSince = none then some s.fc else (s.lane l).dueSince }) ∧
    (s.sys.clocks.getLsbD 0 = true → ∃ t : State, step s = .next t.edgeTick.resumeHeld ∧ t.fc = v.fc + 1 ∧ t.pending = v.pending ∧ t.mem = v.mem ∧
      t.dev = v.dev ∧ t.evc = v.evc ∧ t.fab = v.fab ∧ t.seam = v.seam ∧
      (t.psq.time : Int) = ((v.psq.time : Int) + v.psq.inc + add).toNat % 2 ^ 96 ∧ t.psq.adjRem = adj - add ∧ t.psq.inc = v.psq.inc ∧
      t.psq.lanes = v.psq.lanes ∧
      (t.pcEdge = false → t.edgeTick = t) ∧ { t.edgeTick with pins := t.pins, tmrX := t.tmrX } = t ∧
      (∀ q, runs q = false → (t.quad q).cycles = (v.quad q).cycles ∧ (t.quad q).phase = (v.quad q).phase) ∧
      (∀ q, (t.quad q).point = (v.quad q).point ∧ (t.quad q).l2 = (v.quad q).l2) ∧
      (∀ q, runs q = true → 15 * (t.quad q).cycles + (t.quad q).phase = 15 * (v.quad q).cycles + (v.quad q).phase + ccRate (v.quad q).point) ∧
      (∀ c, { t.ctx c with tackrem := (v.ctx c).tackrem } = v.ctx c ∧ (t.ctx c).tackrem.toNat =
        if (v.ctx c).status.tack = true then (v.ctx c).tackrem.toNat - ((t.quad (quadOf (coreOf c))).cycles - (v.quad (quadOf (coreOf c))).cycles)
        else (v.ctx c).tackrem.toNat) ∧
      (t.fab.ring = [] → t.fab.port = [] → t.seam.tcmd = none → t.seam.tx = [] → t.seam.waiting = [] → t.prsWaits = false →
        (∀ n, (t.shu n).held = []) → t.edgeTick.resumeHeld = t.edgeTick))

/-- What reset leaves (R30, R65, R80, R97, R209, R265, R332, R461, R490, R514): every context Off at the reset values of its registers, which the
spec leaves open for the most part (the model's choice of zeros, log 12; memory that nothing has written reads 0, log 3), every
device register at its reset value, device time 0 with the increment of a 750 MHz cycle, every lane stopped, channel idle, no command waiting. -/
def Obligations.ResetState : Prop :=
  let s := State.reset
  s.pending = [] ∧ s.mem = [] ∧ (∀ a, s.reg a = RegMap.reset a) ∧ (∀ a, Memory.read s.mem a = memDefault a) ∧
  (∀ c, (s.ctx c).run = .off ∧ (s.ctx c).pc = 0 ∧ (s.ctx c).status = ⟨false, false, false, false, 0⟩ ∧ ∀ r, (s.ctx c).rg r = 0) ∧
  s.psq.time = 0 ∧ s.psq.inc = 0x155555555 ∧ (∀ l, s.laneState l = 0) ∧ (∀ n, s.shuState n = 0) ∧ (∀ p, s.pipeRuns p = false) ∧
  (∀ u, (s.unit u).per = 2 ^ 48 - 1 ∧ (s.unit u).cnt = 0 ∧ s.ticks u = false) ∧ (∀ q, (s.quad q).point = 2 ∧ (s.quad q).qvid = 0b010) ∧
  s.sys.boot = .held ∧ s.sys.clocks = 0 ∧ (∀ p, s.pinDrive p = none)

/-- The state after reset keeps the invariant. -/
def Obligations.ResetKeepsTheInvariant : Prop := State.reset.wf ∧ State.reset.regular

/-- Every step keeps the invariant of the state: memory's addresses rise strictly, none lies in the boot ROM, and no entry holds what an
unlisted address reads as; the registers' addresses rise strictly, and so do those that standby saved and the keys of every other sparse
table; g0 holds 0; pc, npc and the loop's addresses are aligned, and so is the vector base; every quad is at one of its points; standby has six
steps; and a reset that is held governs the pins. -/
def Obligations.EveryStepKeepsTheInvariant : Prop :=  (∀ (s t : State), s.wf → step s = .next t → t.wf) ∧ ∀ (s t : State), s.wf → s.regular → step s = .next t → t.regular

/-- Decoding gives every well-formed instruction back from its word: no bit of an encoding is dropped (R122 to R126). -/
def Obligations.DecodeOfEncode : Prop :=  ∀ (i : Instr), i.wf = true → ∀ w, Hymota.encode i = some w → ∃ c, Hymota.decode c w = some i
end

