-- ==== Sys2Proof/Laws/State.lean ====
section
/-! SUPPORT. What each update of the state leaves alone, and what reads after writes of contexts, cores, quads and sparse tables
give. -/

namespace Sys2Proof.Machine

/-! ### setReg -/

@[simp] theorem State.setReg_mem (s : State) (a : Nat) (w : Word) : (s.setReg a w).mem = s.mem := rfl
@[simp] theorem State.setReg_ecc (s : State) (a : Nat) (w : Word) : (s.setReg a w).ecc = s.ecc := rfl
@[simp] theorem State.setReg_fc (s : State) (a : Nat) (w : Word) : (s.setReg a w).fc = s.fc := rfl
@[simp] theorem State.setReg_free (s : State) (a : Nat) (w : Word) : (s.setReg a w).free = s.free := rfl
@[simp] theorem State.setReg_ctxs (s : State) (a : Nat) (w : Word) : (s.setReg a w).ctxs = s.ctxs := rfl
@[simp] theorem State.setReg_cores (s : State) (a : Nat) (w : Word) : (s.setReg a w).cores = s.cores := rfl
@[simp] theorem State.setReg_quads (s : State) (a : Nat) (w : Word) : (s.setReg a w).quads = s.quads := rfl
@[simp] theorem State.setReg_fab (s : State) (a : Nat) (w : Word) : (s.setReg a w).fab = s.fab := rfl
@[simp] theorem State.setReg_ddr (s : State) (a : Nat) (w : Word) : (s.setReg a w).ddr = s.ddr := rfl
@[simp] theorem State.setReg_fmScrub (s : State) (a : Nat) (w : Word) : (s.setReg a w).fmScrub = s.fmScrub := rfl
@[simp] theorem State.setReg_evc (s : State) (a : Nat) (w : Word) : (s.setReg a w).evc = s.evc := rfl
@[simp] theorem State.setReg_psq (s : State) (a : Nat) (w : Word) : (s.setReg a w).psq = s.psq := rfl
@[simp] theorem State.setReg_dbg (s : State) (a : Nat) (w : Word) : (s.setReg a w).dbg = s.dbg := rfl
@[simp] theorem State.setReg_pipes (s : State) (a : Nat) (w : Word) : (s.setReg a w).pipes = s.pipes := rfl
@[simp] theorem State.setReg_prs (s : State) (a : Nat) (w : Word) : (s.setReg a w).prs = s.prs := rfl
@[simp] theorem State.setReg_shus (s : State) (a : Nat) (w : Word) : (s.setReg a w).shus = s.shus := rfl
@[simp] theorem State.setReg_spl (s : State) (a : Nat) (w : Word) : (s.setReg a w).spl = s.spl := rfl
@[simp] theorem State.setReg_seam (s : State) (a : Nat) (w : Word) : (s.setReg a w).seam = s.seam := rfl
@[simp] theorem State.setReg_isl (s : State) (a : Nat) (w : Word) : (s.setReg a w).isl = s.isl := rfl
@[simp] theorem State.setReg_selm (s : State) (a : Nat) (w : Word) : (s.setReg a w).selm = s.selm := rfl
@[simp] theorem State.setReg_tmr (s : State) (a : Nat) (w : Word) : (s.setReg a w).tmr = s.tmr := rfl
@[simp] theorem State.setReg_tmrX (s : State) (a : Nat) (w : Word) : (s.setReg a w).tmrX = s.tmrX := rfl
@[simp] theorem State.setReg_pins (s : State) (a : Nat) (w : Word) : (s.setReg a w).pins = s.pins := rfl
@[simp] theorem State.setReg_sys (s : State) (a : Nat) (w : Word) : (s.setReg a w).sys = s.sys := rfl
@[simp] theorem State.setReg_pending (s : State) (a : Nat) (w : Word) : (s.setReg a w).pending = s.pending := rfl

/-! ### setFld -/

@[simp] theorem State.setFld_mem (s : State) (a : Nat) (f : Fld) (v : Nat) : (s.setFld a f v).mem = s.mem := rfl
@[simp] theorem State.setFld_ecc (s : State) (a : Nat) (f : Fld) (v : Nat) : (s.setFld a f v).ecc = s.ecc := rfl
@[simp] theorem State.setFld_fc (s : State) (a : Nat) (f : Fld) (v : Nat) : (s.setFld a f v).fc = s.fc := rfl
@[simp] theorem State.setFld_free (s : State) (a : Nat) (f : Fld) (v : Nat) : (s.setFld a f v).free = s.free := rfl
@[simp] theorem State.setFld_ctxs (s : State) (a : Nat) (f : Fld) (v : Nat) : (s.setFld a f v).ctxs = s.ctxs := rfl
@[simp] theorem State.setFld_cores (s : State) (a : Nat) (f : Fld) (v : Nat) : (s.setFld a f v).cores = s.cores := rfl
@[simp] theorem State.setFld_quads (s : State) (a : Nat) (f : Fld) (v : Nat) : (s.setFld a f v).quads = s.quads := rfl
@[simp] theorem State.setFld_fab (s : State) (a : Nat) (f : Fld) (v : Nat) : (s.setFld a f v).fab = s.fab := rfl
@[simp] theorem State.setFld_ddr (s : State) (a : Nat) (f : Fld) (v : Nat) : (s.setFld a f v).ddr = s.ddr := rfl
@[simp] theorem State.setFld_fmScrub (s : State) (a : Nat) (f : Fld) (v : Nat) : (s.setFld a f v).fmScrub = s.fmScrub := rfl
@[simp] theorem State.setFld_evc (s : State) (a : Nat) (f : Fld) (v : Nat) : (s.setFld a f v).evc = s.evc := rfl
@[simp] theorem State.setFld_psq (s : State) (a : Nat) (f : Fld) (v : Nat) : (s.setFld a f v).psq = s.psq := rfl
@[simp] theorem State.setFld_dbg (s : State) (a : Nat) (f : Fld) (v : Nat) : (s.setFld a f v).dbg = s.dbg := rfl
@[simp] theorem State.setFld_pipes (s : State) (a : Nat) (f : Fld) (v : Nat) : (s.setFld a f v).pipes = s.pipes := rfl
@[simp] theorem State.setFld_prs (s : State) (a : Nat) (f : Fld) (v : Nat) : (s.setFld a f v).prs = s.prs := rfl
@[simp] theorem State.setFld_shus (s : State) (a : Nat) (f : Fld) (v : Nat) : (s.setFld a f v).shus = s.shus := rfl
@[simp] theorem State.setFld_spl (s : State) (a : Nat) (f : Fld) (v : Nat) : (s.setFld a f v).spl = s.spl := rfl
@[simp] theorem State.setFld_seam (s : State) (a : Nat) (f : Fld) (v : Nat) : (s.setFld a f v).seam = s.seam := rfl
@[simp] theorem State.setFld_isl (s : State) (a : Nat) (f : Fld) (v : Nat) : (s.setFld a f v).isl = s.isl := rfl
@[simp] theorem State.setFld_selm (s : State) (a : Nat) (f : Fld) (v : Nat) : (s.setFld a f v).selm = s.selm := rfl
@[simp] theorem State.setFld_tmr (s : State) (a : Nat) (f : Fld) (v : Nat) : (s.setFld a f v).tmr = s.tmr := rfl
@[simp] theorem State.setFld_tmrX (s : State) (a : Nat) (f : Fld) (v : Nat) : (s.setFld a f v).tmrX = s.tmrX := rfl
@[simp] theorem State.setFld_pins (s : State) (a : Nat) (f : Fld) (v : Nat) : (s.setFld a f v).pins = s.pins := rfl
@[simp] theorem State.setFld_sys (s : State) (a : Nat) (f : Fld) (v : Nat) : (s.setFld a f v).sys = s.sys := rfl
@[simp] theorem State.setFld_pending (s : State) (a : Nat) (f : Fld) (v : Nat) : (s.setFld a f v).pending = s.pending := rfl

/-! ### setFlds -/

@[simp] theorem State.setFlds_mem (s : State) (a : Nat) (l : List (Fld × Nat)) : (s.setFlds a l).mem = s.mem := rfl
@[simp] theorem State.setFlds_ecc (s : State) (a : Nat) (l : List (Fld × Nat)) : (s.setFlds a l).ecc = s.ecc := rfl
@[simp] theorem State.setFlds_fc (s : State) (a : Nat) (l : List (Fld × Nat)) : (s.setFlds a l).fc = s.fc := rfl
@[simp] theorem State.setFlds_free (s : State) (a : Nat) (l : List (Fld × Nat)) : (s.setFlds a l).free = s.free := rfl
@[simp] theorem State.setFlds_ctxs (s : State) (a : Nat) (l : List (Fld × Nat)) : (s.setFlds a l).ctxs = s.ctxs := rfl
@[simp] theorem State.setFlds_cores (s : State) (a : Nat) (l : List (Fld × Nat)) : (s.setFlds a l).cores = s.cores := rfl
@[simp] theorem State.setFlds_quads (s : State) (a : Nat) (l : List (Fld × Nat)) : (s.setFlds a l).quads = s.quads := rfl
@[simp] theorem State.setFlds_fab (s : State) (a : Nat) (l : List (Fld × Nat)) : (s.setFlds a l).fab = s.fab := rfl
@[simp] theorem State.setFlds_ddr (s : State) (a : Nat) (l : List (Fld × Nat)) : (s.setFlds a l).ddr = s.ddr := rfl
@[simp] theorem State.setFlds_fmScrub (s : State) (a : Nat) (l : List (Fld × Nat)) : (s.setFlds a l).fmScrub = s.fmScrub := rfl
@[simp] theorem State.setFlds_evc (s : State) (a : Nat) (l : List (Fld × Nat)) : (s.setFlds a l).evc = s.evc := rfl
@[simp] theorem State.setFlds_psq (s : State) (a : Nat) (l : List (Fld × Nat)) : (s.setFlds a l).psq = s.psq := rfl
@[simp] theorem State.setFlds_dbg (s : State) (a : Nat) (l : List (Fld × Nat)) : (s.setFlds a l).dbg = s.dbg := rfl
@[simp] theorem State.setFlds_pipes (s : State) (a : Nat) (l : List (Fld × Nat)) : (s.setFlds a l).pipes = s.pipes := rfl
@[simp] theorem State.setFlds_prs (s : State) (a : Nat) (l : List (Fld × Nat)) : (s.setFlds a l).prs = s.prs := rfl
@[simp] theorem State.setFlds_shus (s : State) (a : Nat) (l : List (Fld × Nat)) : (s.setFlds a l).shus = s.shus := rfl
@[simp] theorem State.setFlds_spl (s : State) (a : Nat) (l : List (Fld × Nat)) : (s.setFlds a l).spl = s.spl := rfl
@[simp] theorem State.setFlds_seam (s : State) (a : Nat) (l : List (Fld × Nat)) : (s.setFlds a l).seam = s.seam := rfl
@[simp] theorem State.setFlds_isl (s : State) (a : Nat) (l : List (Fld × Nat)) : (s.setFlds a l).isl = s.isl := rfl
@[simp] theorem State.setFlds_selm (s : State) (a : Nat) (l : List (Fld × Nat)) : (s.setFlds a l).selm = s.selm := rfl
@[simp] theorem State.setFlds_tmr (s : State) (a : Nat) (l : List (Fld × Nat)) : (s.setFlds a l).tmr = s.tmr := rfl
@[simp] theorem State.setFlds_tmrX (s : State) (a : Nat) (l : List (Fld × Nat)) : (s.setFlds a l).tmrX = s.tmrX := rfl
@[simp] theorem State.setFlds_pins (s : State) (a : Nat) (l : List (Fld × Nat)) : (s.setFlds a l).pins = s.pins := rfl
@[simp] theorem State.setFlds_sys (s : State) (a : Nat) (l : List (Fld × Nat)) : (s.setFlds a l).sys = s.sys := rfl
@[simp] theorem State.setFlds_pending (s : State) (a : Nat) (l : List (Fld × Nat)) : (s.setFlds a l).pending = s.pending := rfl

/-! ### setCtx -/

@[simp] theorem State.setCtx_dev (s : State) (c : Ctx) (x : Context) : (s.setCtx c x).dev = s.dev := rfl
@[simp] theorem State.setCtx_mem (s : State) (c : Ctx) (x : Context) : (s.setCtx c x).mem = s.mem := rfl
@[simp] theorem State.setCtx_ecc (s : State) (c : Ctx) (x : Context) : (s.setCtx c x).ecc = s.ecc := rfl
@[simp] theorem State.setCtx_fc (s : State) (c : Ctx) (x : Context) : (s.setCtx c x).fc = s.fc := rfl
@[simp] theorem State.setCtx_free (s : State) (c : Ctx) (x : Context) : (s.setCtx c x).free = s.free := rfl
@[simp] theorem State.setCtx_cores (s : State) (c : Ctx) (x : Context) : (s.setCtx c x).cores = s.cores := rfl
@[simp] theorem State.setCtx_quads (s : State) (c : Ctx) (x : Context) : (s.setCtx c x).quads = s.quads := rfl
@[simp] theorem State.setCtx_fab (s : State) (c : Ctx) (x : Context) : (s.setCtx c x).fab = s.fab := rfl
@[simp] theorem State.setCtx_ddr (s : State) (c : Ctx) (x : Context) : (s.setCtx c x).ddr = s.ddr := rfl
@[simp] theorem State.setCtx_fmScrub (s : State) (c : Ctx) (x : Context) : (s.setCtx c x).fmScrub = s.fmScrub := rfl
@[simp] theorem State.setCtx_evc (s : State) (c : Ctx) (x : Context) : (s.setCtx c x).evc = s.evc := rfl
@[simp] theorem State.setCtx_psq (s : State) (c : Ctx) (x : Context) : (s.setCtx c x).psq = s.psq := rfl
@[simp] theorem State.setCtx_dbg (s : State) (c : Ctx) (x : Context) : (s.setCtx c x).dbg = s.dbg := rfl
@[simp] theorem State.setCtx_pipes (s : State) (c : Ctx) (x : Context) : (s.setCtx c x).pipes = s.pipes := rfl
@[simp] theorem State.setCtx_prs (s : State) (c : Ctx) (x : Context) : (s.setCtx c x).prs = s.prs := rfl
@[simp] theorem State.setCtx_shus (s : State) (c : Ctx) (x : Context) : (s.setCtx c x).shus = s.shus := rfl
@[simp] theorem State.setCtx_spl (s : State) (c : Ctx) (x : Context) : (s.setCtx c x).spl = s.spl := rfl
@[simp] theorem State.setCtx_seam (s : State) (c : Ctx) (x : Context) : (s.setCtx c x).seam = s.seam := rfl
@[simp] theorem State.setCtx_isl (s : State) (c : Ctx) (x : Context) : (s.setCtx c x).isl = s.isl := rfl
@[simp] theorem State.setCtx_selm (s : State) (c : Ctx) (x : Context) : (s.setCtx c x).selm = s.selm := rfl
@[simp] theorem State.setCtx_tmr (s : State) (c : Ctx) (x : Context) : (s.setCtx c x).tmr = s.tmr := rfl
@[simp] theorem State.setCtx_tmrX (s : State) (c : Ctx) (x : Context) : (s.setCtx c x).tmrX = s.tmrX := rfl
@[simp] theorem State.setCtx_pins (s : State) (c : Ctx) (x : Context) : (s.setCtx c x).pins = s.pins := rfl
@[simp] theorem State.setCtx_sys (s : State) (c : Ctx) (x : Context) : (s.setCtx c x).sys = s.sys := rfl
@[simp] theorem State.setCtx_pending (s : State) (c : Ctx) (x : Context) : (s.setCtx c x).pending = s.pending := rfl

/-! ### setCore -/

@[simp] theorem State.setCore_dev (s : State) (k : Fin 16) (x : Core) : (s.setCore k x).dev = s.dev := rfl
@[simp] theorem State.setCore_mem (s : State) (k : Fin 16) (x : Core) : (s.setCore k x).mem = s.mem := rfl
@[simp] theorem State.setCore_ecc (s : State) (k : Fin 16) (x : Core) : (s.setCore k x).ecc = s.ecc := rfl
@[simp] theorem State.setCore_fc (s : State) (k : Fin 16) (x : Core) : (s.setCore k x).fc = s.fc := rfl
@[simp] theorem State.setCore_free (s : State) (k : Fin 16) (x : Core) : (s.setCore k x).free = s.free := rfl
@[simp] theorem State.setCore_ctxs (s : State) (k : Fin 16) (x : Core) : (s.setCore k x).ctxs = s.ctxs := rfl
@[simp] theorem State.setCore_quads (s : State) (k : Fin 16) (x : Core) : (s.setCore k x).quads = s.quads := rfl
@[simp] theorem State.setCore_fab (s : State) (k : Fin 16) (x : Core) : (s.setCore k x).fab = s.fab := rfl
@[simp] theorem State.setCore_ddr (s : State) (k : Fin 16) (x : Core) : (s.setCore k x).ddr = s.ddr := rfl
@[simp] theorem State.setCore_fmScrub (s : State) (k : Fin 16) (x : Core) : (s.setCore k x).fmScrub = s.fmScrub := rfl
@[simp] theorem State.setCore_evc (s : State) (k : Fin 16) (x : Core) : (s.setCore k x).evc = s.evc := rfl
@[simp] theorem State.setCore_psq (s : State) (k : Fin 16) (x : Core) : (s.setCore k x).psq = s.psq := rfl
@[simp] theorem State.setCore_dbg (s : State) (k : Fin 16) (x : Core) : (s.setCore k x).dbg = s.dbg := rfl
@[simp] theorem State.setCore_pipes (s : State) (k : Fin 16) (x : Core) : (s.setCore k x).pipes = s.pipes := rfl
@[simp] theorem State.setCore_prs (s : State) (k : Fin 16) (x : Core) : (s.setCore k x).prs = s.prs := rfl
@[simp] theorem State.setCore_shus (s : State) (k : Fin 16) (x : Core) : (s.setCore k x).shus = s.shus := rfl
@[simp] theorem State.setCore_spl (s : State) (k : Fin 16) (x : Core) : (s.setCore k x).spl = s.spl := rfl
@[simp] theorem State.setCore_seam (s : State) (k : Fin 16) (x : Core) : (s.setCore k x).seam = s.seam := rfl
@[simp] theorem State.setCore_isl (s : State) (k : Fin 16) (x : Core) : (s.setCore k x).isl = s.isl := rfl
@[simp] theorem State.setCore_selm (s : State) (k : Fin 16) (x : Core) : (s.setCore k x).selm = s.selm := rfl
@[simp] theorem State.setCore_tmr (s : State) (k : Fin 16) (x : Core) : (s.setCore k x).tmr = s.tmr := rfl
@[simp] theorem State.setCore_tmrX (s : State) (k : Fin 16) (x : Core) : (s.setCore k x).tmrX = s.tmrX := rfl
@[simp] theorem State.setCore_pins (s : State) (k : Fin 16) (x : Core) : (s.setCore k x).pins = s.pins := rfl
@[simp] theorem State.setCore_sys (s : State) (k : Fin 16) (x : Core) : (s.setCore k x).sys = s.sys := rfl
@[simp] theorem State.setCore_pending (s : State) (k : Fin 16) (x : Core) : (s.setCore k x).pending = s.pending := rfl

/-! ### setQuad -/

@[simp] theorem State.setQuad_dev (s : State) (q : Fin 4) (x : Quad) : (s.setQuad q x).dev = s.dev := rfl
@[simp] theorem State.setQuad_mem (s : State) (q : Fin 4) (x : Quad) : (s.setQuad q x).mem = s.mem := rfl
@[simp] theorem State.setQuad_ecc (s : State) (q : Fin 4) (x : Quad) : (s.setQuad q x).ecc = s.ecc := rfl
@[simp] theorem State.setQuad_fc (s : State) (q : Fin 4) (x : Quad) : (s.setQuad q x).fc = s.fc := rfl
@[simp] theorem State.setQuad_free (s : State) (q : Fin 4) (x : Quad) : (s.setQuad q x).free = s.free := rfl
@[simp] theorem State.setQuad_ctxs (s : State) (q : Fin 4) (x : Quad) : (s.setQuad q x).ctxs = s.ctxs := rfl
@[simp] theorem State.setQuad_cores (s : State) (q : Fin 4) (x : Quad) : (s.setQuad q x).cores = s.cores := rfl
@[simp] theorem State.setQuad_fab (s : State) (q : Fin 4) (x : Quad) : (s.setQuad q x).fab = s.fab := rfl
@[simp] theorem State.setQuad_ddr (s : State) (q : Fin 4) (x : Quad) : (s.setQuad q x).ddr = s.ddr := rfl
@[simp] theorem State.setQuad_fmScrub (s : State) (q : Fin 4) (x : Quad) : (s.setQuad q x).fmScrub = s.fmScrub := rfl
@[simp] theorem State.setQuad_evc (s : State) (q : Fin 4) (x : Quad) : (s.setQuad q x).evc = s.evc := rfl
@[simp] theorem State.setQuad_psq (s : State) (q : Fin 4) (x : Quad) : (s.setQuad q x).psq = s.psq := rfl
@[simp] theorem State.setQuad_dbg (s : State) (q : Fin 4) (x : Quad) : (s.setQuad q x).dbg = s.dbg := rfl
@[simp] theorem State.setQuad_pipes (s : State) (q : Fin 4) (x : Quad) : (s.setQuad q x).pipes = s.pipes := rfl
@[simp] theorem State.setQuad_prs (s : State) (q : Fin 4) (x : Quad) : (s.setQuad q x).prs = s.prs := rfl
@[simp] theorem State.setQuad_shus (s : State) (q : Fin 4) (x : Quad) : (s.setQuad q x).shus = s.shus := rfl
@[simp] theorem State.setQuad_spl (s : State) (q : Fin 4) (x : Quad) : (s.setQuad q x).spl = s.spl := rfl
@[simp] theorem State.setQuad_seam (s : State) (q : Fin 4) (x : Quad) : (s.setQuad q x).seam = s.seam := rfl
@[simp] theorem State.setQuad_isl (s : State) (q : Fin 4) (x : Quad) : (s.setQuad q x).isl = s.isl := rfl
@[simp] theorem State.setQuad_selm (s : State) (q : Fin 4) (x : Quad) : (s.setQuad q x).selm = s.selm := rfl
@[simp] theorem State.setQuad_tmr (s : State) (q : Fin 4) (x : Quad) : (s.setQuad q x).tmr = s.tmr := rfl
@[simp] theorem State.setQuad_tmrX (s : State) (q : Fin 4) (x : Quad) : (s.setQuad q x).tmrX = s.tmrX := rfl
@[simp] theorem State.setQuad_pins (s : State) (q : Fin 4) (x : Quad) : (s.setQuad q x).pins = s.pins := rfl
@[simp] theorem State.setQuad_sys (s : State) (q : Fin 4) (x : Quad) : (s.setQuad q x).sys = s.sys := rfl
@[simp] theorem State.setQuad_pending (s : State) (q : Fin 4) (x : Quad) : (s.setQuad q x).pending = s.pending := rfl

/-! ### setPipe -/

@[simp] theorem State.setPipe_dev (s : State) (p : Fin 4) (x : Pipe) : (s.setPipe p x).dev = s.dev := rfl
@[simp] theorem State.setPipe_mem (s : State) (p : Fin 4) (x : Pipe) : (s.setPipe p x).mem = s.mem := rfl
@[simp] theorem State.setPipe_ecc (s : State) (p : Fin 4) (x : Pipe) : (s.setPipe p x).ecc = s.ecc := rfl
@[simp] theorem State.setPipe_fc (s : State) (p : Fin 4) (x : Pipe) : (s.setPipe p x).fc = s.fc := rfl
@[simp] theorem State.setPipe_free (s : State) (p : Fin 4) (x : Pipe) : (s.setPipe p x).free = s.free := rfl
@[simp] theorem State.setPipe_ctxs (s : State) (p : Fin 4) (x : Pipe) : (s.setPipe p x).ctxs = s.ctxs := rfl
@[simp] theorem State.setPipe_cores (s : State) (p : Fin 4) (x : Pipe) : (s.setPipe p x).cores = s.cores := rfl
@[simp] theorem State.setPipe_quads (s : State) (p : Fin 4) (x : Pipe) : (s.setPipe p x).quads = s.quads := rfl
@[simp] theorem State.setPipe_fab (s : State) (p : Fin 4) (x : Pipe) : (s.setPipe p x).fab = s.fab := rfl
@[simp] theorem State.setPipe_ddr (s : State) (p : Fin 4) (x : Pipe) : (s.setPipe p x).ddr = s.ddr := rfl
@[simp] theorem State.setPipe_fmScrub (s : State) (p : Fin 4) (x : Pipe) : (s.setPipe p x).fmScrub = s.fmScrub := rfl
@[simp] theorem State.setPipe_evc (s : State) (p : Fin 4) (x : Pipe) : (s.setPipe p x).evc = s.evc := rfl
@[simp] theorem State.setPipe_psq (s : State) (p : Fin 4) (x : Pipe) : (s.setPipe p x).psq = s.psq := rfl
@[simp] theorem State.setPipe_dbg (s : State) (p : Fin 4) (x : Pipe) : (s.setPipe p x).dbg = s.dbg := rfl
@[simp] theorem State.setPipe_prs (s : State) (p : Fin 4) (x : Pipe) : (s.setPipe p x).prs = s.prs := rfl
@[simp] theorem State.setPipe_shus (s : State) (p : Fin 4) (x : Pipe) : (s.setPipe p x).shus = s.shus := rfl
@[simp] theorem State.setPipe_spl (s : State) (p : Fin 4) (x : Pipe) : (s.setPipe p x).spl = s.spl := rfl
@[simp] theorem State.setPipe_seam (s : State) (p : Fin 4) (x : Pipe) : (s.setPipe p x).seam = s.seam := rfl
@[simp] theorem State.setPipe_isl (s : State) (p : Fin 4) (x : Pipe) : (s.setPipe p x).isl = s.isl := rfl
@[simp] theorem State.setPipe_selm (s : State) (p : Fin 4) (x : Pipe) : (s.setPipe p x).selm = s.selm := rfl
@[simp] theorem State.setPipe_tmr (s : State) (p : Fin 4) (x : Pipe) : (s.setPipe p x).tmr = s.tmr := rfl
@[simp] theorem State.setPipe_tmrX (s : State) (p : Fin 4) (x : Pipe) : (s.setPipe p x).tmrX = s.tmrX := rfl
@[simp] theorem State.setPipe_pins (s : State) (p : Fin 4) (x : Pipe) : (s.setPipe p x).pins = s.pins := rfl
@[simp] theorem State.setPipe_sys (s : State) (p : Fin 4) (x : Pipe) : (s.setPipe p x).sys = s.sys := rfl
@[simp] theorem State.setPipe_pending (s : State) (p : Fin 4) (x : Pipe) : (s.setPipe p x).pending = s.pending := rfl

/-! ### setDdr -/

@[simp] theorem State.setDdr_dev (s : State) (n : Fin 4) (x : Ddr) : (s.setDdr n x).dev = s.dev := rfl
@[simp] theorem State.setDdr_mem (s : State) (n : Fin 4) (x : Ddr) : (s.setDdr n x).mem = s.mem := rfl
@[simp] theorem State.setDdr_ecc (s : State) (n : Fin 4) (x : Ddr) : (s.setDdr n x).ecc = s.ecc := rfl
@[simp] theorem State.setDdr_fc (s : State) (n : Fin 4) (x : Ddr) : (s.setDdr n x).fc = s.fc := rfl
@[simp] theorem State.setDdr_free (s : State) (n : Fin 4) (x : Ddr) : (s.setDdr n x).free = s.free := rfl
@[simp] theorem State.setDdr_ctxs (s : State) (n : Fin 4) (x : Ddr) : (s.setDdr n x).ctxs = s.ctxs := rfl
@[simp] theorem State.setDdr_cores (s : State) (n : Fin 4) (x : Ddr) : (s.setDdr n x).cores = s.cores := rfl
@[simp] theorem State.setDdr_quads (s : State) (n : Fin 4) (x : Ddr) : (s.setDdr n x).quads = s.quads := rfl
@[simp] theorem State.setDdr_fab (s : State) (n : Fin 4) (x : Ddr) : (s.setDdr n x).fab = s.fab := rfl
@[simp] theorem State.setDdr_fmScrub (s : State) (n : Fin 4) (x : Ddr) : (s.setDdr n x).fmScrub = s.fmScrub := rfl
@[simp] theorem State.setDdr_evc (s : State) (n : Fin 4) (x : Ddr) : (s.setDdr n x).evc = s.evc := rfl
@[simp] theorem State.setDdr_psq (s : State) (n : Fin 4) (x : Ddr) : (s.setDdr n x).psq = s.psq := rfl
@[simp] theorem State.setDdr_dbg (s : State) (n : Fin 4) (x : Ddr) : (s.setDdr n x).dbg = s.dbg := rfl
@[simp] theorem State.setDdr_pipes (s : State) (n : Fin 4) (x : Ddr) : (s.setDdr n x).pipes = s.pipes := rfl
@[simp] theorem State.setDdr_prs (s : State) (n : Fin 4) (x : Ddr) : (s.setDdr n x).prs = s.prs := rfl
@[simp] theorem State.setDdr_shus (s : State) (n : Fin 4) (x : Ddr) : (s.setDdr n x).shus = s.shus := rfl
@[simp] theorem State.setDdr_spl (s : State) (n : Fin 4) (x : Ddr) : (s.setDdr n x).spl = s.spl := rfl
@[simp] theorem State.setDdr_seam (s : State) (n : Fin 4) (x : Ddr) : (s.setDdr n x).seam = s.seam := rfl
@[simp] theorem State.setDdr_isl (s : State) (n : Fin 4) (x : Ddr) : (s.setDdr n x).isl = s.isl := rfl
@[simp] theorem State.setDdr_selm (s : State) (n : Fin 4) (x : Ddr) : (s.setDdr n x).selm = s.selm := rfl
@[simp] theorem State.setDdr_tmr (s : State) (n : Fin 4) (x : Ddr) : (s.setDdr n x).tmr = s.tmr := rfl
@[simp] theorem State.setDdr_tmrX (s : State) (n : Fin 4) (x : Ddr) : (s.setDdr n x).tmrX = s.tmrX := rfl
@[simp] theorem State.setDdr_pins (s : State) (n : Fin 4) (x : Ddr) : (s.setDdr n x).pins = s.pins := rfl
@[simp] theorem State.setDdr_sys (s : State) (n : Fin 4) (x : Ddr) : (s.setDdr n x).sys = s.sys := rfl
@[simp] theorem State.setDdr_pending (s : State) (n : Fin 4) (x : Ddr) : (s.setDdr n x).pending = s.pending := rfl

/-! ### Reads after writes -/

@[simp] theorem State.ctx_setCtx (s : State) (c d : Ctx) (x : Context) :
    (s.setCtx c x).ctx d = if d = c then x else s.ctx d := by
  simp only [State.ctx, State.setCtx, Vector.getElem_set, Fin.ext_iff, eq_comm]

theorem State.ctx_setCtx_self (s : State) (c : Ctx) (x : Context) : (s.setCtx c x).ctx c = x := by simp

@[simp] theorem State.core_setCore (s : State) (k j : Fin 16) (x : Core) :
    (s.setCore k x).core j = if j = k then x else s.core j := by
  simp only [State.core, State.setCore, Vector.getElem_set, Fin.ext_iff, eq_comm]

@[simp] theorem State.quad_setQuad (s : State) (q p : Fin 4) (x : Quad) :
    (s.setQuad q x).quad p = if p = q then x else s.quad p := by
  simp only [State.quad, State.setQuad, Vector.getElem_set, Fin.ext_iff, eq_comm]

@[simp] theorem State.pipe_setPipe (s : State) (q p : Fin 4) (x : Pipe) :
    (s.setPipe q x).pipe p = if p = q then x else s.pipe p := by
  simp only [State.pipe, State.setPipe, Vector.getElem_set, Fin.ext_iff, eq_comm]

@[simp] theorem State.core_setCtx (s : State) (c : Ctx) (x : Context) (k : Fin 16) : (s.setCtx c x).core k = s.core k := rfl
@[simp] theorem State.quad_setCtx (s : State) (c : Ctx) (x : Context) (q : Fin 4) : (s.setCtx c x).quad q = s.quad q := rfl
@[simp] theorem State.ctx_setCore (s : State) (k : Fin 16) (x : Core) (c : Ctx) : (s.setCore k x).ctx c = s.ctx c := rfl
@[simp] theorem State.quad_setCore (s : State) (k : Fin 16) (x : Core) (q : Fin 4) : (s.setCore k x).quad q = s.quad q := rfl
@[simp] theorem State.ctx_setQuad (s : State) (q : Fin 4) (x : Quad) (c : Ctx) : (s.setQuad q x).ctx c = s.ctx c := rfl
@[simp] theorem State.core_setQuad (s : State) (q : Fin 4) (x : Quad) (k : Fin 16) : (s.setQuad q x).core k = s.core k := rfl
@[simp] theorem State.ctx_setReg (s : State) (a : Nat) (w : Word) (c : Ctx) : (s.setReg a w).ctx c = s.ctx c := rfl
@[simp] theorem State.ctx_setFld (s : State) (a : Nat) (f : Fld) (v : Nat) (c : Ctx) : (s.setFld a f v).ctx c = s.ctx c := rfl
@[simp] theorem State.ctx_setFlds (s : State) (a : Nat) (l : List (Fld × Nat)) (c : Ctx) : (s.setFlds a l).ctx c = s.ctx c := rfl
@[simp] theorem State.core_setReg (s : State) (a : Nat) (w : Word) (k : Fin 16) : (s.setReg a w).core k = s.core k := rfl
@[simp] theorem State.core_setFld (s : State) (a : Nat) (f : Fld) (v : Nat) (k : Fin 16) : (s.setFld a f v).core k = s.core k := rfl
@[simp] theorem State.reg_setCtx (s : State) (c : Ctx) (x : Context) (a : Nat) : (s.setCtx c x).reg a = s.reg a := rfl
@[simp] theorem State.reg_setCore (s : State) (k : Fin 16) (x : Core) (a : Nat) : (s.setCore k x).reg a = s.reg a := rfl

/-! ### Sparse tables -/

theorem Sparse.get_put {α : Type} (k j : Nat) (v : α) (l : List (Nat × α)) :
    Sparse.get j (Sparse.put k v l) = if j = k then some v else Sparse.get j l := by
  induction l with
  | nil => simp [Sparse.put, Sparse.get]; grind
  | cons p t ih =>
    obtain ⟨i, w⟩ := p
    simp only [Sparse.put]
    grind [Sparse.get]

/-- Every key of a rising table lies above a bound below its first. -/
theorem Sparse.rising_cons {α : Type} (i : Nat) (v : α) (t : List (Nat × α)) :
    Sparse.rising ((i, v) :: t) = true ↔ (∀ p ∈ t, i < p.1) ∧ Sparse.rising t = true := by
  induction t generalizing i v with
  | nil => simp [Sparse.rising]
  | cons p t ih =>
    obtain ⟨j, w⟩ := p
    have e : Sparse.rising ((i, v) :: (j, w) :: t) = (decide (i < j) && Sparse.rising ((j, w) :: t)) := rfl
    rw [e]
    constructor
    · intro h
      simp only [Bool.and_eq_true, decide_eq_true_eq] at h
      refine ⟨?_, h.2⟩
      have hb := ((ih j w).mp h.2).1
      intro p hp
      rcases List.mem_cons.mp hp with rfl | hp
      · exact h.1
      · exact Nat.lt_trans h.1 (hb p hp)
    · intro h
      simp only [Bool.and_eq_true, decide_eq_true_eq]
      exact ⟨h.1 (j, w) (by simp), h.2⟩

theorem Sparse.get_none {α : Type} (j : Nat) (t : List (Nat × α)) (h : ∀ p ∈ t, j < p.1) : Sparse.get j t = none := by
  cases t with
  | nil => rfl
  | cons p t =>
    obtain ⟨i, w⟩ := p
    have : j < i := h (i, w) (by simp)
    simp only [Sparse.get]
    rw [if_neg (by omega), if_pos this]

theorem Sparse.get_erase {α : Type} (k j : Nat) (l : List (Nat × α)) (h : Sparse.rising l = true) :
    Sparse.get j (Sparse.erase k l) = if j = k then none else Sparse.get j l := by
  induction l with
  | nil => simp [Sparse.erase, Sparse.get]
  | cons p t ih =>
    obtain ⟨i, w⟩ := p
    have hr := (Sparse.rising_cons i w t).mp h
    simp only [Sparse.erase]
    have hn : j ≤ i → Sparse.get j t = none := fun e => Sparse.get_none j t (fun p hp => Nat.lt_of_le_of_lt e (hr.1 p hp))
    grind [Sparse.get]

theorem Sparse.mem_put {α : Type} (k : Nat) (v : α) (l : List (Nat × α)) (p : Nat × α) (h : p ∈ Sparse.put k v l) :
    p = (k, v) ∨ p ∈ l := by
  induction l with
  | nil => simp_all [Sparse.put]
  | cons q t ih =>
    obtain ⟨i, w⟩ := q
    simp only [Sparse.put] at h
    split at h
    · grind
    · split at h <;> grind

theorem Sparse.mem_erase {α : Type} (k : Nat) (l : List (Nat × α)) (p : Nat × α) (h : p ∈ Sparse.erase k l) : p ∈ l := by
  induction l with
  | nil => simp_all [Sparse.erase]
  | cons q t ih =>
    obtain ⟨i, w⟩ := q
    simp only [Sparse.erase] at h
    split at h
    · grind
    · split at h <;> grind

theorem Sparse.rising_put {α : Type} (k : Nat) (v : α) (l : List (Nat × α)) (h : Sparse.rising l = true) :
    Sparse.rising (Sparse.put k v l) = true := by
  induction l with
  | nil => rfl
  | cons q t ih =>
    obtain ⟨i, w⟩ := q
    have hr := (Sparse.rising_cons i w t).mp h
    simp only [Sparse.put]
    split
    · rename_i e; subst e; exact (Sparse.rising_cons _ _ _).mpr hr
    · split
      · rename_i hlt
        refine (Sparse.rising_cons _ _ _).mpr ⟨?_, h⟩
        intro p hp
        rcases List.mem_cons.mp hp with rfl | hp
        · exact hlt
        · exact Nat.lt_trans hlt (hr.1 p hp)
      · refine (Sparse.rising_cons _ _ _).mpr ⟨?_, ih hr.2⟩
        intro p hp
        rcases Sparse.mem_put k v t p hp with rfl | hp
        · show i < k
          omega
        · exact hr.1 p hp

theorem Sparse.rising_erase {α : Type} (k : Nat) (l : List (Nat × α)) (h : Sparse.rising l = true) :
    Sparse.rising (Sparse.erase k l) = true := by
  induction l with
  | nil => rfl
  | cons q t ih =>
    obtain ⟨i, w⟩ := q
    have hr := (Sparse.rising_cons i w t).mp h
    simp only [Sparse.erase]
    split
    · exact hr.2
    · split
      · exact h
      · exact (Sparse.rising_cons _ _ _).mpr ⟨fun p hp => hr.1 p (Sparse.mem_erase k t p hp), ih hr.2⟩

/-! ### Memory -/

/-- An address below DRAM is its own place. -/
theorem located_of_low {a : Nat} (h : a < 0x1000000000) : located a = a := by simp [located, h]

/-- Every address of DRAM is placed in DRAM. -/
theorem located_of_high {a : Nat} (h : 0x1000000000 ≤ a) : 0x1000000000 ≤ located a := by
  unfold located; split
  · omega
  · split <;> omega

/-- Nothing is placed in the boot ROM but the boot ROM. -/
theorem located_above {a : Nat} (h : 0x40000 ≤ a) : 0x40000 ≤ located a := by
  by_cases e : a < 0x1000000000
  · rw [located_of_low e]; exact h
  · have := located_of_high (Nat.le_of_not_lt e); omega

/-- No other address is placed where an address below DRAM is. -/
theorem located_eq_low {a j : Nat} (h : a < 0x1000000000) : located j = located a ↔ j = a := by
  rw [located_of_low h]
  by_cases e : j < 0x1000000000
  · rw [located_of_low e]
  · have := located_of_high (Nat.le_of_not_lt e)
    constructor <;> intro q <;> omega

/-- A write of one byte keeps the canonical form. -/
theorem Memory.wf_write (m : List Host.Cell) (a : Nat) (b : Byte) (h : Memory.wf m = true) : Memory.wf (Memory.write m a b) = true := by
  simp only [Memory.wf, Bool.and_eq_true, List.all_eq_true, decide_eq_true_eq, bne_iff_ne] at h ⊢
  unfold Memory.write
  split
  · exact h
  · split
    · exact ⟨Sparse.rising_erase _ m h.1, fun p hp => h.2 p (Sparse.mem_erase _ m p hp)⟩
    · refine ⟨Sparse.rising_put _ b m h.1, fun p hp => ?_⟩
      rcases Sparse.mem_put _ b m p hp with rfl | hp
      · exact ⟨located_above (by omega), by assumption⟩
      · exact h.2 p hp

/-- So does a write of a run of bytes. -/
theorem Memory.wf_writes (m : List Host.Cell) (a : Nat) (l : List Byte) (h : Memory.wf m = true) : Memory.wf (Memory.writes m a l) = true := by
  induction l generalizing m a with
  | nil => exact h
  | cons b t ih => exact ih _ _ (Memory.wf_write m a b h)

/-- A read after a write of one byte: every address of the same place reads it. -/
theorem Memory.read_write (m : List Host.Cell) (a j : Nat) (b : Byte) (h : Memory.wf m = true) :
    Memory.read (Memory.write m a b) j = if located j = located a ∧ 0x40000 ≤ a then b else Memory.read m j := by
  simp only [Memory.wf, Bool.and_eq_true] at h
  unfold Memory.read Memory.write
  split
  · rw [if_neg (by omega)]
  · have hl : 0x40000 ≤ located a := located_above (by omega)
    split
    · rename_i hb
      rw [Sparse.get_erase _ _ m h.1]
      by_cases e : located j = located a
      · have hj : ¬ j < 0x40000 := fun q => by rw [located_of_low (by omega)] at e; omega
        rw [e]; simp [memDefault, hj, show 0x40000 ≤ a by omega, hb]
      · simp [e]
    · rw [Sparse.get_put _ _ b m]
      by_cases e : located j = located a
      · simp [e, show 0x40000 ≤ a by omega]
      · simp [e]

/-- A write of a run of bytes leaves every byte placed elsewhere as it was. -/
theorem Memory.read_writes_of_placed (m : List Host.Cell) (a j : Nat) (l : List Byte) (h : Memory.wf m = true)
    (hj : ∀ i, i < l.length → located j ≠ located (a + i)) : Memory.read (Memory.writes m a l) j = Memory.read m j := by
  induction l generalizing m a with
  | nil => rfl
  | cons b t ih =>
    simp only [Memory.writes]
    rw [ih _ _ (Memory.wf_write m a b h) fun i hi => by
        have := hj (i + 1) (by simpa using hi)
        simpa [Nat.add_assoc, Nat.add_comm 1 i] using this, Memory.read_write m a j b h, if_neg fun e => hj 0 (by simp) e.1]

/-- Below DRAM, a write of a run of bytes leaves every other byte as it was. -/
theorem Memory.read_writes_of_outside (m : List Host.Cell) (a j : Nat) (l : List Byte) (h : Memory.wf m = true)
    (ha : a + l.length ≤ 0x1000000000) (hj : j < a ∨ a + l.length ≤ j) : Memory.read (Memory.writes m a l) j = Memory.read m j :=
  Memory.read_writes_of_placed m a j l h fun i hi e => by
    have := (located_eq_low (show a + i < 0x1000000000 by omega)).mp e
    omega

/-- Below DRAM, a read inside a written run gives the byte written. -/
theorem Memory.read_writes_of_inside (m : List Host.Cell) (a i : Nat) (l : List Byte) (h : Memory.wf m = true) (ha : 0x40000 ≤ a)
    (hl : a + l.length ≤ 0x1000000000) (hi : i < l.length) : Memory.read (Memory.writes m a l) (a + i) = l[i] := by
  induction l generalizing m a i with
  | nil => simp at hi
  | cons b t ih =>
    simp only [List.length_cons] at hl
    simp only [Memory.writes]
    cases i with
    | zero =>
      rw [Memory.read_writes_of_outside _ _ _ _ (Memory.wf_write m a b h) (by omega) (by omega), Memory.read_write m a _ b h]
      simp [ha]
    | succ n =>
      have := ih (Memory.write m a b) (a + 1) n (Memory.wf_write m a b h) (by omega) (by omega) (by simpa using hi)
      simpa [Nat.add_assoc, Nat.add_comm 1 n] using this

end Sys2Proof.Machine
end

