-- ==== Sys2Proof/Laws/Blocks.lean ====
section
/-! SUPPORT. Registers and events: what a register write, an accepted occurrence and a signalled event leave. -/

namespace Sys2Proof.Machine

/-- The table of registers keeps its rising addresses. -/
theorem State.rising_setReg (s : State) (a : Nat) (w : Word) (h : Sparse.rising s.dev = true) : Sparse.rising (s.setReg a w).dev = true := by
  unfold State.setReg
  split
  · exact Sparse.rising_erase _ _ h
  · exact Sparse.rising_put _ _ _ h

/-- A register reads as it was written, and every other as before. -/
theorem State.reg_setReg (s : State) (a b : Nat) (w : Word) (h : Sparse.rising s.dev = true) :
    (s.setReg a w).reg b = if b = a then w else s.reg b := by
  unfold State.setReg State.reg
  by_cases hw : w = RegMap.reset a
  · simp only [hw, if_true]
    rw [Sparse.get_erase a b _ h]
    by_cases hb : b = a <;> simp [hb]
  · simp only [hw, if_false]
    rw [Sparse.get_put]
    by_cases hb : b = a <;> simp [hb]

theorem State.rising_setFld (s : State) (a : Nat) (f : Fld) (v : Nat) (h : Sparse.rising s.dev = true) :
    Sparse.rising (s.setFld a f v).dev = true := State.rising_setReg _ _ _ h

theorem State.reg_setFld (s : State) (a b : Nat) (f : Fld) (v : Nat) (h : Sparse.rising s.dev = true) :
    (s.setFld a f v).reg b = if b = a then f.put v (s.reg a) else s.reg b := State.reg_setReg _ _ _ _ h

theorem State.rising_setFlds (s : State) (a : Nat) (l : List (Fld × Nat)) (h : Sparse.rising s.dev = true) :
    Sparse.rising (s.setFlds a l).dev = true := State.rising_setReg _ _ _ h

theorem State.reg_setFlds (s : State) (a b : Nat) (l : List (Fld × Nat)) (h : Sparse.rising s.dev = true) :
    (s.setFlds a l).reg b = if b = a then l.foldl (fun w p => p.1.put p.2 w) (s.reg a) else s.reg b := State.reg_setReg _ _ _ _ h

/-- What only the registers of the event controller may differ in. -/
def SameOutsideEvc (s t : State) : Prop :=
  { t with dev := s.dev, evc := s.evc } = s ∧ (Sparse.rising s.dev = true → Sparse.rising t.dev = true ∧ ∀ a, ¬ inEvc a → t.reg a = s.reg a)

theorem SameOutsideEvc.refl (s : State) : SameOutsideEvc s s := ⟨rfl, fun h => ⟨h, fun _ _ => rfl⟩⟩

theorem SameOutsideEvc.trans {s t u : State} (h : SameOutsideEvc s t) (k : SameOutsideEvc t u) : SameOutsideEvc s u := by
  obtain ⟨h1, h2⟩ := h
  obtain ⟨k1, k2⟩ := k
  refine ⟨?_, fun r => ?_⟩
  · cases s; cases t; cases u; simp_all
  · obtain ⟨r', h3⟩ := h2 r
    obtain ⟨r'', k3⟩ := k2 r'
    exact ⟨r'', fun a ha => (k3 a ha).trans (h3 a ha)⟩

theorem SameOutsideEvc.setReg (s : State) (a : Nat) (w : Word) (ha : inEvc a) : SameOutsideEvc s (s.setReg a w) := by
  refine ⟨rfl, fun h => ⟨State.rising_setReg _ _ _ h, fun b hb => ?_⟩⟩
  rw [State.reg_setReg _ _ _ _ h, if_neg]
  rintro rfl; exact hb ha

theorem SameOutsideEvc.evc (s : State) (e : Evc) : SameOutsideEvc s { s with evc := e } := ⟨rfl, fun h => ⟨h, fun _ _ => rfl⟩⟩

theorem mem_sourcesWith {s : State} {f : Fld} {n : Nat} (h : n ∈ s.sourcesWith f) : n < 1536 := by
  unfold State.sourcesWith at h
  rw [List.mem_filterMap] at h
  obtain ⟨p, -, hp⟩ := h
  split at hp
  · rename_i hc; cases hp; omega
  · cases hp

theorem SameOutsideEvc.fold (f : Fld) (v : Nat) (l : List Nat) (hl : ∀ n ∈ l, n < 1536) (s : State) :
    SameOutsideEvc s (l.foldl (fun s n => s.setFld (Reg.EVC_SSTAT n) f v) s) := by
  induction l generalizing s with
  | nil => exact .refl s
  | cons n t ih =>
    refine SameOutsideEvc.trans (.setReg s _ _ ?_) (ih (fun m hm => hl m (List.mem_cons_of_mem _ hm)) _)
    have := hl n (by simp)
    unfold inEvc Reg.EVC_SSTAT; omega

theorem State.releaseGroup_frame (s : State) (g : Nat) (hg : g < 256) : SameOutsideEvc s (s.releaseGroup g) := by
  unfold State.releaseGroup
  dsimp only
  refine SameOutsideEvc.trans (SameOutsideEvc.fold Fld.EVC_SSTAT_HELD 0
    ((s.sourcesWith Fld.EVC_SSTAT_HELD).filter (fun n => s.memberOf n g)) (fun n hn => mem_sourcesWith (List.mem_filter.mp hn).1) s) ?_
  refine SameOutsideEvc.trans (.setReg _ _ _ ?_) (.evc _ _)
  unfold inEvc Reg.EVC_GSTAT; omega

theorem Fld.get_lt (f : Fld) (w : Word) : f.get w < 2 ^ f.len := Nat.mod_lt _ (Nat.two_pow_pos _)

/-- An accepted occurrence changes nothing outside the event controller (R239, R253). -/
theorem State.accept_frame (s : State) (n : Nat) (hn : n < 1536) : SameOutsideEvc s (s.accept n) := by
  have h0 : inEvc (Reg.EVC_SSTAT n) := by unfold inEvc Reg.EVC_SSTAT; omega
  have key : ∀ (s t : State) (g : Nat) f v, g < 256 → SameOutsideEvc s t → SameOutsideEvc s (t.setFld (Reg.EVC_GSTAT g) f v) := by
    intro s t g f v hg h
    refine h.trans (.setReg t _ _ ?_)
    unfold inEvc Reg.EVC_GSTAT; omega
  have key0 : ∀ (s t : State) f v, SameOutsideEvc s t → SameOutsideEvc s (t.setFld (Reg.EVC_SSTAT n) f v) :=
    fun s t f v h => h.trans (.setReg t _ _ h0)
  have hlt : ∀ t : State, t.fld (Reg.EVC_SCFG n) Fld.EVC_SCFG_GRP < 256 := fun t => Fld.get_lt Fld.EVC_SCFG_GRP _
  have h1 := key0 s s Fld.EVC_SSTAT_PEND 1 (.refl s)
  unfold State.accept
  generalize s.setFld (Reg.EVC_SSTAT n) Fld.EVC_SSTAT_PEND 1 = t at h1 ⊢
  dsimp only
  have hgl := hlt t
  generalize t.fld (Reg.EVC_SCFG n) Fld.EVC_SCFG_GRP = g at hgl ⊢
  split
  · have h2 := key0 s t Fld.EVC_SSTAT_HELD 1 h1
    generalize t.setFld (Reg.EVC_SSTAT n) Fld.EVC_SSTAT_HELD 1 = u at h2 ⊢
    have h3 : ∀ w, SameOutsideEvc s w → SameOutsideEvc s
        (if Fld.EVC_GCFG_COUNT.get ((w.setFld (Reg.EVC_GSTAT g) Fld.EVC_GSTAT_COUNT (w.fld (Reg.EVC_GSTAT g) Fld.EVC_GSTAT_COUNT + 1)).reg
              (Reg.EVC_GCFG g)) ≤ w.fld (Reg.EVC_GSTAT g) Fld.EVC_GSTAT_COUNT + 1
          then (w.setFld (Reg.EVC_GSTAT g) Fld.EVC_GSTAT_COUNT (w.fld (Reg.EVC_GSTAT g) Fld.EVC_GSTAT_COUNT + 1)).releaseGroup g
          else w.setFld (Reg.EVC_GSTAT g) Fld.EVC_GSTAT_COUNT (w.fld (Reg.EVC_GSTAT g) Fld.EVC_GSTAT_COUNT + 1)) := by
      intro w h
      have h' := key s w g Fld.EVC_GSTAT_COUNT (w.fld (Reg.EVC_GSTAT g) Fld.EVC_GSTAT_COUNT + 1) hgl h
      split
      · exact h'.trans (State.releaseGroup_frame _ _ hgl)
      · exact h'
    refine h3 _ ?_
    split
    · exact h2
    · split
      · exact key s u g _ _ hgl h2
      · exact (key s u g _ _ hgl h2).trans (.evc _ _)
  · exact h1

/-- A signalled event changes nothing outside the event controller (R27, R239). -/
theorem State.raise_frame (s : State) (n : Nat) (hn : n < 1536) : SameOutsideEvc s (s.raise n) := by
  unfold State.raise
  split
  · exact State.accept_frame s n hn
  · exact .evc _ _

end Sys2Proof.Machine
end

