-- ==== Sys2Proof/Laws/Encoding.lean ====
section
/-! SUPPORT. The fields of the words that the encoder builds, read back by the decoder's field reader. -/

namespace Sys2Proof.Hymota
open Machine

/-- The fields of a word in the R format. -/
theorem wordR_fields (op : Nat) (rd rs1 rs2 : Gpr) (fn : Nat) (ho : op < 64) (hf : fn < 2048) :
    bits (wordR op rd rs1 rs2 fn) 26 6 = op ∧ bits (wordR op rd rs1 rs2 fn) 21 5 = rd.toNat ∧
    bits (wordR op rd rs1 rs2 fn) 16 5 = rs1.toNat ∧ bits (wordR op rd rs1 rs2 fn) 11 5 = rs2.toNat ∧
    bits (wordR op rd rs1 rs2 fn) 0 11 = fn := by
  have h1 := rd.isLt
  have h2 := rs1.isLt
  have h3 := rs2.isLt
  simp only [bits, wordR, BitVec.toNat_ofNat]
  omega

/-- The fields of a word in the I and S formats. -/
theorem wordI_fields (op : Nat) (r rs1 : Gpr) (imm : BitVec 16) (ho : op < 64) :
    bits (wordI op r rs1 imm) 26 6 = op ∧ bits (wordI op r rs1 imm) 21 5 = r.toNat ∧
    bits (wordI op r rs1 imm) 16 5 = rs1.toNat ∧ bits (wordI op r rs1 imm) 0 16 = imm.toNat := by
  have h1 := r.isLt
  have h2 := rs1.isLt
  have h3 := imm.isLt
  simp only [bits, wordI, BitVec.toNat_ofNat]
  omega

/-- The fields of a word in the B format. -/
theorem wordB_fields (op : Nat) (rs1 rs2 : Gpr) (a : Bool) (d : BitVec 15) (ho : op < 64) :
    bits (wordB op rs1 rs2 a d) 26 6 = op ∧ bits (wordB op rs1 rs2 a d) 21 5 = rs1.toNat ∧
    bits (wordB op rs1 rs2 a d) 16 5 = rs2.toNat ∧ bits (wordB op rs1 rs2 a d) 15 1 = a.toNat ∧
    bits (wordB op rs1 rs2 a d) 0 15 = d.toNat := by
  have h1 := rs1.isLt
  have h2 := rs2.isLt
  have h3 := d.isLt
  have h4 : a.toNat < 2 := by cases a <;> decide
  simp only [bits, wordB, BitVec.toNat_ofNat]
  omega

/-- A word of an instruction in the R format decodes by its operation code from its fields. -/
theorem decode_wordR (c : Ctx) (op : Nat) (rd rs1 rs2 : Gpr) (fn : Nat) (ho : op < 64) (hf : fn < 2048) :
    decode c (wordR op rd rs1 rs2 fn) =
      match op with
      | 0x00 => decodeAlu c rd rs1 rs2 fn
      | 0x01 => decodeMulDiv c rd rs1 rs2 fn
      | 0x02 => decodeShift c rd rs1 rs2 fn
      | 0x03 => decodeP24 c rd rs1 rs2 fn
      | 0x04 => decodeFp c false rd rs1 rs2 fn
      | 0x05 => decodeFp c true rd rs1 rs2 fn
      | 0x06 => decodeCvt c rd rs1 rs2 fn
      | 0x2A => decodeJx c rd rs1 rs2 fn
      | 0x2C => decodeBrpt c rd rs1 rs2 fn
      | 0x2D => decodeAtom c rd rs1 rs2 fn
      | 0x2E => decodeFence c rd rs1 rs2 fn
      | 0x2F => decodePinx c rd rs1 rs2 fn
      | 0x30 => decodeSys c rd rs1 rs2 fn
      | _ => decode c (wordR op rd rs1 rs2 fn) := by
  obtain ⟨e1, e2, e3, e4, e5⟩ := wordR_fields op rd rs1 rs2 fn ho hf
  split <;> first | rfl | (unfold decode; simp only [e1, e2, e3, e4, e5, BitVec.ofNat_toNat, BitVec.setWidth_eq])

end Sys2Proof.Hymota
end

