-- ==== Sys2Proof/Laws/Instr.lean ====
section
/-! SUPPORT. What the frame of every Hymota instruction does, said once: the fetch, an instruction that issues, its completion, and a
computed result. -/

namespace Sys2Proof.Machine

/-- Putting back what a core held changes nothing. -/
theorem State.setCore_self (s : State) (k : Fin 16) : s.setCore k (s.core k) = s := by
  simp only [State.setCore, State.core, Vector.set_getElem_self]

/-- The last of two changes of a core stays. -/
@[simp] theorem State.setCore_setCore (s : State) (k : Fin 16) (a b : Core) : (s.setCore k a).setCore k b = s.setCore k b := by
  simp [State.setCore]

theorem SameButFetch.refl (s : State) (k : Fin 16) : SameButFetch s s k := (State.setCore_self s k).symm

/-- What a quiet fetch and the taking of the slot leave (R78, R80): the context's core with its TLBs and instruction cache in another order,
and its reclaim pointer. -/
def Issued (s t : State) (c : Ctx) : Prop :=
  t = s.setCore (coreOf c) { (s.takeGrant c).core (coreOf c) with
    itlb := (t.core (coreOf c)).itlb, tlb2 := (t.core (coreOf c)).tlb2, l1i := (t.core (coreOf c)).l1i }

theorem State.takeGrant_eq (s : State) (c : Ctx) :
    s.takeGrant c = s.setCore (coreOf c) { s.core (coreOf c) with reclaim := ((s.takeGrant c).core (coreOf c)).reclaim } := by
  unfold State.takeGrant
  split
  · exact (State.setCore_self s _).symm
  · simp

/-- Whose slots a core's cycles offer does not depend on its caches (R78, R81). -/
theorem State.ownsSlot_setCore (s : State) (c : Ctx) (k : Fin 16) (x : Core) (h : x.wheelFrom = (s.core k).wheelFrom) :
    (s.setCore k x).ownsSlot c = s.ownsSlot c := by
  unfold State.ownsSlot State.openCycles
  have e : ((s.setCore k x).core (coreOf c)).wheelFrom = (s.core (coreOf c)).wheelFrom := by
    rw [State.core_setCore]
    split
    · rename_i hk; rw [h, hk]
    · rfl
  rw [e]
  rfl

/-- A context of which nothing is held issues on the state as it is. -/
theorem State.reissue_quiet (s : State) (c : Ctx) (h : s.fetchesQuietly c) : s.reissue c = s := by
  obtain ⟨hw, ha, -⟩ := h
  unfold State.reissue State.forget
  rw [hw, if_neg (by decide), if_neg]
  rw [Bool.not_eq_true, List.any_eq_false]
  exact fun q hq => by simpa using ha q hq

/-- A quiet fetch leaves the fetched state. -/
theorem State.fetched_issued (s : State) (c : Ctx) (h : s.fetchesQuietly c) : Issued s (s.fetched c) c := by
  have h2 := h.2.2.2
  unfold State.fetched
  generalize (s.fetch c).2 = t at h2 ⊢
  unfold SameButFetch at h2
  unfold Issued State.takeGrant
  have ho : t.ownsSlot c = s.ownsSlot c := by rw [h2]; exact s.ownsSlot_setCore c _ _ rfl
  rw [ho]
  by_cases hs : s.ownsSlot c = true
  · simp only [hs, if_true]; exact h2
  · simp only [hs]
    rw [h2]
    simp [State.setCore_setCore]

@[simp] theorem Issued.ctx {s t : State} {c : Ctx} (h : Issued s t c) (d : Ctx) : t.ctx d = s.ctx d := by
  rw [h]; rfl

theorem State.fetched_ctx (s : State) (c d : Ctx) (h : s.fetchesQuietly c) : (s.fetched c).ctx d = s.ctx d :=
  (s.fetched_issued c h).ctx d

/-- The target buffer's lookup leaves the contexts. -/
@[simp] theorem State.tbLookup_ctx (s : State) (c d : Ctx) : (s.tbLookup c).ctx d = s.ctx d := by
  unfold State.tbLookup
  simp only
  split
  · split <;> rfl
  · rfl

/-- An instruction that issues acts on the fetched state, in which an indirect transfer has looked its target up (R89). -/
theorem State.instr_issued (s : State) (c : Ctx) (k : IKind) (body : State → State) (h : s.issues c k) :
    s.instr c k none body = body (if k = .indirect then (s.fetched c).tbLookup c else s.fetched c) := by
  obtain ⟨⟨h1, h2, h3, h4, h5, h6, h7⟩, h8, h9⟩ := h
  have hx : (s.fetched c).ctx c = s.ctx c := s.fetched_ctx c c h7
  unfold State.instr State.issue State.fetched at *
  rw [s.reissue_quiet c h7]
  simp only [h1, h2, h3, h4, h5, h6, Bool.not_true, Bool.or_self, Bool.false_eq_true, if_false, ne_eq, not_true_eq_false, decide_false,
    Bool.false_and]
  have h10 := h7.2.2.1
  cases hf : s.fetch c with
  | mk f t =>
    rw [hf] at h10 hx
    cases f <;> simp [Fetch.found] at h10
    have e1 : ((s.ctx c).slot && decide (k ≠ .plain)) = false := by
      rcases h8 with h | h <;> simp [h]
    have e2 : (decide ((s.ctx c).pc = (s.ctx c).le) && decide ((s.ctx c).lc ≠ 0) &&
        ((s.ctx c).slot || decide (k = .branch) || decide (k = .indirect))) = false := by
      rcases h9 with h | h | ⟨h, h', h''⟩
      · simp only [h, decide_false, Bool.false_and]
      · simp only [h, ne_eq, not_true_eq_false, decide_false, Bool.and_false, Bool.false_and]
      · simp only [h, h', h'', decide_false, Bool.or_self, Bool.and_false]
    dsimp only at hx ⊢
    have hy : (if k = .indirect then (t.takeGrant c).tbLookup c else t.takeGrant c).ctx c = s.ctx c := by
      split
      · rw [State.tbLookup_ctx, hx]
      · exact hx
    rw [hy, e1, e2]
    simp only [Bool.false_eq_true, if_false]

/-- An instruction that issues, and is no indirect transfer, acts on the fetched state. -/
theorem State.instr_of_issues (s : State) (c : Ctx) (k : IKind) (body : State → State) (h : s.issues c k) (hk : k ≠ .indirect) :
    s.instr c k none body = body (s.fetched c) := by
  rw [s.instr_issued c k body h, if_neg hk]

/-- The rules of delay slots and loop ends are the same for a direct and an indirect transfer (R85, R121). -/
theorem State.issues_indirect (s : State) (c : Ctx) : s.issues c .indirect ↔ s.issues c .branch := by
  unfold State.issues
  simp

/-- A privileged instruction that issues where it may execute acts on the fetched state. -/
theorem State.instr_privileged (s : State) (c : Ctx) (k : IKind) (body : State → State) (h : s.issues c k) (hk : k ≠ .indirect)
    (hp : s.mayPrivileged c) :
    s.instr c k (s.privileged c 0) body = body (s.fetched c) := by
  have : s.privileged c 0 = none := by
    unfold State.privileged
    rcases hp with h | h <;> simp [h]
  rw [this, s.instr_of_issues c k body h hk]

theorem Context.complete_sequenced (x : Context) (cost : Nat) : Sequenced x (x.complete cost false false none) cost := by
  unfold Sequenced Context.complete Context.follows Context.loopDecision
  by_cases h1 : x.slot = false <;> by_cases h2 : x.pc = x.le <;> by_cases h3 : x.lc = 0 <;> by_cases h4 : x.lc = 1 <;> simp_all

theorem Context.complete_rest (x : Context) (cost : Nat) : SameRest x (x.complete cost false false none) := by
  unfold SameRest Context.complete
  simp only
  split <;> rfl

/-- A transfer completes: its delay slot is next, then `after`. -/
theorem Context.complete_transferred (x : Context) (cost : Nat) (an : Bool) (r : Option VAddr) :
    Transferred x (x.complete cost true an r) cost (r.getD (x.npc + 4)) an := by
  unfold Transferred Context.complete
  cases r <;> simp

theorem Context.complete_branch_rest (x : Context) (cost : Nat) (an : Bool) (r : Option VAddr) :
    SameRest x (x.complete cost true an r) := by
  unfold SameRest Context.complete
  cases r <;> rfl

theorem SameRegs.of_g {x y : Context} (h : y.g = x.g) : SameRegs x y := by
  intro r; simp [Context.rg, h]

@[simp] theorem Context.complete_g (x : Context) (cost : Nat) (b a : Bool) (r : Option VAddr) : (x.complete cost b a r).g = x.g := by
  unfold Context.complete
  cases r <;> simp only
  split <;> rfl

@[simp] theorem Context.complete_flags (x : Context) (cost : Nat) (b a : Bool) (r : Option VAddr) : (x.complete cost b a r).flags = x.flags := by
  unfold Context.complete
  cases r <;> simp only
  split <;> rfl

theorem Context.rg_wg (x : Context) (rd : Gpr) (v : Dword) : WroteReg x (x.wg rd v) rd v := by
  intro r
  unfold Context.rg Context.wg
  by_cases h0 : r = 0
  · simp only [h0, if_true]
  · rw [if_neg h0, if_neg h0, if_neg h0]
    by_cases hd : rd = 0
    · rw [if_pos hd, if_neg (fun h => h0 (h.trans hd))]
    · rw [if_neg hd]
      simp only [Vector.getElem_set]
      by_cases hr : r = rd
      · rw [if_pos (congrArg _ hr.symm), if_pos hr]
      · rw [if_neg (fun h => hr (BitVec.eq_of_toNat_eq h.symm)), if_neg hr]

/-- A change of one context of the fetched state leaves the rest of the machine. -/
theorem SameMachine.of_setCtx {s t : State} {c : Ctx} (h : Issued s t c) (y : Context) : SameMachine s (t.setCtx c y) c := by
  obtain ⟨a, b, l, rfl⟩ : ∃ a b l, t = s.setCore (coreOf c) { (s.takeGrant c).core (coreOf c) with itlb := a, tlb2 := b, l1i := l } :=
    ⟨_, _, _, h⟩
  have hg : ∃ r, (s.takeGrant c).core (coreOf c) = { s.core (coreOf c) with reclaim := r } := by
    unfold State.takeGrant
    split
    · exact ⟨_, rfl⟩
    · exact ⟨_, (State.core_setCore _ _ _ _).trans (if_pos rfl)⟩
  obtain ⟨r, hr⟩ := hg
  unfold SameMachine
  refine ⟨rfl, fun k hk => ?_, ?_⟩
  · rw [State.core_setCtx, State.core_setCore, if_neg hk]
  · rw [State.core_setCtx, State.core_setCore, if_pos rfl, hr]

theorem SameOthers.of_setCtx {s t : State} {c : Ctx} (h : Issued s t c) (y : Context) : SameOthers s (t.setCtx c y) c := by
  intro d hd
  rw [State.ctx_setCtx, if_neg hd, h.ctx]

/-- A computed result, once for every instruction of that shape. -/
theorem State.computeF_computed (s : State) (c : Ctx) (cost : Nat) (rd : Gpr) (f : Context → Dword) (fl : Context → CFlags)
    (h : s.issues c .plain) : Computed s (s.computeF c cost rd f fl) c rd (f (s.ctx c)) (fl (s.ctx c)) cost := by
  have hf := s.fetched_issued c h.1.2.2.2.2.2.2
  unfold State.computeF
  rw [s.instr_of_issues c .plain _ h (by decide)]
  simp only [State.done, hf.ctx, State.ctx_setCtx_self]
  have e : ∀ (u : State) (a b : Context), (u.setCtx c a).setCtx c b = u.setCtx c b := by
    intro u a b; simp [State.setCtx]
  rw [e]
  have hw := Context.rg_wg (s.ctx c) rd (f (s.ctx c))
  have hx : ∃ g, (s.ctx c).wg rd (f (s.ctx c)) = { s.ctx c with g := g } := by
    unfold Context.wg; split
    · exact ⟨_, rfl⟩
    · exact ⟨_, rfl⟩
  obtain ⟨g, hg⟩ := hx
  refine ⟨?_, ?_, ?_, ?_, SameOthers.of_setCtx hf _, SameMachine.of_setCtx hf _⟩
  · intro r
    rw [← hw r]
    simp [Context.rg]
  · simp
  · have := Context.complete_sequenced { (s.ctx c).wg rd (f (s.ctx c)) with flags := fl (s.ctx c) } cost
    rw [State.ctx_setCtx_self, hg]
    rw [hg] at this
    exact this
  · have := Context.complete_rest { (s.ctx c).wg rd (f (s.ctx c)) with flags := fl (s.ctx c) } cost
    rw [State.ctx_setCtx_self]
    rw [hg] at this ⊢
    unfold SameRest at this ⊢
    simp only at this ⊢
    rw [Context.mk.injEq] at this ⊢
    simp_all

theorem State.compute_computed (s : State) (c : Ctx) (cost : Nat) (rd : Gpr) (f : Context → Dword)
    (h : s.issues c .plain) : Computed s (s.compute c cost rd f) c rd (f (s.ctx c)) (s.ctx c).flags cost := by
  have := s.computeF_computed c cost rd f (fun x => x.flags) h
  have e : s.computeF c cost rd f (fun x => x.flags) = s.compute c cost rd f := by
    unfold State.computeF State.compute State.wg
    congr 1
    funext u
    simp only
    congr 2
    unfold Context.wg
    split <;> rfl
  rwa [e] at this

/-- The last of two changes of a context stays. -/
@[simp] theorem State.setCtx_setCtx (s : State) (c : Ctx) (a b : Context) : (s.setCtx c a).setCtx c b = s.setCtx c b := by
  simp [State.setCtx]

/-- A branch that issues, once for all of them. -/
theorem State.branch_branched (s : State) (c : Ctx) (an taken : Bool) (t : VAddr) (cond : Bool) (h : s.fetchesQuietly c) :
    Branched s ((s.fetched c).branch c an taken t cond) c taken an t
      (if cond && decide (t.toNat ≤ (s.ctx c).pc.toNat) != taken then 3 else 1) := by
  have hf := s.fetched_issued c h
  unfold State.branch
  simp only [hf.ctx]
  refine ⟨?_, ?_, ?_, ?_, SameOthers.of_setCtx hf _, SameMachine.of_setCtx hf _⟩
  · rw [State.ctx_setCtx_self]; exact SameRegs.of_g (by simp)
  · rw [State.ctx_setCtx_self]; simp
  · rw [State.ctx_setCtx_self]
    have := (s.ctx c).complete_transferred (if cond && decide (t.toNat ≤ (s.ctx c).pc.toNat) != taken then 3 else 1)
      (an && !taken) (if taken then some t else none)
    cases taken <;> simpa using this
  · rw [State.ctx_setCtx_self]; exact Context.complete_branch_rest _ _ _ _

end Sys2Proof.Machine
end

