-- ==== Sys2Proof/Laws/PerInstr.lean ====
section
/-! SUPPORT. The statements made command by command. `Encoding`: the word that a well-formed command encodes to decodes to it. -/

namespace Sys2Proof.Laws.Encoding
open Machine

/-- The word that a well-formed command encodes to, where it has one, decodes to it (R132 to R166). -/
def Statement (i : Instr) : Prop := i.wf = true → ∀ w, Hymota.encode i = some w → ∃ c, Hymota.decode c w = some i

/-- A command that has no word. -/
theorem of_none (i : Instr) (h : Hymota.encode i = none) : Statement i := by
  intro _ w hw
  rw [h] at hw
  cases hw

/-- A command whose word decodes to it. -/
theorem of_decode (i : Instr) (c : Ctx) (w : Word) (h : Hymota.encode i = some w)
    (hd : i.wf = true → Hymota.decode c w = some i) : Statement i := by
  intro hw w' hw'
  rw [h] at hw'
  cases hw'
  exact ⟨c, hd hw⟩

theorem two_bits (x : BitVec 2) : x = 0 ∨ x = 1 ∨ x = 2 ∨ x = 3 := by revert x; decide

theorem fabricRequest (r : Request) : Statement (.fabricRequest r) := of_none _ rfl

theorem fabricMemoryResponse (t : Fin 37) (upsets : Upsets) : Statement (.fabricMemoryResponse t upsets) := of_none _ rfl

theorem ddrReadResponse (ch : Fin 4) (slot : Fin 64) (upsets : Upsets) : Statement (.ddrReadResponse ch slot upsets) := of_none _ rfl

theorem registerWrite (who : Who) (addr : Nat) (data : Word) (hwSet : Word) : Statement (.registerWrite who addr data hwSet) := of_none _ rfl

theorem blockClearingEnd (b : Block) : Statement (.blockClearingEnd b) := of_none _ rfl

theorem dtadjWrite (who : Who) (data : Word) : Statement (.dtadjWrite who data) := of_none _ rfl

theorem dtinclWrite (who : Who) (data : Word) : Statement (.dtinclWrite who data) := of_none _ rfl

theorem dtstepRequest (who : Who) (data : Word) : Statement (.dtstepRequest who data) := of_none _ rfl

theorem dtstepAct : Statement (.dtstepAct) := of_none _ rfl

theorem dtfRead (who : Who) : Statement (.dtfRead who) := of_none _ rfl

theorem periodStart (l : Fin 16) (upsets : Upsets) : Statement (.periodStart l upsets) := of_none _ rfl

theorem psqNop (l : Fin 16) : Statement (.psqNop l) := of_none _ rfl

theorem psqEnd (l : Fin 16) : Statement (.psqEnd l) := of_none _ rfl

theorem psqHalt (l : Fin 16) : Statement (.psqHalt l) := of_none _ rfl

theorem psqSel (l : Fin 16) : Statement (.psqSel l) := of_none _ rfl

theorem psqRep (l : Fin 16) : Statement (.psqRep l) := of_none _ rfl

theorem psqUnimplementedOp (l : Fin 16) : Statement (.psqUnimplementedOp l) := of_none _ rfl

theorem psqWake (l : Fin 16) : Statement (.psqWake l) := of_none _ rfl

theorem psqShut (l : Fin 16) : Statement (.psqShut l) := of_none _ rfl

theorem psqPress (l : Fin 16) : Statement (.psqPress l) := of_none _ rfl

theorem psqGate (l : Fin 16) : Statement (.psqGate l) := of_none _ rfl

theorem psqMix (l : Fin 16) : Statement (.psqMix l) := of_none _ rfl

theorem psqWreg (l : Fin 16) : Statement (.psqWreg l) := of_none _ rfl

theorem psqRaise (l : Fin 16) : Statement (.psqRaise l) := of_none _ rfl

theorem completionRecognised (l : Fin 16) (k : Nat) : Statement (.completionRecognised l k) := of_none _ rfl

theorem jdoneWrite (who : Who) (data : Word) : Statement (.jdoneWrite who data) := of_none _ rfl

theorem swapFlip (who : Who) (data : Word) : Statement (.swapFlip who data) := of_none _ rfl

theorem laneStart (who : Who) (l : Fin 16) : Statement (.laneStart who l) := of_none _ rfl

theorem laneStop (who : Who) (l : Fin 16) : Statement (.laneStop who l) := of_none _ rfl

theorem laneFinish (who : Who) (l : Fin 16) : Statement (.laneFinish who l) := of_none _ rfl

theorem laneStopped (l : Fin 16) : Statement (.laneStopped l) := of_none _ rfl

theorem wheelWrite (who : Who) (k : Fin 16) (data : Word) : Statement (.wheelWrite who k data) := of_none _ rfl

theorem wheelApplied (k : Fin 16) : Statement (.wheelApplied k) := of_none _ rfl

theorem cctlWrite (who : Who) (c : Ctx) (data : Word) : Statement (.cctlWrite who c data) := of_none _ rfl

theorem targetBufferFlush (who : Who) (k : Fin 16) : Statement (.targetBufferFlush who k) := of_none _ rfl

theorem contextStart (who : Who) (c : Ctx) : Statement (.contextStart who c) := of_none _ rfl

theorem contextKill (who : Who) (c : Ctx) : Statement (.contextKill who c) := of_none _ rfl

theorem killComplete (c : Ctx) : Statement (.killComplete c) := of_none _ rfl

theorem lockstepMismatch (kind : BitVec 3) : Statement (.lockstepMismatch kind) := of_none _ rfl

theorem haltRequest (who : Who) (w : Fin 4) (data : Word) : Statement (.haltRequest who w data) := of_none _ rfl

theorem contextHalt (c : Ctx) : Statement (.contextHalt c) := of_none _ rfl

theorem contextResume (who : Who) (w : Fin 4) (data : Word) : Statement (.contextResume who w data) := of_none _ rfl

theorem dbgRdatlRead (who : Who) : Statement (.dbgRdatlRead who) := of_none _ rfl

theorem dbgRdatlWrite (who : Who) (data : Word) : Statement (.dbgRdatlWrite who data) := of_none _ rfl

theorem tapBypass (code : BitVec 4) : Statement (.tapBypass code) := of_none _ rfl

theorem tapIdcode : Statement (.tapIdcode) := of_none _ rfl

theorem dbgaccUpdate (dr : BitVec 73) : Statement (.dbgaccUpdate dr) := of_none _ rfl

theorem dbgaccCapture : Statement (.dbgaccCapture) := of_none _ rfl

theorem add (c : Ctx) (sf : Bool) (rd : Gpr) (rs1 : Gpr) (rs2 : Gpr) : Statement (.add c sf rd rs1 rs2) := by
  cases sf <;>
  (refine of_decode _ c _ rfl (fun _ => ?_)
   rw [Hymota.decode_wordR c _ _ _ _ _ (by decide) (by decide)]
   rfl)

theorem sub (c : Ctx) (sf : Bool) (rd : Gpr) (rs1 : Gpr) (rs2 : Gpr) : Statement (.sub c sf rd rs1 rs2) := by
  cases sf <;>
  (refine of_decode _ c _ rfl (fun _ => ?_)
   rw [Hymota.decode_wordR c _ _ _ _ _ (by decide) (by decide)]
   rfl)

theorem addc (c : Ctx) (sf : Bool) (rd : Gpr) (rs1 : Gpr) (rs2 : Gpr) : Statement (.addc c sf rd rs1 rs2) := by
  cases sf <;>
  (refine of_decode _ c _ rfl (fun _ => ?_)
   rw [Hymota.decode_wordR c _ _ _ _ _ (by decide) (by decide)]
   rfl)

theorem subc (c : Ctx) (sf : Bool) (rd : Gpr) (rs1 : Gpr) (rs2 : Gpr) : Statement (.subc c sf rd rs1 rs2) := by
  cases sf <;>
  (refine of_decode _ c _ rfl (fun _ => ?_)
   rw [Hymota.decode_wordR c _ _ _ _ _ (by decide) (by decide)]
   rfl)

theorem andR (c : Ctx) (sf : Bool) (rd : Gpr) (rs1 : Gpr) (rs2 : Gpr) : Statement (.andR c sf rd rs1 rs2) := by
  cases sf <;>
  (refine of_decode _ c _ rfl (fun _ => ?_)
   rw [Hymota.decode_wordR c _ _ _ _ _ (by decide) (by decide)]
   rfl)

theorem orR (c : Ctx) (sf : Bool) (rd : Gpr) (rs1 : Gpr) (rs2 : Gpr) : Statement (.orR c sf rd rs1 rs2) := by
  cases sf <;>
  (refine of_decode _ c _ rfl (fun _ => ?_)
   rw [Hymota.decode_wordR c _ _ _ _ _ (by decide) (by decide)]
   rfl)

theorem xorR (c : Ctx) (sf : Bool) (rd : Gpr) (rs1 : Gpr) (rs2 : Gpr) : Statement (.xorR c sf rd rs1 rs2) := by
  cases sf <;>
  (refine of_decode _ c _ rfl (fun _ => ?_)
   rw [Hymota.decode_wordR c _ _ _ _ _ (by decide) (by decide)]
   rfl)

theorem andn (c : Ctx) (sf : Bool) (rd : Gpr) (rs1 : Gpr) (rs2 : Gpr) : Statement (.andn c sf rd rs1 rs2) := by
  cases sf <;>
  (refine of_decode _ c _ rfl (fun _ => ?_)
   rw [Hymota.decode_wordR c _ _ _ _ _ (by decide) (by decide)]
   rfl)

theorem orn (c : Ctx) (sf : Bool) (rd : Gpr) (rs1 : Gpr) (rs2 : Gpr) : Statement (.orn c sf rd rs1 rs2) := by
  cases sf <;>
  (refine of_decode _ c _ rfl (fun _ => ?_)
   rw [Hymota.decode_wordR c _ _ _ _ _ (by decide) (by decide)]
   rfl)

theorem slt (c : Ctx) (rd : Gpr) (rs1 : Gpr) (rs2 : Gpr) : Statement (.slt c rd rs1 rs2) := by
  (refine of_decode _ c _ rfl (fun _ => ?_)
   rw [Hymota.decode_wordR c _ _ _ _ _ (by decide) (by decide)]
   rfl)

theorem sltu (c : Ctx) (rd : Gpr) (rs1 : Gpr) (rs2 : Gpr) : Statement (.sltu c rd rs1 rs2) := by
  (refine of_decode _ c _ rfl (fun _ => ?_)
   rw [Hymota.decode_wordR c _ _ _ _ _ (by decide) (by decide)]
   rfl)

theorem minS (c : Ctx) (rd : Gpr) (rs1 : Gpr) (rs2 : Gpr) : Statement (.minS c rd rs1 rs2) := by
  (refine of_decode _ c _ rfl (fun _ => ?_)
   rw [Hymota.decode_wordR c _ _ _ _ _ (by decide) (by decide)]
   rfl)

theorem maxS (c : Ctx) (rd : Gpr) (rs1 : Gpr) (rs2 : Gpr) : Statement (.maxS c rd rs1 rs2) := by
  (refine of_decode _ c _ rfl (fun _ => ?_)
   rw [Hymota.decode_wordR c _ _ _ _ _ (by decide) (by decide)]
   rfl)

theorem minu (c : Ctx) (rd : Gpr) (rs1 : Gpr) (rs2 : Gpr) : Statement (.minu c rd rs1 rs2) := by
  (refine of_decode _ c _ rfl (fun _ => ?_)
   rw [Hymota.decode_wordR c _ _ _ _ _ (by decide) (by decide)]
   rfl)

theorem maxu (c : Ctx) (rd : Gpr) (rs1 : Gpr) (rs2 : Gpr) : Statement (.maxu c rd rs1 rs2) := by
  (refine of_decode _ c _ rfl (fun _ => ?_)
   rw [Hymota.decode_wordR c _ _ _ _ _ (by decide) (by decide)]
   rfl)

theorem addw (c : Ctx) (sf : Bool) (rd : Gpr) (rs1 : Gpr) (rs2 : Gpr) : Statement (.addw c sf rd rs1 rs2) := by
  cases sf <;>
  (refine of_decode _ c _ rfl (fun _ => ?_)
   rw [Hymota.decode_wordR c _ _ _ _ _ (by decide) (by decide)]
   rfl)

theorem subw (c : Ctx) (sf : Bool) (rd : Gpr) (rs1 : Gpr) (rs2 : Gpr) : Statement (.subw c sf rd rs1 rs2) := by
  cases sf <;>
  (refine of_decode _ c _ rfl (fun _ => ?_)
   rw [Hymota.decode_wordR c _ _ _ _ _ (by decide) (by decide)]
   rfl)

theorem sextb (c : Ctx) (rd : Gpr) (rs1 : Gpr) : Statement (.sextb c rd rs1) := by
  (refine of_decode _ c _ rfl (fun _ => ?_)
   rw [Hymota.decode_wordR c _ _ _ _ _ (by decide) (by decide)]
   rfl)

theorem sexth (c : Ctx) (rd : Gpr) (rs1 : Gpr) : Statement (.sexth c rd rs1) := by
  (refine of_decode _ c _ rfl (fun _ => ?_)
   rw [Hymota.decode_wordR c _ _ _ _ _ (by decide) (by decide)]
   rfl)

theorem sextw (c : Ctx) (rd : Gpr) (rs1 : Gpr) : Statement (.sextw c rd rs1) := by
  (refine of_decode _ c _ rfl (fun _ => ?_)
   rw [Hymota.decode_wordR c _ _ _ _ _ (by decide) (by decide)]
   rfl)

theorem zextb (c : Ctx) (rd : Gpr) (rs1 : Gpr) : Statement (.zextb c rd rs1) := by
  (refine of_decode _ c _ rfl (fun _ => ?_)
   rw [Hymota.decode_wordR c _ _ _ _ _ (by decide) (by decide)]
   rfl)

theorem zexth (c : Ctx) (rd : Gpr) (rs1 : Gpr) : Statement (.zexth c rd rs1) := by
  (refine of_decode _ c _ rfl (fun _ => ?_)
   rw [Hymota.decode_wordR c _ _ _ _ _ (by decide) (by decide)]
   rfl)

theorem zextw (c : Ctx) (rd : Gpr) (rs1 : Gpr) : Statement (.zextw c rd rs1) := by
  (refine of_decode _ c _ rfl (fun _ => ?_)
   rw [Hymota.decode_wordR c _ _ _ _ _ (by decide) (by decide)]
   rfl)

theorem clz (c : Ctx) (rd : Gpr) (rs1 : Gpr) : Statement (.clz c rd rs1) := by
  (refine of_decode _ c _ rfl (fun _ => ?_)
   rw [Hymota.decode_wordR c _ _ _ _ _ (by decide) (by decide)]
   rfl)

theorem ctz (c : Ctx) (rd : Gpr) (rs1 : Gpr) : Statement (.ctz c rd rs1) := by
  (refine of_decode _ c _ rfl (fun _ => ?_)
   rw [Hymota.decode_wordR c _ _ _ _ _ (by decide) (by decide)]
   rfl)

theorem popc (c : Ctx) (rd : Gpr) (rs1 : Gpr) : Statement (.popc c rd rs1) := by
  (refine of_decode _ c _ rfl (fun _ => ?_)
   rw [Hymota.decode_wordR c _ _ _ _ _ (by decide) (by decide)]
   rfl)

theorem bswap (c : Ctx) (rd : Gpr) (rs1 : Gpr) : Statement (.bswap c rd rs1) := by
  (refine of_decode _ c _ rfl (fun _ => ?_)
   rw [Hymota.decode_wordR c _ _ _ _ _ (by decide) (by decide)]
   rfl)

theorem cpick (c : Ctx) (cond : BitVec 4) (rd : Gpr) (rs1 : Gpr) (rs2 : Gpr) : Statement (.cpick c cond rd rs1 rs2) := by
  refine of_decode _ c _ rfl (fun _ => ?_)
  have hc := cond.isLt
  rw [Hymota.decode_wordR c _ _ _ _ _ (by decide) (by omega)]
  simp only [Hymota.decodeAlu]
  rw [show (cond.toNat * 64 + 28) % 64 = 28 by omega, show (cond.toNat * 64 + 28) / 64 % 16 = cond.toNat by omega,
    show (cond.toNat * 64 + 28) / 1024 = 0 by omega]
  simp [Hymota.when]

theorem addi (c : Ctx) (rd : Gpr) (rs1 : Gpr) (imm : BitVec 16) : Statement (.addi c rd rs1 imm) := by
  refine of_decode _ c _ rfl (fun _ => ?_)
  obtain ⟨e1, e2, e3, e4⟩ := Hymota.wordI_fields 8 rd rs1 imm (by decide)
  unfold Hymota.decode
  simp [e1, e2, e3, e4]

theorem andi (c : Ctx) (rd : Gpr) (rs1 : Gpr) (imm : BitVec 16) : Statement (.andi c rd rs1 imm) := by
  refine of_decode _ c _ rfl (fun _ => ?_)
  obtain ⟨e1, e2, e3, e4⟩ := Hymota.wordI_fields 9 rd rs1 imm (by decide)
  unfold Hymota.decode
  simp [e1, e2, e3, e4]

theorem ori (c : Ctx) (rd : Gpr) (rs1 : Gpr) (imm : BitVec 16) : Statement (.ori c rd rs1 imm) := by
  refine of_decode _ c _ rfl (fun _ => ?_)
  obtain ⟨e1, e2, e3, e4⟩ := Hymota.wordI_fields 10 rd rs1 imm (by decide)
  unfold Hymota.decode
  simp [e1, e2, e3, e4]

theorem xori (c : Ctx) (rd : Gpr) (rs1 : Gpr) (imm : BitVec 16) : Statement (.xori c rd rs1 imm) := by
  refine of_decode _ c _ rfl (fun _ => ?_)
  obtain ⟨e1, e2, e3, e4⟩ := Hymota.wordI_fields 11 rd rs1 imm (by decide)
  unfold Hymota.decode
  simp [e1, e2, e3, e4]

theorem slti (c : Ctx) (rd : Gpr) (rs1 : Gpr) (imm : BitVec 16) : Statement (.slti c rd rs1 imm) := by
  refine of_decode _ c _ rfl (fun _ => ?_)
  obtain ⟨e1, e2, e3, e4⟩ := Hymota.wordI_fields 12 rd rs1 imm (by decide)
  unfold Hymota.decode
  simp [e1, e2, e3, e4]

theorem sltiu (c : Ctx) (rd : Gpr) (rs1 : Gpr) (imm : BitVec 16) : Statement (.sltiu c rd rs1 imm) := by
  refine of_decode _ c _ rfl (fun _ => ?_)
  obtain ⟨e1, e2, e3, e4⟩ := Hymota.wordI_fields 13 rd rs1 imm (by decide)
  unfold Hymota.decode
  simp [e1, e2, e3, e4]

theorem lui (c : Ctx) (rd : Gpr) (imm : BitVec 21) : Statement (.lui c rd imm) := by
  refine of_decode _ c _ rfl (fun hw => ?_)
  have hrd := rd.isLt
  have himm := imm.isLt
  have e0 : Hymota.bits (BitVec.ofNat 32 (14 * 2 ^ 26 + rd.toNat * 2 ^ 21 + imm.toNat)) 26 6 = 0x0E := by
    simp only [Hymota.bits, BitVec.toNat_ofNat]
    omega
  have e1 : Hymota.bits (BitVec.ofNat 32 (14 * 2 ^ 26 + rd.toNat * 2 ^ 21 + imm.toNat)) 21 5 = rd.toNat := by
    simp only [Hymota.bits, BitVec.toNat_ofNat]
    omega
  have e2 : Hymota.bits (BitVec.ofNat 32 (14 * 2 ^ 26 + rd.toNat * 2 ^ 21 + imm.toNat)) 0 21 = imm.toNat := by
    simp only [Hymota.bits, BitVec.toNat_ofNat]
    omega
  unfold Hymota.decode
  simp only [e0, e1, e2]
  simp

theorem auipc (c : Ctx) (rd : Gpr) (imm : BitVec 21) : Statement (.auipc c rd imm) := by
  refine of_decode _ c _ rfl (fun hw => ?_)
  have hrd := rd.isLt
  have himm := imm.isLt
  have e0 : Hymota.bits (BitVec.ofNat 32 (15 * 2 ^ 26 + rd.toNat * 2 ^ 21 + imm.toNat)) 26 6 = 0x0F := by
    simp only [Hymota.bits, BitVec.toNat_ofNat]
    omega
  have e1 : Hymota.bits (BitVec.ofNat 32 (15 * 2 ^ 26 + rd.toNat * 2 ^ 21 + imm.toNat)) 21 5 = rd.toNat := by
    simp only [Hymota.bits, BitVec.toNat_ofNat]
    omega
  have e2 : Hymota.bits (BitVec.ofNat 32 (15 * 2 ^ 26 + rd.toNat * 2 ^ 21 + imm.toNat)) 0 21 = imm.toNat := by
    simp only [Hymota.bits, BitVec.toNat_ofNat]
    omega
  unfold Hymota.decode
  simp only [e0, e1, e2]
  simp

theorem mulLo (c : Ctx) (rd : Gpr) (rs1 : Gpr) (rs2 : Gpr) : Statement (.mulLo c rd rs1 rs2) := by
  (refine of_decode _ c _ rfl (fun _ => ?_)
   rw [Hymota.decode_wordR c _ _ _ _ _ (by decide) (by decide)]
   rfl)

theorem mulHs (c : Ctx) (rd : Gpr) (rs1 : Gpr) (rs2 : Gpr) : Statement (.mulHs c rd rs1 rs2) := by
  (refine of_decode _ c _ rfl (fun _ => ?_)
   rw [Hymota.decode_wordR c _ _ _ _ _ (by decide) (by decide)]
   rfl)

theorem mulHu (c : Ctx) (rd : Gpr) (rs1 : Gpr) (rs2 : Gpr) : Statement (.mulHu c rd rs1 rs2) := by
  (refine of_decode _ c _ rfl (fun _ => ?_)
   rw [Hymota.decode_wordR c _ _ _ _ _ (by decide) (by decide)]
   rfl)

theorem mulHx (c : Ctx) (rd : Gpr) (rs1 : Gpr) (rs2 : Gpr) : Statement (.mulHx c rd rs1 rs2) := by
  (refine of_decode _ c _ rfl (fun _ => ?_)
   rw [Hymota.decode_wordR c _ _ _ _ _ (by decide) (by decide)]
   rfl)

theorem mulW (c : Ctx) (rd : Gpr) (rs1 : Gpr) (rs2 : Gpr) : Statement (.mulW c rd rs1 rs2) := by
  (refine of_decode _ c _ rfl (fun _ => ?_)
   rw [Hymota.decode_wordR c _ _ _ _ _ (by decide) (by decide)]
   rfl)

theorem quoS (c : Ctx) (rd : Gpr) (rs1 : Gpr) (rs2 : Gpr) : Statement (.quoS c rd rs1 rs2) := by
  (refine of_decode _ c _ rfl (fun _ => ?_)
   rw [Hymota.decode_wordR c _ _ _ _ _ (by decide) (by decide)]
   rfl)

theorem quoU (c : Ctx) (rd : Gpr) (rs1 : Gpr) (rs2 : Gpr) : Statement (.quoU c rd rs1 rs2) := by
  (refine of_decode _ c _ rfl (fun _ => ?_)
   rw [Hymota.decode_wordR c _ _ _ _ _ (by decide) (by decide)]
   rfl)

theorem rmdS (c : Ctx) (rd : Gpr) (rs1 : Gpr) (rs2 : Gpr) : Statement (.rmdS c rd rs1 rs2) := by
  (refine of_decode _ c _ rfl (fun _ => ?_)
   rw [Hymota.decode_wordR c _ _ _ _ _ (by decide) (by decide)]
   rfl)

theorem rmdU (c : Ctx) (rd : Gpr) (rs1 : Gpr) (rs2 : Gpr) : Statement (.rmdU c rd rs1 rs2) := by
  (refine of_decode _ c _ rfl (fun _ => ?_)
   rw [Hymota.decode_wordR c _ _ _ _ _ (by decide) (by decide)]
   rfl)

theorem quoSw (c : Ctx) (rd : Gpr) (rs1 : Gpr) (rs2 : Gpr) : Statement (.quoSw c rd rs1 rs2) := by
  (refine of_decode _ c _ rfl (fun _ => ?_)
   rw [Hymota.decode_wordR c _ _ _ _ _ (by decide) (by decide)]
   rfl)

theorem quoUw (c : Ctx) (rd : Gpr) (rs1 : Gpr) (rs2 : Gpr) : Statement (.quoUw c rd rs1 rs2) := by
  (refine of_decode _ c _ rfl (fun _ => ?_)
   rw [Hymota.decode_wordR c _ _ _ _ _ (by decide) (by decide)]
   rfl)

theorem rmdSw (c : Ctx) (rd : Gpr) (rs1 : Gpr) (rs2 : Gpr) : Statement (.rmdSw c rd rs1 rs2) := by
  (refine of_decode _ c _ rfl (fun _ => ?_)
   rw [Hymota.decode_wordR c _ _ _ _ _ (by decide) (by decide)]
   rfl)

theorem rmdUw (c : Ctx) (rd : Gpr) (rs1 : Gpr) (rs2 : Gpr) : Statement (.rmdUw c rd rs1 rs2) := by
  (refine of_decode _ c _ rfl (fun _ => ?_)
   rw [Hymota.decode_wordR c _ _ _ _ _ (by decide) (by decide)]
   rfl)

theorem sll (c : Ctx) (rd : Gpr) (rs1 : Gpr) (amt : Amt) : Statement (.sll c rd rs1 amt) := by
  cases amt with
  | imm n =>
    refine of_decode _ c _ rfl (fun hw => ?_)
    have hn := n.isLt
    clear hw
    rw [Hymota.decode_wordR c _ _ _ _ _ (by decide) (by simp only [Hymota.shiftFn]; omega)]
    have e1 : Hymota.shiftFn 1 (.imm n) / 64 % 16 = 1 := by simp only [Hymota.shiftFn]; omega
    have e2 : Hymota.shiftFn 1 (.imm n) / 1024 = 1 := by simp only [Hymota.shiftFn]; omega
    have e3 : Hymota.shiftFn 1 (.imm n) % 64 = n.toNat := by simp only [Hymota.shiftFn]; omega
    simp [Hymota.decodeShift, e1, e2, e3, Hymota.shiftRs2, Hymota.when ]
  | reg r =>
    refine of_decode _ c _ rfl (fun _ => ?_)
    rw [Hymota.decode_wordR c _ _ _ _ _ (by decide) (by simp only [Hymota.shiftFn]; decide)]
    simp [Hymota.decodeShift, Hymota.shiftFn, Hymota.shiftRs2, Hymota.when]

theorem srl (c : Ctx) (rd : Gpr) (rs1 : Gpr) (amt : Amt) : Statement (.srl c rd rs1 amt) := by
  cases amt with
  | imm n =>
    refine of_decode _ c _ rfl (fun hw => ?_)
    have hn := n.isLt
    clear hw
    rw [Hymota.decode_wordR c _ _ _ _ _ (by decide) (by simp only [Hymota.shiftFn]; omega)]
    have e1 : Hymota.shiftFn 2 (.imm n) / 64 % 16 = 2 := by simp only [Hymota.shiftFn]; omega
    have e2 : Hymota.shiftFn 2 (.imm n) / 1024 = 1 := by simp only [Hymota.shiftFn]; omega
    have e3 : Hymota.shiftFn 2 (.imm n) % 64 = n.toNat := by simp only [Hymota.shiftFn]; omega
    simp [Hymota.decodeShift, e1, e2, e3, Hymota.shiftRs2, Hymota.when ]
  | reg r =>
    refine of_decode _ c _ rfl (fun _ => ?_)
    rw [Hymota.decode_wordR c _ _ _ _ _ (by decide) (by simp only [Hymota.shiftFn]; decide)]
    simp [Hymota.decodeShift, Hymota.shiftFn, Hymota.shiftRs2, Hymota.when]

theorem sra (c : Ctx) (rd : Gpr) (rs1 : Gpr) (amt : Amt) : Statement (.sra c rd rs1 amt) := by
  cases amt with
  | imm n =>
    refine of_decode _ c _ rfl (fun hw => ?_)
    have hn := n.isLt
    clear hw
    rw [Hymota.decode_wordR c _ _ _ _ _ (by decide) (by simp only [Hymota.shiftFn]; omega)]
    have e1 : Hymota.shiftFn 3 (.imm n) / 64 % 16 = 3 := by simp only [Hymota.shiftFn]; omega
    have e2 : Hymota.shiftFn 3 (.imm n) / 1024 = 1 := by simp only [Hymota.shiftFn]; omega
    have e3 : Hymota.shiftFn 3 (.imm n) % 64 = n.toNat := by simp only [Hymota.shiftFn]; omega
    simp [Hymota.decodeShift, e1, e2, e3, Hymota.shiftRs2, Hymota.when ]
  | reg r =>
    refine of_decode _ c _ rfl (fun _ => ?_)
    rw [Hymota.decode_wordR c _ _ _ _ _ (by decide) (by simp only [Hymota.shiftFn]; decide)]
    simp [Hymota.decodeShift, Hymota.shiftFn, Hymota.shiftRs2, Hymota.when]

theorem ror (c : Ctx) (rd : Gpr) (rs1 : Gpr) (amt : Amt) : Statement (.ror c rd rs1 amt) := by
  cases amt with
  | imm n =>
    refine of_decode _ c _ rfl (fun hw => ?_)
    have hn := n.isLt
    clear hw
    rw [Hymota.decode_wordR c _ _ _ _ _ (by decide) (by simp only [Hymota.shiftFn]; omega)]
    have e1 : Hymota.shiftFn 4 (.imm n) / 64 % 16 = 4 := by simp only [Hymota.shiftFn]; omega
    have e2 : Hymota.shiftFn 4 (.imm n) / 1024 = 1 := by simp only [Hymota.shiftFn]; omega
    have e3 : Hymota.shiftFn 4 (.imm n) % 64 = n.toNat := by simp only [Hymota.shiftFn]; omega
    simp [Hymota.decodeShift, e1, e2, e3, Hymota.shiftRs2, Hymota.when ]
  | reg r =>
    refine of_decode _ c _ rfl (fun _ => ?_)
    rw [Hymota.decode_wordR c _ _ _ _ _ (by decide) (by simp only [Hymota.shiftFn]; decide)]
    simp [Hymota.decodeShift, Hymota.shiftFn, Hymota.shiftRs2, Hymota.when]

theorem sllw (c : Ctx) (rd : Gpr) (rs1 : Gpr) (amt : Amt) : Statement (.sllw c rd rs1 amt) := by
  cases amt with
  | imm n =>
    refine of_decode _ c _ rfl (fun hw => ?_)
    have hn := n.isLt
    have hw : n.toNat < 32 := by simpa [Instr.wf, wfAmtW] using hw
    rw [Hymota.decode_wordR c _ _ _ _ _ (by decide) (by simp only [Hymota.shiftFn]; omega)]
    have e1 : Hymota.shiftFn 5 (.imm n) / 64 % 16 = 5 := by simp only [Hymota.shiftFn]; omega
    have e2 : Hymota.shiftFn 5 (.imm n) / 1024 = 1 := by simp only [Hymota.shiftFn]; omega
    have e3 : Hymota.shiftFn 5 (.imm n) % 64 = n.toNat := by simp only [Hymota.shiftFn]; omega
    simp [Hymota.decodeShift, e1, e2, e3, Hymota.shiftRs2, Hymota.when , hw]
  | reg r =>
    refine of_decode _ c _ rfl (fun _ => ?_)
    rw [Hymota.decode_wordR c _ _ _ _ _ (by decide) (by simp only [Hymota.shiftFn]; decide)]
    simp [Hymota.decodeShift, Hymota.shiftFn, Hymota.shiftRs2, Hymota.when]

theorem srlw (c : Ctx) (rd : Gpr) (rs1 : Gpr) (amt : Amt) : Statement (.srlw c rd rs1 amt) := by
  cases amt with
  | imm n =>
    refine of_decode _ c _ rfl (fun hw => ?_)
    have hn := n.isLt
    have hw : n.toNat < 32 := by simpa [Instr.wf, wfAmtW] using hw
    rw [Hymota.decode_wordR c _ _ _ _ _ (by decide) (by simp only [Hymota.shiftFn]; omega)]
    have e1 : Hymota.shiftFn 6 (.imm n) / 64 % 16 = 6 := by simp only [Hymota.shiftFn]; omega
    have e2 : Hymota.shiftFn 6 (.imm n) / 1024 = 1 := by simp only [Hymota.shiftFn]; omega
    have e3 : Hymota.shiftFn 6 (.imm n) % 64 = n.toNat := by simp only [Hymota.shiftFn]; omega
    simp [Hymota.decodeShift, e1, e2, e3, Hymota.shiftRs2, Hymota.when , hw]
  | reg r =>
    refine of_decode _ c _ rfl (fun _ => ?_)
    rw [Hymota.decode_wordR c _ _ _ _ _ (by decide) (by simp only [Hymota.shiftFn]; decide)]
    simp [Hymota.decodeShift, Hymota.shiftFn, Hymota.shiftRs2, Hymota.when]

theorem sraw (c : Ctx) (rd : Gpr) (rs1 : Gpr) (amt : Amt) : Statement (.sraw c rd rs1 amt) := by
  cases amt with
  | imm n =>
    refine of_decode _ c _ rfl (fun hw => ?_)
    have hn := n.isLt
    have hw : n.toNat < 32 := by simpa [Instr.wf, wfAmtW] using hw
    rw [Hymota.decode_wordR c _ _ _ _ _ (by decide) (by simp only [Hymota.shiftFn]; omega)]
    have e1 : Hymota.shiftFn 7 (.imm n) / 64 % 16 = 7 := by simp only [Hymota.shiftFn]; omega
    have e2 : Hymota.shiftFn 7 (.imm n) / 1024 = 1 := by simp only [Hymota.shiftFn]; omega
    have e3 : Hymota.shiftFn 7 (.imm n) % 64 = n.toNat := by simp only [Hymota.shiftFn]; omega
    simp [Hymota.decodeShift, e1, e2, e3, Hymota.shiftRs2, Hymota.when , hw]
  | reg r =>
    refine of_decode _ c _ rfl (fun _ => ?_)
    rw [Hymota.decode_wordR c _ _ _ _ _ (by decide) (by simp only [Hymota.shiftFn]; decide)]
    simp [Hymota.decodeShift, Hymota.shiftFn, Hymota.shiftRs2, Hymota.when]

theorem lb (c : Ctx) (rd : Gpr) (rs1 : Gpr) (imm : BitVec 16) : Statement (.lb c rd rs1 imm) := by
  refine of_decode _ c _ rfl (fun _ => ?_)
  obtain ⟨e1, e2, e3, e4⟩ := Hymota.wordI_fields 16 rd rs1 imm (by decide)
  unfold Hymota.decode
  simp [e1, e2, e3, e4]

theorem lh (c : Ctx) (rd : Gpr) (rs1 : Gpr) (imm : BitVec 16) : Statement (.lh c rd rs1 imm) := by
  refine of_decode _ c _ rfl (fun _ => ?_)
  obtain ⟨e1, e2, e3, e4⟩ := Hymota.wordI_fields 17 rd rs1 imm (by decide)
  unfold Hymota.decode
  simp [e1, e2, e3, e4]

theorem lw (c : Ctx) (rd : Gpr) (rs1 : Gpr) (imm : BitVec 16) : Statement (.lw c rd rs1 imm) := by
  refine of_decode _ c _ rfl (fun _ => ?_)
  obtain ⟨e1, e2, e3, e4⟩ := Hymota.wordI_fields 18 rd rs1 imm (by decide)
  unfold Hymota.decode
  simp [e1, e2, e3, e4]

theorem ld (c : Ctx) (rd : Gpr) (rs1 : Gpr) (imm : BitVec 16) : Statement (.ld c rd rs1 imm) := by
  refine of_decode _ c _ rfl (fun _ => ?_)
  obtain ⟨e1, e2, e3, e4⟩ := Hymota.wordI_fields 19 rd rs1 imm (by decide)
  unfold Hymota.decode
  simp [e1, e2, e3, e4]

theorem lbu (c : Ctx) (rd : Gpr) (rs1 : Gpr) (imm : BitVec 16) : Statement (.lbu c rd rs1 imm) := by
  refine of_decode _ c _ rfl (fun _ => ?_)
  obtain ⟨e1, e2, e3, e4⟩ := Hymota.wordI_fields 20 rd rs1 imm (by decide)
  unfold Hymota.decode
  simp [e1, e2, e3, e4]

theorem lhu (c : Ctx) (rd : Gpr) (rs1 : Gpr) (imm : BitVec 16) : Statement (.lhu c rd rs1 imm) := by
  refine of_decode _ c _ rfl (fun _ => ?_)
  obtain ⟨e1, e2, e3, e4⟩ := Hymota.wordI_fields 21 rd rs1 imm (by decide)
  unfold Hymota.decode
  simp [e1, e2, e3, e4]

theorem lwu (c : Ctx) (rd : Gpr) (rs1 : Gpr) (imm : BitVec 16) : Statement (.lwu c rd rs1 imm) := by
  refine of_decode _ c _ rfl (fun _ => ?_)
  obtain ⟨e1, e2, e3, e4⟩ := Hymota.wordI_fields 22 rd rs1 imm (by decide)
  unfold Hymota.decode
  simp [e1, e2, e3, e4]

theorem lp24 (c : Ctx) (rd : Gpr) (rs1 : Gpr) (imm : BitVec 16) : Statement (.lp24 c rd rs1 imm) := by
  refine of_decode _ c _ rfl (fun _ => ?_)
  obtain ⟨e1, e2, e3, e4⟩ := Hymota.wordI_fields 23 rd rs1 imm (by decide)
  unfold Hymota.decode
  simp [e1, e2, e3, e4]

theorem sb (c : Ctx) (rs2 : Gpr) (rs1 : Gpr) (imm : BitVec 16) : Statement (.sb c rs2 rs1 imm) := by
  refine of_decode _ c _ rfl (fun _ => ?_)
  obtain ⟨e1, e2, e3, e4⟩ := Hymota.wordI_fields 24 rs2 rs1 imm (by decide)
  unfold Hymota.decode
  simp [e1, e2, e3, e4]

theorem sh (c : Ctx) (rs2 : Gpr) (rs1 : Gpr) (imm : BitVec 16) : Statement (.sh c rs2 rs1 imm) := by
  refine of_decode _ c _ rfl (fun _ => ?_)
  obtain ⟨e1, e2, e3, e4⟩ := Hymota.wordI_fields 25 rs2 rs1 imm (by decide)
  unfold Hymota.decode
  simp [e1, e2, e3, e4]

theorem sw (c : Ctx) (rs2 : Gpr) (rs1 : Gpr) (imm : BitVec 16) : Statement (.sw c rs2 rs1 imm) := by
  refine of_decode _ c _ rfl (fun _ => ?_)
  obtain ⟨e1, e2, e3, e4⟩ := Hymota.wordI_fields 26 rs2 rs1 imm (by decide)
  unfold Hymota.decode
  simp [e1, e2, e3, e4]

theorem sd (c : Ctx) (rs2 : Gpr) (rs1 : Gpr) (imm : BitVec 16) : Statement (.sd c rs2 rs1 imm) := by
  refine of_decode _ c _ rfl (fun _ => ?_)
  obtain ⟨e1, e2, e3, e4⟩ := Hymota.wordI_fields 27 rs2 rs1 imm (by decide)
  unfold Hymota.decode
  simp [e1, e2, e3, e4]

theorem sp24 (c : Ctx) (rs2 : Gpr) (rs1 : Gpr) (imm : BitVec 16) : Statement (.sp24 c rs2 rs1 imm) := by
  refine of_decode _ c _ rfl (fun _ => ?_)
  obtain ⟨e1, e2, e3, e4⟩ := Hymota.wordI_fields 28 rs2 rs1 imm (by decide)
  unfold Hymota.decode
  simp [e1, e2, e3, e4]

theorem padd (c : Ctx) (px : Bool) (rd : Gpr) (rs1 : Gpr) (rs2 : Gpr) : Statement (.padd c px rd rs1 rs2) := by
  cases px <;>
  (refine of_decode _ c _ rfl (fun _ => ?_)
   rw [Hymota.decode_wordR c _ _ _ _ _ (by decide) (by decide)]
   rfl)

theorem psub (c : Ctx) (px : Bool) (rd : Gpr) (rs1 : Gpr) (rs2 : Gpr) : Statement (.psub c px rd rs1 rs2) := by
  cases px <;>
  (refine of_decode _ c _ rfl (fun _ => ?_)
   rw [Hymota.decode_wordR c _ _ _ _ _ (by decide) (by decide)]
   rfl)

theorem pmul (c : Ctx) (px : Bool) (rd : Gpr) (rs1 : Gpr) (rs2 : Gpr) : Statement (.pmul c px rd rs1 rs2) := by
  cases px <;>
  (refine of_decode _ c _ rfl (fun _ => ?_)
   rw [Hymota.decode_wordR c _ _ _ _ _ (by decide) (by decide)]
   rfl)

theorem pmin (c : Ctx) (px : Bool) (rd : Gpr) (rs1 : Gpr) (rs2 : Gpr) : Statement (.pmin c px rd rs1 rs2) := by
  cases px <;>
  (refine of_decode _ c _ rfl (fun _ => ?_)
   rw [Hymota.decode_wordR c _ _ _ _ _ (by decide) (by decide)]
   rfl)

theorem pmax (c : Ctx) (px : Bool) (rd : Gpr) (rs1 : Gpr) (rs2 : Gpr) : Statement (.pmax c px rd rs1 rs2) := by
  cases px <;>
  (refine of_decode _ c _ rfl (fun _ => ?_)
   rw [Hymota.decode_wordR c _ _ _ _ _ (by decide) (by decide)]
   rfl)

theorem pavg (c : Ctx) (px : Bool) (rd : Gpr) (rs1 : Gpr) (rs2 : Gpr) : Statement (.pavg c px rd rs1 rs2) := by
  cases px <;>
  (refine of_decode _ c _ rfl (fun _ => ?_)
   rw [Hymota.decode_wordR c _ _ _ _ _ (by decide) (by decide)]
   rfl)

theorem pabs (c : Ctx) (rd : Gpr) (rs1 : Gpr) : Statement (.pabs c rd rs1) := by
  (refine of_decode _ c _ rfl (fun _ => ?_)
   rw [Hymota.decode_wordR c _ _ _ _ _ (by decide) (by decide)]
   rfl)

theorem pneg (c : Ctx) (rd : Gpr) (rs1 : Gpr) : Statement (.pneg c rd rs1) := by
  (refine of_decode _ c _ rfl (fun _ => ?_)
   rw [Hymota.decode_wordR c _ _ _ _ _ (by decide) (by decide)]
   rfl)

theorem psra (c : Ctx) (rd : Gpr) (rs1 : Gpr) (rs2 : Gpr) : Statement (.psra c rd rs1 rs2) := by
  (refine of_decode _ c _ rfl (fun _ => ?_)
   rw [Hymota.decode_wordR c _ _ _ _ _ (by decide) (by decide)]
   rfl)

theorem psls (c : Ctx) (rd : Gpr) (rs1 : Gpr) (rs2 : Gpr) : Statement (.psls c rd rs1 rs2) := by
  (refine of_decode _ c _ rfl (fun _ => ?_)
   rw [Hymota.decode_wordR c _ _ _ _ _ (by decide) (by decide)]
   rfl)

theorem pswap (c : Ctx) (px : Bool) (rd : Gpr) (rs1 : Gpr) : Statement (.pswap c px rd rs1) := by
  cases px <;>
  (refine of_decode _ c _ rfl (fun _ => ?_)
   rw [Hymota.decode_wordR c _ _ _ _ _ (by decide) (by decide)]
   rfl)

theorem pdup (c : Ctx) (px : Bool) (rd : Gpr) (rs1 : Gpr) : Statement (.pdup c px rd rs1) := by
  cases px <;>
  (refine of_decode _ c _ rfl (fun _ => ?_)
   rw [Hymota.decode_wordR c _ _ _ _ _ (by decide) (by decide)]
   rfl)

theorem x4p (c : Ctx) (rd : Gpr) (rs1 : Gpr) : Statement (.x4p c rd rs1) := by
  (refine of_decode _ c _ rfl (fun _ => ?_)
   rw [Hymota.decode_wordR c _ _ _ _ _ (by decide) (by decide)]
   rfl)

theorem p4x (c : Ctx) (px : Bool) (rd : Gpr) (rs1 : Gpr) : Statement (.p4x c px rd rs1) := by
  cases px <;>
  (refine of_decode _ c _ rfl (fun _ => ?_)
   rw [Hymota.decode_wordR c _ _ _ _ _ (by decide) (by decide)]
   rfl)

theorem fadd (c : Ctx) (dbl : Bool) (rd : Gpr) (rs1 : Gpr) (rs2 : Gpr) : Statement (.fadd c dbl rd rs1 rs2) := by
  cases dbl <;>
  (refine of_decode _ c _ rfl (fun _ => ?_)
   rw [Hymota.decode_wordR c _ _ _ _ _ (by decide) (by decide)]
   rfl)

theorem fsub (c : Ctx) (dbl : Bool) (rd : Gpr) (rs1 : Gpr) (rs2 : Gpr) : Statement (.fsub c dbl rd rs1 rs2) := by
  cases dbl <;>
  (refine of_decode _ c _ rfl (fun _ => ?_)
   rw [Hymota.decode_wordR c _ _ _ _ _ (by decide) (by decide)]
   rfl)

theorem fmul (c : Ctx) (dbl : Bool) (rd : Gpr) (rs1 : Gpr) (rs2 : Gpr) : Statement (.fmul c dbl rd rs1 rs2) := by
  cases dbl <;>
  (refine of_decode _ c _ rfl (fun _ => ?_)
   rw [Hymota.decode_wordR c _ _ _ _ _ (by decide) (by decide)]
   rfl)

theorem fdiv (c : Ctx) (dbl : Bool) (rd : Gpr) (rs1 : Gpr) (rs2 : Gpr) : Statement (.fdiv c dbl rd rs1 rs2) := by
  cases dbl <;>
  (refine of_decode _ c _ rfl (fun _ => ?_)
   rw [Hymota.decode_wordR c _ _ _ _ _ (by decide) (by decide)]
   rfl)

theorem fsqrt (c : Ctx) (dbl : Bool) (rd : Gpr) (rs1 : Gpr) : Statement (.fsqrt c dbl rd rs1) := by
  cases dbl <;>
  (refine of_decode _ c _ rfl (fun _ => ?_)
   rw [Hymota.decode_wordR c _ _ _ _ _ (by decide) (by decide)]
   rfl)

theorem fmac (c : Ctx) (dbl : Bool) (rd : Gpr) (rs1 : Gpr) (rs2 : Gpr) : Statement (.fmac c dbl rd rs1 rs2) := by
  cases dbl <;>
  (refine of_decode _ c _ rfl (fun _ => ?_)
   rw [Hymota.decode_wordR c _ _ _ _ _ (by decide) (by decide)]
   rfl)

theorem fmin (c : Ctx) (dbl : Bool) (rd : Gpr) (rs1 : Gpr) (rs2 : Gpr) : Statement (.fmin c dbl rd rs1 rs2) := by
  cases dbl <;>
  (refine of_decode _ c _ rfl (fun _ => ?_)
   rw [Hymota.decode_wordR c _ _ _ _ _ (by decide) (by decide)]
   rfl)

theorem fmax (c : Ctx) (dbl : Bool) (rd : Gpr) (rs1 : Gpr) (rs2 : Gpr) : Statement (.fmax c dbl rd rs1 rs2) := by
  cases dbl <;>
  (refine of_decode _ c _ rfl (fun _ => ?_)
   rw [Hymota.decode_wordR c _ _ _ _ _ (by decide) (by decide)]
   rfl)

theorem fneg (c : Ctx) (dbl : Bool) (rd : Gpr) (rs1 : Gpr) : Statement (.fneg c dbl rd rs1) := by
  cases dbl <;>
  (refine of_decode _ c _ rfl (fun _ => ?_)
   rw [Hymota.decode_wordR c _ _ _ _ _ (by decide) (by decide)]
   rfl)

theorem fabs (c : Ctx) (dbl : Bool) (rd : Gpr) (rs1 : Gpr) : Statement (.fabs c dbl rd rs1) := by
  cases dbl <;>
  (refine of_decode _ c _ rfl (fun _ => ?_)
   rw [Hymota.decode_wordR c _ _ _ _ _ (by decide) (by decide)]
   rfl)

theorem feq (c : Ctx) (dbl : Bool) (rd : Gpr) (rs1 : Gpr) (rs2 : Gpr) : Statement (.feq c dbl rd rs1 rs2) := by
  cases dbl <;>
  (refine of_decode _ c _ rfl (fun _ => ?_)
   rw [Hymota.decode_wordR c _ _ _ _ _ (by decide) (by decide)]
   rfl)

theorem flt (c : Ctx) (dbl : Bool) (rd : Gpr) (rs1 : Gpr) (rs2 : Gpr) : Statement (.flt c dbl rd rs1 rs2) := by
  cases dbl <;>
  (refine of_decode _ c _ rfl (fun _ => ?_)
   rw [Hymota.decode_wordR c _ _ _ _ _ (by decide) (by decide)]
   rfl)

theorem fle (c : Ctx) (dbl : Bool) (rd : Gpr) (rs1 : Gpr) (rs2 : Gpr) : Statement (.fle c dbl rd rs1 rs2) := by
  cases dbl <;>
  (refine of_decode _ c _ rfl (fun _ => ?_)
   rw [Hymota.decode_wordR c _ _ _ _ _ (by decide) (by decide)]
   rfl)

theorem fcmp (c : Ctx) (dbl : Bool) (rs1 : Gpr) (rs2 : Gpr) : Statement (.fcmp c dbl rs1 rs2) := by
  cases dbl <;>
  (refine of_decode _ c _ rfl (fun _ => ?_)
   rw [Hymota.decode_wordR c _ _ _ _ _ (by decide) (by decide)]
   rfl)

theorem fclass (c : Ctx) (dbl : Bool) (rd : Gpr) (rs1 : Gpr) : Statement (.fclass c dbl rd rs1) := by
  cases dbl <;>
  (refine of_decode _ c _ rfl (fun _ => ?_)
   rw [Hymota.decode_wordR c _ _ _ _ _ (by decide) (by decide)]
   rfl)

theorem cvt (c : Ctx) (src : BitVec 3) (dst : BitVec 3) (rd : Gpr) (rs1 : Gpr) : Statement (.cvt c src dst rd rs1) := by
  refine of_decode _ c _ rfl (fun hw => ?_)
  have hs := src.isLt
  have hd := dst.isLt
  have hw : Hymota.convertible src dst = true := by simpa [Instr.wf] using hw
  rw [Hymota.decode_wordR c _ _ _ _ _ (by decide) (by omega)]
  have e1 : (src.toNat * 8 + dst.toNat) / 8 = src.toNat := by omega
  have e2 : BitVec.ofNat 3 (src.toNat * 8 + dst.toNat) = dst := by
    apply BitVec.eq_of_toNat_eq
    simp only [BitVec.toNat_ofNat]
    omega
  have e3 : src.toNat * 8 + dst.toNat < 64 := by omega
  simp only [Hymota.decodeCvt, e1, e2, e3, BitVec.ofNat_toNat, BitVec.setWidth_eq, hw]
  rfl

theorem beq (c : Ctx) (annul : Bool) (rs1 : Gpr) (rs2 : Gpr) (disp : BitVec 15) : Statement (.beq c annul rs1 rs2 disp) := by
  refine of_decode _ c _ rfl (fun _ => ?_)
  obtain ⟨e1, e2, e3, e4, e5⟩ := Hymota.wordB_fields 32 rs1 rs2 annul disp (by decide)
  unfold Hymota.decode
  simp only [e1, e2, e3, e4, e5]
  cases annul <;> simp

theorem bne (c : Ctx) (annul : Bool) (rs1 : Gpr) (rs2 : Gpr) (disp : BitVec 15) : Statement (.bne c annul rs1 rs2 disp) := by
  refine of_decode _ c _ rfl (fun _ => ?_)
  obtain ⟨e1, e2, e3, e4, e5⟩ := Hymota.wordB_fields 33 rs1 rs2 annul disp (by decide)
  unfold Hymota.decode
  simp only [e1, e2, e3, e4, e5]
  cases annul <;> simp

theorem blt (c : Ctx) (annul : Bool) (rs1 : Gpr) (rs2 : Gpr) (disp : BitVec 15) : Statement (.blt c annul rs1 rs2 disp) := by
  refine of_decode _ c _ rfl (fun _ => ?_)
  obtain ⟨e1, e2, e3, e4, e5⟩ := Hymota.wordB_fields 34 rs1 rs2 annul disp (by decide)
  unfold Hymota.decode
  simp only [e1, e2, e3, e4, e5]
  cases annul <;> simp

theorem bge (c : Ctx) (annul : Bool) (rs1 : Gpr) (rs2 : Gpr) (disp : BitVec 15) : Statement (.bge c annul rs1 rs2 disp) := by
  refine of_decode _ c _ rfl (fun _ => ?_)
  obtain ⟨e1, e2, e3, e4, e5⟩ := Hymota.wordB_fields 35 rs1 rs2 annul disp (by decide)
  unfold Hymota.decode
  simp only [e1, e2, e3, e4, e5]
  cases annul <;> simp

theorem bltu (c : Ctx) (annul : Bool) (rs1 : Gpr) (rs2 : Gpr) (disp : BitVec 15) : Statement (.bltu c annul rs1 rs2 disp) := by
  refine of_decode _ c _ rfl (fun _ => ?_)
  obtain ⟨e1, e2, e3, e4, e5⟩ := Hymota.wordB_fields 36 rs1 rs2 annul disp (by decide)
  unfold Hymota.decode
  simp only [e1, e2, e3, e4, e5]
  cases annul <;> simp

theorem bgeu (c : Ctx) (annul : Bool) (rs1 : Gpr) (rs2 : Gpr) (disp : BitVec 15) : Statement (.bgeu c annul rs1 rs2 disp) := by
  refine of_decode _ c _ rfl (fun _ => ?_)
  obtain ⟨e1, e2, e3, e4, e5⟩ := Hymota.wordB_fields 37 rs1 rs2 annul disp (by decide)
  unfold Hymota.decode
  simp only [e1, e2, e3, e4, e5]
  cases annul <;> simp

theorem bf (c : Ctx) (cond : BitVec 4) (annul : Bool) (disp : BitVec 21) : Statement (.bf c cond annul disp) := by
  refine of_decode _ c _ rfl (fun hw => ?_)
  have hcond := cond.isLt
  have hdisp := disp.isLt
  have ha : annul.toNat < 2 := by cases annul <;> decide
  have e0 : Hymota.bits (BitVec.ofNat 32 (0x26 * 2 ^ 26 + cond.toNat * 2 ^ 22 + annul.toNat * 2 ^ 21 + disp.toNat)) 26 6 = 0x26 := by
    simp only [Hymota.bits, BitVec.toNat_ofNat]
    omega
  have e1 : Hymota.bits (BitVec.ofNat 32 (0x26 * 2 ^ 26 + cond.toNat * 2 ^ 22 + annul.toNat * 2 ^ 21 + disp.toNat)) 22 4 = cond.toNat := by
    simp only [Hymota.bits, BitVec.toNat_ofNat]
    omega
  have e2 : Hymota.bits (BitVec.ofNat 32 (0x26 * 2 ^ 26 + cond.toNat * 2 ^ 22 + annul.toNat * 2 ^ 21 + disp.toNat)) 21 1 = annul.toNat := by
    simp only [Hymota.bits, BitVec.toNat_ofNat]
    omega
  have e3 : Hymota.bits (BitVec.ofNat 32 (0x26 * 2 ^ 26 + cond.toNat * 2 ^ 22 + annul.toNat * 2 ^ 21 + disp.toNat)) 0 21 = disp.toNat := by
    simp only [Hymota.bits, BitVec.toNat_ofNat]
    omega
  unfold Hymota.decode
  simp only [e0, e1, e2, e3]
  cases annul <;> simp

theorem jump (c : Ctx) (disp : BitVec 26) : Statement (.jump c disp) := by
  refine of_decode _ c _ rfl (fun hw => ?_)
  have hdisp := disp.isLt
  have e0 : Hymota.bits (BitVec.ofNat 32 (0x28 * 2 ^ 26 + disp.toNat)) 26 6 = 0x28 := by
    simp only [Hymota.bits, BitVec.toNat_ofNat]
    omega
  have e1 : Hymota.bits (BitVec.ofNat 32 (0x28 * 2 ^ 26 + disp.toNat)) 0 26 = disp.toNat := by
    simp only [Hymota.bits, BitVec.toNat_ofNat]
    omega
  unfold Hymota.decode
  simp only [e0, e1]
  simp

theorem call (c : Ctx) (disp : BitVec 26) : Statement (.call c disp) := by
  refine of_decode _ c _ rfl (fun hw => ?_)
  have hdisp := disp.isLt
  have e0 : Hymota.bits (BitVec.ofNat 32 (0x29 * 2 ^ 26 + disp.toNat)) 26 6 = 0x29 := by
    simp only [Hymota.bits, BitVec.toNat_ofNat]
    omega
  have e1 : Hymota.bits (BitVec.ofNat 32 (0x29 * 2 ^ 26 + disp.toNat)) 0 26 = disp.toNat := by
    simp only [Hymota.bits, BitVec.toNat_ofNat]
    omega
  unfold Hymota.decode
  simp only [e0, e1]
  simp

theorem jr (c : Ctx) (rs1 : Gpr) : Statement (.jr c rs1) := by
  (refine of_decode _ c _ rfl (fun _ => ?_)
   rw [Hymota.decode_wordR c _ _ _ _ _ (by decide) (by decide)]
   rfl)

theorem callr (c : Ctx) (rs1 : Gpr) : Statement (.callr c rs1) := by
  (refine of_decode _ c _ rfl (fun _ => ?_)
   rw [Hymota.decode_wordR c _ _ _ _ _ (by decide) (by decide)]
   rfl)

theorem ret (c : Ctx) : Statement (.ret c) := by
  (refine of_decode _ c _ rfl (fun _ => ?_)
   rw [Hymota.decode_wordR c _ _ _ _ _ (by decide) (by decide)]
   rfl)

theorem hwLoop (c : Ctx) (rs1 : Gpr) (len : BitVec 16) : Statement (.hwLoop c rs1 len) := by
  refine of_decode _ c _ rfl (fun _ => ?_)
  obtain ⟨e1, e2, e3, e4⟩ := Hymota.wordI_fields 0x2B rs1 0 len (by decide)
  unfold Hymota.decode
  simp only [e1, e2, e3, e4]
  simp [Hymota.when]

theorem moveB (c : Ctx) : Statement (.moveB c) := by
  (refine of_decode _ c _ rfl (fun _ => ?_)
   rw [Hymota.decode_wordR c _ _ _ _ _ (by decide) (by decide)]
   rfl)

theorem fill (c : Ctx) (es : BitVec 2) : Statement (.fill c es) := by
  rcases two_bits es with rfl | rfl | rfl | rfl <;>
  (refine of_decode _ c _ rfl (fun _ => ?_)
   rw [Hymota.decode_wordR c _ _ _ _ _ (by decide) (by decide)]
   rfl)

theorem cmp (c : Ctx) (es : BitVec 2) : Statement (.cmp c es) := by
  rcases two_bits es with rfl | rfl | rfl | rfl <;>
  (refine of_decode _ c _ rfl (fun _ => ?_)
   rw [Hymota.decode_wordR c _ _ _ _ _ (by decide) (by decide)]
   rfl)

theorem scan (c : Ctx) (es : BitVec 2) : Statement (.scan c es) := by
  rcases two_bits es with rfl | rfl | rfl | rfl <;>
  (refine of_decode _ c _ rfl (fun _ => ?_)
   rw [Hymota.decode_wordR c _ _ _ _ _ (by decide) (by decide)]
   rfl)

theorem amSwap (c : Ctx) (ord : BitVec 2) (sz : Bool) (rd : Gpr) (rs1 : Gpr) (rs2 : Gpr) : Statement (.amSwap c ord sz rd rs1 rs2) := by
  rcases two_bits ord with rfl | rfl | rfl | rfl <;> cases sz <;>
  (refine of_decode _ c _ rfl (fun _ => ?_)
   rw [Hymota.decode_wordR c _ _ _ _ _ (by decide) (by decide)]
   simp [Hymota.decodeAtom])

theorem amAdd (c : Ctx) (ord : BitVec 2) (sz : Bool) (rd : Gpr) (rs1 : Gpr) (rs2 : Gpr) : Statement (.amAdd c ord sz rd rs1 rs2) := by
  rcases two_bits ord with rfl | rfl | rfl | rfl <;> cases sz <;>
  (refine of_decode _ c _ rfl (fun _ => ?_)
   rw [Hymota.decode_wordR c _ _ _ _ _ (by decide) (by decide)]
   simp [Hymota.decodeAtom])

theorem amSub (c : Ctx) (ord : BitVec 2) (sz : Bool) (rd : Gpr) (rs1 : Gpr) (rs2 : Gpr) : Statement (.amSub c ord sz rd rs1 rs2) := by
  rcases two_bits ord with rfl | rfl | rfl | rfl <;> cases sz <;>
  (refine of_decode _ c _ rfl (fun _ => ?_)
   rw [Hymota.decode_wordR c _ _ _ _ _ (by decide) (by decide)]
   simp [Hymota.decodeAtom])

theorem amAnd (c : Ctx) (ord : BitVec 2) (sz : Bool) (rd : Gpr) (rs1 : Gpr) (rs2 : Gpr) : Statement (.amAnd c ord sz rd rs1 rs2) := by
  rcases two_bits ord with rfl | rfl | rfl | rfl <;> cases sz <;>
  (refine of_decode _ c _ rfl (fun _ => ?_)
   rw [Hymota.decode_wordR c _ _ _ _ _ (by decide) (by decide)]
   simp [Hymota.decodeAtom])

theorem amOr (c : Ctx) (ord : BitVec 2) (sz : Bool) (rd : Gpr) (rs1 : Gpr) (rs2 : Gpr) : Statement (.amOr c ord sz rd rs1 rs2) := by
  rcases two_bits ord with rfl | rfl | rfl | rfl <;> cases sz <;>
  (refine of_decode _ c _ rfl (fun _ => ?_)
   rw [Hymota.decode_wordR c _ _ _ _ _ (by decide) (by decide)]
   simp [Hymota.decodeAtom])

theorem amXor (c : Ctx) (ord : BitVec 2) (sz : Bool) (rd : Gpr) (rs1 : Gpr) (rs2 : Gpr) : Statement (.amXor c ord sz rd rs1 rs2) := by
  rcases two_bits ord with rfl | rfl | rfl | rfl <;> cases sz <;>
  (refine of_decode _ c _ rfl (fun _ => ?_)
   rw [Hymota.decode_wordR c _ _ _ _ _ (by decide) (by decide)]
   simp [Hymota.decodeAtom])

theorem amMins (c : Ctx) (ord : BitVec 2) (sz : Bool) (rd : Gpr) (rs1 : Gpr) (rs2 : Gpr) : Statement (.amMins c ord sz rd rs1 rs2) := by
  rcases two_bits ord with rfl | rfl | rfl | rfl <;> cases sz <;>
  (refine of_decode _ c _ rfl (fun _ => ?_)
   rw [Hymota.decode_wordR c _ _ _ _ _ (by decide) (by decide)]
   simp [Hymota.decodeAtom])

theorem amMaxs (c : Ctx) (ord : BitVec 2) (sz : Bool) (rd : Gpr) (rs1 : Gpr) (rs2 : Gpr) : Statement (.amMaxs c ord sz rd rs1 rs2) := by
  rcases two_bits ord with rfl | rfl | rfl | rfl <;> cases sz <;>
  (refine of_decode _ c _ rfl (fun _ => ?_)
   rw [Hymota.decode_wordR c _ _ _ _ _ (by decide) (by decide)]
   simp [Hymota.decodeAtom])

theorem amMinu (c : Ctx) (ord : BitVec 2) (sz : Bool) (rd : Gpr) (rs1 : Gpr) (rs2 : Gpr) : Statement (.amMinu c ord sz rd rs1 rs2) := by
  rcases two_bits ord with rfl | rfl | rfl | rfl <;> cases sz <;>
  (refine of_decode _ c _ rfl (fun _ => ?_)
   rw [Hymota.decode_wordR c _ _ _ _ _ (by decide) (by decide)]
   simp [Hymota.decodeAtom])

theorem amMaxu (c : Ctx) (ord : BitVec 2) (sz : Bool) (rd : Gpr) (rs1 : Gpr) (rs2 : Gpr) : Statement (.amMaxu c ord sz rd rs1 rs2) := by
  rcases two_bits ord with rfl | rfl | rfl | rfl <;> cases sz <;>
  (refine of_decode _ c _ rfl (fun _ => ?_)
   rw [Hymota.decode_wordR c _ _ _ _ _ (by decide) (by decide)]
   simp [Hymota.decodeAtom])

theorem amIncw (c : Ctx) (ord : BitVec 2) (sz : Bool) (rd : Gpr) (rs1 : Gpr) (rs2 : Gpr) : Statement (.amIncw c ord sz rd rs1 rs2) := by
  rcases two_bits ord with rfl | rfl | rfl | rfl <;> cases sz <;>
  (refine of_decode _ c _ rfl (fun _ => ?_)
   rw [Hymota.decode_wordR c _ _ _ _ _ (by decide) (by decide)]
   simp [Hymota.decodeAtom])

theorem amCas (c : Ctx) (ord : BitVec 2) (sz : Bool) (rd : Gpr) (rs1 : Gpr) (rs2 : Gpr) : Statement (.amCas c ord sz rd rs1 rs2) := by
  rcases two_bits ord with rfl | rfl | rfl | rfl <;> cases sz <;>
  (refine of_decode _ c _ rfl (fun _ => ?_)
   rw [Hymota.decode_wordR c _ _ _ _ _ (by decide) (by decide)]
   simp [Hymota.decodeAtom])

theorem fence (c : Ctx) : Statement (.fence c) := by
  (refine of_decode _ c _ rfl (fun _ => ?_)
   rw [Hymota.decode_wordR c _ _ _ _ _ (by decide) (by decide)]
   rfl)

theorem fenceS (c : Ctx) : Statement (.fenceS c) := by
  (refine of_decode _ c _ rfl (fun _ => ?_)
   rw [Hymota.decode_wordR c _ _ _ _ _ (by decide) (by decide)]
   rfl)

theorem fenceL (c : Ctx) : Statement (.fenceL c) := by
  (refine of_decode _ c _ rfl (fun _ => ?_)
   rw [Hymota.decode_wordR c _ _ _ _ _ (by decide) (by decide)]
   rfl)

theorem fenceA (c : Ctx) : Statement (.fenceA c) := by
  (refine of_decode _ c _ rfl (fun _ => ?_)
   rw [Hymota.decode_wordR c _ _ _ _ _ (by decide) (by decide)]
   rfl)

theorem ifence (c : Ctx) : Statement (.ifence c) := by
  (refine of_decode _ c _ rfl (fun _ => ?_)
   rw [Hymota.decode_wordR c _ _ _ _ _ (by decide) (by decide)]
   rfl)

theorem rdc (c : Ctx) (rd : Gpr) (num : BitVec 12) : Statement (.rdc c rd num) := by
  refine of_decode _ c _ rfl (fun hw => ?_)
  have hrd := rd.isLt
  have hnum := num.isLt
  have e0 : Hymota.bits (BitVec.ofNat 32 (0x31 * 2 ^ 26 + rd.toNat * 2 ^ 21 + num.toNat)) 26 6 = 0x31 := by
    simp only [Hymota.bits, BitVec.toNat_ofNat]
    omega
  have e1 : Hymota.bits (BitVec.ofNat 32 (0x31 * 2 ^ 26 + rd.toNat * 2 ^ 21 + num.toNat)) 21 5 = rd.toNat := by
    simp only [Hymota.bits, BitVec.toNat_ofNat]
    omega
  have e2 : Hymota.bits (BitVec.ofNat 32 (0x31 * 2 ^ 26 + rd.toNat * 2 ^ 21 + num.toNat)) 16 5 = 0 := by
    simp only [Hymota.bits, BitVec.toNat_ofNat]
    omega
  have e3 : Hymota.bits (BitVec.ofNat 32 (0x31 * 2 ^ 26 + rd.toNat * 2 ^ 21 + num.toNat)) 12 4 = 0 := by
    simp only [Hymota.bits, BitVec.toNat_ofNat]
    omega
  have e4 : Hymota.bits (BitVec.ofNat 32 (0x31 * 2 ^ 26 + rd.toNat * 2 ^ 21 + num.toNat)) 0 12 = num.toNat := by
    simp only [Hymota.bits, BitVec.toNat_ofNat]
    omega
  have hw : Hymota.readable num = true := by simpa [Instr.wf] using hw
  unfold Hymota.decode
  simp only [e0, e1, e2, e3, e4]
  simp [Hymota.when, hw]

theorem wrc (c : Ctx) (rs2 : Gpr) (num : BitVec 12) : Statement (.wrc c rs2 num) := by
  refine of_decode _ c _ rfl (fun hw => ?_)
  have hrs2 := rs2.isLt
  have hnum := num.isLt
  have e0 : Hymota.bits (BitVec.ofNat 32 (0x32 * 2 ^ 26 + rs2.toNat * 2 ^ 21 + num.toNat)) 26 6 = 0x32 := by
    simp only [Hymota.bits, BitVec.toNat_ofNat]
    omega
  have e1 : Hymota.bits (BitVec.ofNat 32 (0x32 * 2 ^ 26 + rs2.toNat * 2 ^ 21 + num.toNat)) 21 5 = rs2.toNat := by
    simp only [Hymota.bits, BitVec.toNat_ofNat]
    omega
  have e2 : Hymota.bits (BitVec.ofNat 32 (0x32 * 2 ^ 26 + rs2.toNat * 2 ^ 21 + num.toNat)) 16 5 = 0 := by
    simp only [Hymota.bits, BitVec.toNat_ofNat]
    omega
  have e3 : Hymota.bits (BitVec.ofNat 32 (0x32 * 2 ^ 26 + rs2.toNat * 2 ^ 21 + num.toNat)) 12 4 = 0 := by
    simp only [Hymota.bits, BitVec.toNat_ofNat]
    omega
  have e4 : Hymota.bits (BitVec.ofNat 32 (0x32 * 2 ^ 26 + rs2.toNat * 2 ^ 21 + num.toNat)) 0 12 = num.toNat := by
    simp only [Hymota.bits, BitVec.toNat_ofNat]
    omega
  have hw : Hymota.writable num = true := by simpa [Instr.wf] using hw
  unfold Hymota.decode
  simp only [e0, e1, e2, e3, e4]
  simp [Hymota.when, hw]

theorem modeShadowEnd (c : Ctx) : Statement (.modeShadowEnd c) := of_none _ rfl

theorem emulationTrap (c : Ctx) (word : Word) : Statement (.emulationTrap c word) := of_none _ rfl

theorem pinIn (c : Ctx) (rd : Gpr) : Statement (.pinIn c rd) := by
  (refine of_decode _ c _ rfl (fun _ => ?_)
   rw [Hymota.decode_wordR c _ _ _ _ _ (by decide) (by decide)]
   rfl)

theorem pinOut (c : Ctx) (rs1 : Gpr) : Statement (.pinOut c rs1) := by
  (refine of_decode _ c _ rfl (fun _ => ?_)
   rw [Hymota.decode_wordR c _ _ _ _ _ (by decide) (by decide)]
   rfl)

theorem pinSet (c : Ctx) (rs1 : Gpr) : Statement (.pinSet c rs1) := by
  (refine of_decode _ c _ rfl (fun _ => ?_)
   rw [Hymota.decode_wordR c _ _ _ _ _ (by decide) (by decide)]
   rfl)

theorem pinClr (c : Ctx) (rs1 : Gpr) : Statement (.pinClr c rs1) := by
  (refine of_decode _ c _ rfl (fun _ => ?_)
   rw [Hymota.decode_wordR c _ _ _ _ _ (by decide) (by decide)]
   rfl)

theorem pinTgl (c : Ctx) (rs1 : Gpr) : Statement (.pinTgl c rs1) := by
  (refine of_decode _ c _ rfl (fun _ => ?_)
   rw [Hymota.decode_wordR c _ _ _ _ _ (by decide) (by decide)]
   rfl)

theorem pinOe (c : Ctx) (rs1 : Gpr) : Statement (.pinOe c rs1) := by
  (refine of_decode _ c _ rfl (fun _ => ?_)
   rw [Hymota.decode_wordR c _ _ _ _ _ (by decide) (by decide)]
   rfl)

theorem pinRdo (c : Ctx) (rd : Gpr) : Statement (.pinRdo c rd) := by
  (refine of_decode _ c _ rfl (fun _ => ?_)
   rw [Hymota.decode_wordR c _ _ _ _ _ (by decide) (by decide)]
   rfl)

theorem pinRde (c : Ctx) (rd : Gpr) : Statement (.pinRde c rd) := by
  (refine of_decode _ c _ rfl (fun _ => ?_)
   rw [Hymota.decode_wordR c _ _ _ _ _ (by decide) (by decide)]
   rfl)

theorem gate (c : Ctx) (rs1 : Gpr) : Statement (.gate c rs1) := by
  (refine of_decode _ c _ rfl (fun _ => ?_)
   rw [Hymota.decode_wordR c _ _ _ _ _ (by decide) (by decide)]
   rfl)

theorem eret (c : Ctx) : Statement (.eret c) := by
  (refine of_decode _ c _ rfl (fun _ => ?_)
   rw [Hymota.decode_wordR c _ _ _ _ _ (by decide) (by decide)]
   rfl)

theorem stop (c : Ctx) : Statement (.stop c) := by
  (refine of_decode _ c _ rfl (fun _ => ?_)
   rw [Hymota.decode_wordR c _ _ _ _ _ (by decide) (by decide)]
   rfl)

theorem sleep (c : Ctx) : Statement (.sleep c) := by
  (refine of_decode _ c _ rfl (fun _ => ?_)
   rw [Hymota.decode_wordR c _ _ _ _ _ (by decide) (by decide)]
   rfl)

theorem tack (c : Ctx) (rs1 : Gpr) : Statement (.tack c rs1) := by
  (refine of_decode _ c _ rfl (fun _ => ?_)
   rw [Hymota.decode_wordR c _ _ _ _ _ (by decide) (by decide)]
   rfl)

theorem untack (c : Ctx) : Statement (.untack c) := by
  (refine of_decode _ c _ rfl (fun _ => ?_)
   rw [Hymota.decode_wordR c _ _ _ _ _ (by decide) (by decide)]
   rfl)

theorem brk (c : Ctx) : Statement (.brk c) := by
  (refine of_decode _ c _ rfl (fun _ => ?_)
   rw [Hymota.decode_wordR c _ _ _ _ _ (by decide) (by decide)]
   rfl)

theorem tlbiVa (c : Ctx) (rs1 : Gpr) (rs2 : Gpr) : Statement (.tlbiVa c rs1 rs2) := by
  (refine of_decode _ c _ rfl (fun _ => ?_)
   rw [Hymota.decode_wordR c _ _ _ _ _ (by decide) (by decide)]
   rfl)

theorem tlbiAs (c : Ctx) (rs2 : Gpr) : Statement (.tlbiAs c rs2) := by
  (refine of_decode _ c _ rfl (fun _ => ?_)
   rw [Hymota.decode_wordR c _ _ _ _ _ (by decide) (by decide)]
   rfl)

theorem tlbiAll (c : Ctx) : Statement (.tlbiAll c) := by
  (refine of_decode _ c _ rfl (fun _ => ?_)
   rw [Hymota.decode_wordR c _ _ _ _ _ (by decide) (by decide)]
   rfl)

theorem dcCln (c : Ctx) (rs1 : Gpr) : Statement (.dcCln c rs1) := by
  (refine of_decode _ c _ rfl (fun _ => ?_)
   rw [Hymota.decode_wordR c _ _ _ _ _ (by decide) (by decide)]
   rfl)

theorem dcInv (c : Ctx) (rs1 : Gpr) : Statement (.dcInv c rs1) := by
  (refine of_decode _ c _ rfl (fun _ => ?_)
   rw [Hymota.decode_wordR c _ _ _ _ _ (by decide) (by decide)]
   rfl)

theorem dcCi (c : Ctx) (rs1 : Gpr) : Statement (.dcCi c rs1) := by
  (refine of_decode _ c _ rfl (fun _ => ?_)
   rw [Hymota.decode_wordR c _ _ _ _ _ (by decide) (by decide)]
   rfl)

theorem dcZero (c : Ctx) (rs1 : Gpr) : Statement (.dcZero c rs1) := by
  (refine of_decode _ c _ rfl (fun _ => ?_)
   rw [Hymota.decode_wordR c _ _ _ _ _ (by decide) (by decide)]
   rfl)

theorem lineFillComplete (c : Ctx) (upsets : Upsets) : Statement (.lineFillComplete c upsets) := of_none _ rfl

theorem tableWalk (c : Ctx) (upsets : Upsets) : Statement (.tableWalk c upsets) := of_none _ rfl

theorem latchRefill (c : Ctx) : Statement (.latchRefill c) := of_none _ rfl

theorem exceptionEntry (c : Ctx) : Statement (.exceptionEntry c) := of_none _ rfl

theorem eventEntry (c : Ctx) : Statement (.eventEntry c) := of_none _ rfl

theorem entryFrameAccepted (c : Ctx) : Statement (.entryFrameAccepted c) := of_none _ rfl

theorem liningEntry (c : Ctx) : Statement (.liningEntry c) := of_none _ rfl

theorem liningCausePending (c : Ctx) (cause : LCause) : Statement (.liningCausePending c cause) := of_none _ rfl

theorem tackExpiry (c : Ctx) : Statement (.tackExpiry c) := of_none _ rfl

theorem rsvWrite (who : Who) (n : Fin 4) (data : Word) : Statement (.rsvWrite who n data) := of_none _ rfl

theorem rsvApply (n : Fin 4) : Statement (.rsvApply n) := of_none _ rfl

theorem ddrScrubRead (n : Fin 4) (upsets : Upsets) : Statement (.ddrScrubRead n upsets) := of_none _ rfl

theorem fmScrubRead (upsets : Upsets) : Statement (.fmScrubRead upsets) := of_none _ rfl

theorem ddrMachineCheck (n : Fin 4) (kind : Fin 3) : Statement (.ddrMachineCheck n kind) := of_none _ rfl

theorem dramszWrite (who : Who) (data : Word) : Statement (.dramszWrite who data) := of_none _ rfl

theorem channelTrained (n : Fin 4) (ok : Bool) : Statement (.channelTrained n ok) := of_none _ rfl

theorem eventOccurrence (n : Fin 1536) : Statement (.eventOccurrence n) := of_none _ rfl

theorem groupDeadline (g : Fin 256) : Statement (.groupDeadline g) := of_none _ rfl

theorem evcDoorbell (who : Who) (data : Word) : Statement (.evcDoorbell who data) := of_none _ rfl

theorem eventClaim (sixth : Option Ctx) : Statement (.eventClaim sixth) := of_none _ rfl

theorem evcClaimRead (who : Who) : Statement (.evcClaimRead who) := of_none _ rfl

theorem evcComplete (who : Who) (data : Word) : Statement (.evcComplete who data) := of_none _ rfl

theorem sourceRelease (c : Ctx) : Statement (.sourceRelease c) := of_none _ rfl

theorem scfgWrite (who : Who) (n : Fin 1536) (data : Word) : Statement (.scfgWrite who n data) := of_none _ rfl

theorem tgt3Write (who : Who) (n : Fin 1536) (data : Word) : Statement (.tgt3Write who n data) := of_none _ rfl

theorem groupConfigWrite (who : Who) (g : Fin 256) (time : Bool) (data : Word) : Statement (.groupConfigWrite who g time data) := of_none _ rfl

theorem wakeEvent (n : Fin 1536) : Statement (.wakeEvent n) := of_none _ rfl

theorem frameLatch (p : Fin 4) (upsets : Upsets) : Statement (.frameLatch p upsets) := of_none _ rfl

theorem commitGo (who : Who) (p : Fin 4) (data : Word) : Statement (.commitGo who p data) := of_none _ rfl

theorem pipeEnable (who : Who) (p : Fin 4) (data : Word) : Statement (.pipeEnable who p data) := of_none _ rfl

theorem frameEnd (p : Fin 4) : Statement (.frameEnd p) := of_none _ rfl

theorem lineMatch (p : Fin 4) : Statement (.lineMatch p) := of_none _ rfl

theorem lineFetchStart (p : Fin 4) : Statement (.lineFetchStart p) := of_none _ rfl

theorem planeFetchResponse (p : Fin 4) (upsets : Upsets) : Statement (.planeFetchResponse p upsets) := of_none _ rfl

theorem budgetOverrun (p : Fin 4) : Statement (.budgetOverrun p) := of_none _ rfl

theorem composeStart (p : Fin 4) : Statement (.composeStart p) := of_none _ rfl

theorem outselWrite (who : Who) (p : Fin 4) (data : Word) : Statement (.outselWrite who p data) := of_none _ rfl

theorem linkTrain (who : Who) (p : Fin 4) (data : Word) : Statement (.linkTrain who p data) := of_none _ rfl

theorem linkTrainEnd (p : Fin 4) (answers : TrainAnswers) : Statement (.linkTrainEnd p answers) := of_none _ rfl

theorem auxTransaction (who : Who) (p : Fin 4) (data : Word) : Statement (.auxTransaction who p data) := of_none _ rfl

theorem auxDone (p : Fin 4) (reply : BitVec 2) (count : Fin 17) (bytes : List Byte) : Statement (.auxDone p reply count bytes) := of_none _ rfl

theorem hpdPlug (p : Fin 4) : Statement (.hpdPlug p) := of_none _ rfl

theorem hpdUnplug (p : Fin 4) : Statement (.hpdUnplug p) := of_none _ rfl

theorem irqHpd (p : Fin 4) : Statement (.irqHpd p) := of_none _ rfl

theorem writebackDone (p : Fin 4) (overflow : Bool) : Statement (.writebackDone p overflow) := of_none _ rfl

theorem rrKick (who : Who) (p : Fin 4) (data : Word) : Statement (.rrKick who p data) := of_none _ rfl

theorem llEnd (p : Fin 4) : Statement (.llEnd p) := of_none _ rfl

theorem llWait (p : Fin 4) : Statement (.llWait p) := of_none _ rfl

theorem llWreg (p : Fin 4) : Statement (.llWreg p) := of_none _ rfl

theorem llWregt (p : Fin 4) : Statement (.llWregt p) := of_none _ rfl

theorem llRep (p : Fin 4) : Statement (.llRep p) := of_none _ rfl

theorem llRaise (p : Fin 4) : Statement (.llRaise p) := of_none _ rfl

theorem prsStart (who : Who) (data : Word) (upsets : Upsets) : Statement (.prsStart who data upsets) := of_none _ rfl

theorem prsCopy (upsets : Upsets) : Statement (.prsCopy upsets) := of_none _ rfl

theorem prsFill (upsets : Upsets) : Statement (.prsFill upsets) := of_none _ rfl

theorem prsCkey (upsets : Upsets) : Statement (.prsCkey upsets) := of_none _ rfl

theorem prsBlend (upsets : Upsets) : Statement (.prsBlend upsets) := of_none _ rfl

theorem prsRop (upsets : Upsets) : Statement (.prsRop upsets) := of_none _ rfl

theorem prsRopf (upsets : Upsets) : Statement (.prsRopf upsets) := of_none _ rfl

theorem prsRowLanded (upsets : Upsets) : Statement (.prsRowLanded upsets) := of_none _ rfl

theorem prsAbort (who : Who) (data : Word) : Statement (.prsAbort who data) := of_none _ rfl

theorem prsAbortComplete : Statement (.prsAbortComplete) := of_none _ rfl

theorem shuGo (who : Who) (n : Fin 64) : Statement (.shuGo who n) := of_none _ rfl

theorem shuPause (who : Who) (n : Fin 64) : Statement (.shuPause who n) := of_none _ rfl

theorem shuResume (who : Who) (n : Fin 64) : Statement (.shuResume who n) := of_none _ rfl

theorem shuAbort (who : Who) (n : Fin 64) : Statement (.shuAbort who n) := of_none _ rfl

theorem shuLinear (n : Fin 64) : Statement (.shuLinear n) := of_none _ rfl

theorem shuInterleave (n : Fin 64) : Statement (.shuInterleave n) := of_none _ rfl

theorem shuDeinterleave (n : Fin 64) : Statement (.shuDeinterleave n) := of_none _ rfl

theorem shuSplit (n : Fin 64) : Statement (.shuSplit n) := of_none _ rfl

theorem shuMerge (n : Fin 64) : Statement (.shuMerge n) := of_none _ rfl

theorem shuReadResponse (n : Fin 64) (upsets : Upsets) : Statement (.shuReadResponse n upsets) := of_none _ rfl

theorem shuPaused (n : Fin 64) : Statement (.shuPaused n) := of_none _ rfl

theorem shuDone (n : Fin 64) : Statement (.shuDone n) := of_none _ rfl

theorem shuAbortComplete (n : Fin 64) : Statement (.shuAbortComplete n) := of_none _ rfl

theorem sampleTick (upsets : Upsets) : Statement (.sampleTick upsets) := of_none _ rfl

theorem voiceKeyOn (who : Who) (v : Fin 64) (off : Bool) : Statement (.voiceKeyOn who v off) := of_none _ rfl

theorem voiceKeyOff (who : Who) (v : Fin 64) : Statement (.voiceKeyOff who v) := of_none _ rfl

theorem mixEnd : Statement (.mixEnd) := of_none _ rfl

theorem mixClr : Statement (.mixClr) := of_none _ rfl

theorem mixMix : Statement (.mixMix) := of_none _ rfl

theorem mixMixa : Statement (.mixMixa) := of_none _ rfl

theorem mixOut : Statement (.mixOut) := of_none _ rfl

theorem mixNop : Statement (.mixNop) := of_none _ rfl

theorem tdmReceiveFrame (p : Fin 8) (slots : List Word) : Statement (.tdmReceiveFrame p slots) := of_none _ rfl

theorem streamEnable (who : Who) (writer : Bool) (n : Fin 64) (data : Word) : Statement (.streamEnable who writer n data) := of_none _ rfl

theorem writerFrameLanded (w : Fin 64) (upsets : Upsets) : Statement (.writerFrameLanded w upsets) := of_none _ rfl

theorem programLoad (who : Who) (data : Word) : Statement (.programLoad who data) := of_none _ rfl

theorem programLoadEnd (upsets : Upsets) : Statement (.programLoadEnd upsets) := of_none _ rfl

theorem splGainWrite (who : Who) (g : Fin 1024) (data : Word) : Statement (.splGainWrite who g data) := of_none _ rfl

theorem splAbort (who : Who) (data : Word) : Statement (.splAbort who data) := of_none _ rfl

theorem splTslRead (who : Who) : Statement (.splTslRead who) := of_none _ rfl

theorem frameReceive (p : Fin 10) (frame : List Byte) (ago : Nat) (upsets : Upsets) : Statement (.frameReceive p frame ago upsets) := of_none _ rfl

theorem frameSelect (p : Fin 10) : Statement (.frameSelect p) := of_none _ rfl

theorem frameTransmitEnd (p : Fin 10) (ago : Nat) : Statement (.frameTransmitEnd p ago) := of_none _ rfl

theorem gateSet (who : Who) (p : Fin 8) (data : Word) : Statement (.gateSet who p data) := of_none _ rfl

theorem ageingScan (upsets : Upsets) : Statement (.ageingScan upsets) := of_none _ rfl

theorem cbRecoveryReset (c : Fin 2048) : Statement (.cbRecoveryReset c) := of_none _ rfl

theorem pdelayReqSend (p : Fin 8) : Statement (.pdelayReqSend p) := of_none _ rfl

theorem syncSend (p : Fin 8) : Statement (.syncSend p) := of_none _ rfl

theorem syncAccept : Statement (.syncAccept) := of_none _ rfl

theorem holdoverEnter : Statement (.holdoverEnter) := of_none _ rfl

theorem queueEnable (who : Who) (rx : Bool) (q : Fin 8192) (data : Word) : Statement (.queueEnable who rx q data) := of_none _ rfl

theorem txDoorbell (who : Who) (data : Word) : Statement (.txDoorbell who data) := of_none _ rfl

theorem rxDoorbell (who : Who) (data : Word) : Statement (.rxDoorbell who data) := of_none _ rfl

theorem txDescriptorFetch (q : Fin 8192) (upsets : Upsets) : Statement (.txDescriptorFetch q upsets) := of_none _ rfl

theorem rxCompletionLanded (upsets : Upsets) : Statement (.rxCompletionLanded upsets) := of_none _ rfl

theorem queueAbort (who : Who) (data : Word) : Statement (.queueAbort who data) := of_none _ rfl

theorem queueAbortComplete (rx : Bool) (q : Fin 8192) : Statement (.queueAbortComplete rx q) := of_none _ rfl

theorem telegramInsert (who : Who) (k : Fin 32768) : Statement (.telegramInsert who k) := of_none _ rfl

theorem telegramDelete (who : Who) (k : Fin 32768) : Statement (.telegramDelete who k) := of_none _ rfl

theorem publish (who : Who) (data : Word) : Statement (.publish who data) := of_none _ rfl

theorem telegramBuild (g : Fin 256) (upsets : Upsets) : Statement (.telegramBuild g upsets) := of_none _ rfl

theorem supervisionVisit (upsets : Upsets) : Statement (.supervisionVisit upsets) := of_none _ rfl

theorem portStatusChange (p : Fin 10) (link : Bool) (speed : Fin 6) (verified : Bool) : Statement (.portStatusChange p link speed verified) := of_none _ rfl

theorem measurementSample (streams : List (List Bool)) : Statement (.measurementSample streams) := of_none _ rfl

theorem modulatorFault (ch : Fin 8) (ranged : Bool) : Statement (.modulatorFault ch ranged) := of_none _ rfl

theorem secondEnd : Statement (.secondEnd) := of_none _ rfl

theorem dataPeriodEnd (verified : Bool) : Statement (.dataPeriodEnd verified) := of_none _ rfl

theorem timeMessage (bytes : List Byte) : Statement (.timeMessage bytes) := of_none _ rfl

theorem ppsEdge (after : Fin 1000) : Statement (.ppsEdge after) := of_none _ rfl

theorem syncStateChange : Statement (.syncStateChange) := of_none _ rfl

theorem powerFail : Statement (.powerFail) := of_none _ rfl

theorem islandRestart : Statement (.islandRestart) := of_none _ rfl

theorem mailboxSend : Statement (.mailboxSend) := of_none _ rfl

theorem readyRise : Statement (.readyRise) := of_none _ rfl

theorem readyFall : Statement (.readyFall) := of_none _ rfl

theorem mailboxMessageWrite : Statement (.mailboxMessageWrite) := of_none _ rfl

theorem selmSlotLanded : Statement (.selmSlotLanded) := of_none _ rfl

theorem selmEnable (who : Who) (data : Word) : Statement (.selmEnable who data) := of_none _ rfl

theorem ilinkChange : Statement (.ilinkChange) := of_none _ rfl

theorem cfgReadIdentity : Statement (.cfgReadIdentity) := of_none _ rfl

theorem cfgWriteParameters (block : List Byte) : Statement (.cfgWriteParameters block) := of_none _ rfl

theorem cfgGenerateKey : Statement (.cfgGenerateKey) := of_none _ rfl

theorem cfgDebugAccess : Statement (.cfgDebugAccess) := of_none _ rfl



theorem timerTick (u : Fin 32) : Statement (.timerTick u) := of_none _ rfl

theorem timerReload (u : Fin 32) : Statement (.timerReload u) := of_none _ rfl

theorem compareFire (u : Fin 32) (ch : Fin 4) : Statement (.compareFire u ch) := of_none _ rfl

theorem capture (u : Fin 32) (ch : Fin 4) (level : Bool) : Statement (.capture u ch level) := of_none _ rfl

theorem triggerGate (u : Fin 32) : Statement (.triggerGate u) := of_none _ rfl

theorem triggerReset (u : Fin 32) : Statement (.triggerReset u) := of_none _ rfl

theorem triggerClock (u : Fin 32) : Statement (.triggerClock u) := of_none _ rfl

theorem triggerStart (u : Fin 32) : Statement (.triggerStart u) := of_none _ rfl

theorem timerEnable (who : Who) (u : Fin 32) (data : Word) : Statement (.timerEnable who u data) := of_none _ rfl

theorem cntlRead (who : Who) (u : Fin 32) : Statement (.cntlRead who u) := of_none _ rfl

theorem caplRead (who : Who) (u : Fin 32) (ch : Fin 4) : Statement (.caplRead who u ch) := of_none _ rfl

theorem cntlWrite (who : Who) (u : Fin 32) (data : Word) : Statement (.cntlWrite who u data) := of_none _ rfl

theorem perlWrite (who : Who) (u : Fin 32) (data : Word) : Statement (.perlWrite who u data) := of_none _ rfl

theorem cmplWrite (who : Who) (u : Fin 32) (ch : Fin 4) (data : Word) : Statement (.cmplWrite who u ch data) := of_none _ rfl

theorem cctlModeWrite (who : Who) (u : Fin 32) (ch : Fin 4) (data : Word) : Statement (.cctlModeWrite who u ch data) := of_none _ rfl

theorem debugFreeze (u : Fin 32) : Statement (.debugFreeze u) := of_none _ rfl

theorem pinDset (who : Who) (port : Fin 5) (data : Word) : Statement (.pinDset who port data) := of_none _ rfl

theorem pinDclr (who : Who) (port : Fin 5) (data : Word) : Statement (.pinDclr who port data) := of_none _ rfl

theorem pinDtgl (who : Who) (port : Fin 5) (data : Word) : Statement (.pinDtgl who port data) := of_none _ rfl

theorem pinDriveChange (who : Who) (addr : Nat) (data : Word) : Statement (.pinDriveChange who addr data) := of_none _ rfl

theorem iselWrite (who : Who) (g : Fin 168) (data : Word) : Statement (.iselWrite who g data) := of_none _ rfl

theorem pinIrqOccurrence (n : Fin 16) (level : Bool) : Statement (.pinIrqOccurrence n level) := of_none _ rfl

theorem irqcfgWrite (who : Who) (n : Fin 16) (data : Word) : Statement (.irqcfgWrite who n data) := of_none _ rfl

theorem blockPowerOff (who : Who) (b : Block) : Statement (.blockPowerOff who b) := of_none _ rfl

theorem blockPowerOn (who : Who) (b : Block) : Statement (.blockPowerOn who b) := of_none _ rfl

theorem blockPowerChangeDone (b : Block) : Statement (.blockPowerChangeDone b) := of_none _ rfl

theorem dvfsRequest (who : Who) (q : Fin 4) (data : Word) : Statement (.dvfsRequest who q data) := of_none _ rfl

theorem dvfsDividerChange (q : Fin 4) : Statement (.dvfsDividerChange q) := of_none _ rfl

theorem dvfsSettleEnd (q : Fin 4) (good : Bool) : Statement (.dvfsSettleEnd q good) := of_none _ rfl

theorem dvfsFault (q : Fin 4) : Statement (.dvfsFault q) := of_none _ rfl

theorem standbyArm (who : Who) (data : Word) : Statement (.standbyArm who data) := of_none _ rfl

theorem standbyEntry (steps : Fin 6) : Statement (.standbyEntry steps) := of_none _ rfl

theorem wakeSource (src : Fin 18) : Statement (.wakeSource src) := of_none _ rfl

theorem wakeComplete : Statement (.wakeComplete) := of_none _ rfl

theorem pllLock (n : Fin 14) : Statement (.pllLock n) := of_none _ rfl

theorem pllLockLost (n : Fin 14) : Statement (.pllLockLost n) := of_none _ rfl

theorem pxctlWrite (who : Who) (n : Fin 4) (data : Word) : Statement (.pxctlWrite who n data) := of_none _ rfl

theorem pwronRstN : Statement (.pwronRstN) := of_none _ rfl

theorem sysRstN : Statement (.sysRstN) := of_none _ rfl

theorem sysrst (who : Who) : Statement (.sysrst who) := of_none _ rfl

theorem brst (who : Who) (b : Block) : Statement (.brst who b) := of_none _ rfl

theorem resetRelease (pulled : BitVec 3) : Statement (.resetRelease pulled) := of_none _ rfl

theorem selRstN : Statement (.selRstN) := of_none _ rfl

theorem sysFaultWrite (who : Who) (data : Word) : Statement (.sysFaultWrite who data) := of_none _ rfl

theorem bootStart : Statement (.bootStart) := of_none _ rfl

theorem bootCopyCheck (copy : BootCopy) (failure : Fin 3) : Statement (.bootCopyCheck copy failure) := of_none _ rfl

theorem rcFieldRead (who : Who) (addr : Nat) (hwSet : Word) : Statement (.rcFieldRead who addr hwSet) := of_none _ rfl

theorem frameDone (p : Fin 4) : Statement (.frameDone p) := of_none _ rfl

theorem islandPowerLost : Statement (.islandPowerLost) := of_none _ rfl

end Sys2Proof.Laws.Encoding

namespace Sys2Proof.Laws
open Machine

theorem Encoding.seal : Encoding.Statement (.seal) := Encoding.of_none _ rfl

theorem Encoding.unseal (low : Bool) : Encoding.Statement (.unseal low) := Encoding.of_none _ rfl

end Sys2Proof.Laws
end

