-- ==== Sys2Proof/Tests/Slice0.lean ====
section
/-! SUPPORT. The model's own tests: ill-formed operands that WellFormed refuses, words of the spec's encodings, results of single steps,
and for each statement with premises a concrete state and operands that meet them. -/

namespace Sys2Proof.Tests
set_option Elab.async false
open Machine

/-! ### States -/

/-- After reset, with context 0 running at the boot ROM's first instruction, whose line its core and its quad hold, and offered a slot of its
own, changed by `f`. -/
def running (f : Context → Context) : State :=
  let s := State.reset.setCtx 0 (f { State.reset.ctx 0 with run := .active, npc := 4 })
  let s := { s with sys := { s.sys with clocks := 4 } }
  (s.setCore 0 { s.core 0 with l1i := [0] }).setQuad 0 { s.quad 0 with span := 1, l2 := [⟨0, 0, false, [], .ctx 0 false⟩] }

/-- The tables of a state are canonical where no standby has saved registers. -/
theorem wf_of (s : State) (h : (Memory.wf s.mem && Sparse.rising s.dev && s.evc.saved.isNone) = true) : s.wf := by
  simp only [Bool.and_eq_true, Option.isNone_iff_eq_none] at h
  refine ⟨h.1.1, h.1.2, ?_⟩
  intro v hv
  rw [h.2] at hv
  cases hv

/-- The context who sends most of the commands below. -/
def me : Who := .ctx 0 false

/-- A port's answer is given, and what it gives meets `f`. -/
def okAnd {α : Type} (p : Port α) (f : α → State → Bool) : Bool :=
  match p with
  | .ok v s => f v s
  | _ => false

/-! ### Ill-formed operands -/

theorem test_wf_request_across_a_line :
    (Instr.fabricRequest ⟨.ctx 0 false, .be, .read, 0x1000030, 32, true⟩).wf = false := by decide +kernel
theorem test_wf_request_above_forty_bits :
    (Instr.fabricRequest ⟨.ctx 0 false, .be, .read, 2 ^ 40, 8, true⟩).wf = false := by decide +kernel
theorem test_wf_request_with_too_few_bytes :
    (Instr.fabricRequest ⟨.ctx 0 false, .be, .write [1, 2], 0x1000000, 4, true⟩).wf = false := by decide +kernel
theorem test_wf_register_address :
    (Instr.registerWrite me 0x11200000 0 0).wf = false ∧ (Instr.registerWrite me 0x10000002 0 0).wf = false := by decide +kernel
theorem test_wf_word_shifts :
    (Instr.sllw 0 1 2 (.imm 32)).wf = false ∧ (Instr.srlw 0 1 2 (.imm 63)).wf = false ∧ (Instr.sraw 0 1 2 (.imm 32)).wf = false ∧
    (Instr.sraw 0 1 2 (.imm 31)).wf = true := by decide +kernel
theorem test_wf_conversions : (Instr.cvt 0 0 1 1 2).wf = false ∧ (Instr.cvt 0 4 4 1 2).wf = false := by decide +kernel
theorem test_wf_control_registers : (Instr.rdc 0 1 0x006).wf = false ∧ (Instr.wrc 0 1 0x002).wf = false := by decide +kernel
theorem test_wf_emulation_trap : (Instr.emulationTrap 0 0x00430801).wf = false ∧ (Instr.emulationTrap 0 0).wf = true := by
  decide +kernel
theorem test_wf_lockstep_kind : (Instr.lockstepMismatch 0).wf = false ∧ (Instr.lockstepMismatch 6).wf = false := by decide +kernel

/-! ### Words of Hymota instructions, field by field from the spec (R132, R139 to R166) -/

-- OP 000000, rd 00011, rs1 00100, rs2 00101, S 1, COND 0000, OP2 000001
theorem test_decode_add : Hymota.decode 7 0b000000_00011_00100_00101_1_0000_000001 = some (.add 7 true 3 4 5) := by decide +kernel
theorem test_decode_cpick : Hymota.decode 7 0b000000_00011_00100_00101_0_0110_011100 = some (.cpick 7 6 3 4 5) := by decide +kernel
-- OP 0x01, fn 0x010
theorem test_decode_mul : Hymota.decode 7 0b000001_00011_00100_00101_00000010000 = some (.mulLo 7 3 4 5) := by decide +kernel
-- OP 0x02, I 1, OP2 0001, SH 111111
theorem test_decode_shift : Hymota.decode 7 0b000010_00011_00100_00000_1_0001_111111 = some (.sll 7 3 4 (.imm 63)) := by decide +kernel
theorem test_decode_shift_by_register : Hymota.decode 7 0b000010_00011_00100_00101_0_0011_000000 = some (.sra 7 3 4 (.reg 5)) := by
  decide +kernel
-- OP 0x03, FORM 1, OP2 000011
theorem test_decode_packed : Hymota.decode 7 0b000011_00011_00100_00101_1_0000_000011 = some (.pmul 7 true 3 4 5) := by decide +kernel
-- OP 0x05 FP64, fn 4
theorem test_decode_float : Hymota.decode 7 0b000101_00011_00100_00101_00000000100 = some (.fdiv 7 true 3 4 5) := by decide +kernel
-- OP 0x06, source 100 (FP32), destination 101 (FP64)
theorem test_decode_convert : Hymota.decode 7 0b000110_00011_00100_00000_00000_100_101 = some (.cvt 7 4 5 3 4) := by decide +kernel
-- OP 0x08, imm16
theorem test_decode_immediate : Hymota.decode 7 0b001000_00011_00100_1111111111111110 = some (.addi 7 3 4 0xFFFE) := by decide +kernel
-- OP 0x0E, imm21
theorem test_decode_upper : Hymota.decode 7 0b001110_00011_100000000000000000001 = some (.lui 7 3 0x100001) := by decide +kernel
-- OP 0x12 LW and OP 0x1B SD: rs2 in [25:21], rs1 in [20:16]
theorem test_decode_load : Hymota.decode 7 0b010010_00011_00100_0000000000001000 = some (.lw 7 3 4 8) := by decide +kernel
theorem test_decode_store : Hymota.decode 7 0b011011_00011_00100_1111111111111000 = some (.sd 7 3 4 0xFFF8) := by decide +kernel
-- OP 0x21: rs1, rs2, A, disp15
theorem test_decode_branch : Hymota.decode 7 0b100001_00011_00100_1_111111111111111 = some (.bne 7 true 3 4 0x7FFF) := by decide +kernel
-- OP 0x26: COND, A, disp21
theorem test_decode_flag_branch : Hymota.decode 7 0b100110_1001_0_000000000000000000011 = some (.bf 7 9 false 3) := by decide +kernel
theorem test_decode_call : Hymota.decode 7 0b101001_00000000000000000000000101 = some (.call 7 5) := by decide +kernel
theorem test_decode_return : Hymota.decode 7 0b101010_00000_00000_00000_00000000011 = some (.ret 7) := by decide +kernel
theorem test_decode_loop : Hymota.decode 7 0b101011_00011_00000_0000000000000111 = some (.hwLoop 7 3 7) := by decide +kernel
-- OP 0x2C, OP2 0011 CMP, ES 10
theorem test_decode_block_repeat : Hymota.decode 7 0b101100_00000_00000_00000_00000_0011_10 = some (.cmp 7 2) := by decide +kernel
-- OP 0x2D, ORD 11, SZ 1, OP2 10000
theorem test_decode_atomic : Hymota.decode 7 0b101101_00011_00100_00101_11_1_000_10000 = some (.amCas 7 3 true 3 4 5) := by
  decide +kernel
theorem test_decode_fence : Hymota.decode 7 0b101110_00000_00000_00000_00000000101 = some (.ifence 7) := by decide +kernel
theorem test_decode_pins : Hymota.decode 7 0b101111_00000_00100_00000_00000000011 = some (.pinSet 7 4) := by decide +kernel
theorem test_decode_system : Hymota.decode 7 0b110000_00000_00100_00101_00000010000 = some (.tlbiVa 7 4 5) := by decide +kernel
-- OP 0x31 RDC and OP 0x32 WRC of xsp, 0x031
theorem test_decode_rdc : Hymota.decode 7 0b110001_00011_00000_0000_000000110001 = some (.rdc 7 3 0x031) := by decide +kernel
theorem test_decode_wrc : Hymota.decode 7 0b110010_00011_00000_0000_000000110001 = some (.wrc 7 3 0x031) := by decide +kernel
theorem test_decode_reserved : Hymota.decode 7 0 = none ∧ Hymota.decode 7 0b000000_00011_00100_00101_0_0001_000001 = none ∧
    Hymota.decode 7 0b110010_00011_00000_0000_000000000010 = none := by decide +kernel
theorem test_table_gives_no_words : decodeTableWord 32 0x00430801 = none := rfl

/-! ### Premises: arithmetic (05) -/

theorem test_issues : (running id).issues 0 .plain ∧ (running id).issues 0 .branch ∧ (running id).reaches 0 ∧
    (running (fun x => { x with slot := true })).issues 0 .plain := by
  unfold State.issues State.reaches State.fetchesQuietly SameButFetch
  repeat' apply And.intro
  all_goals decide +kernel
theorem test_convertible : Hymota.convertible 0 4 = true ∧ Hymota.convertible 5 4 = true := by decide +kernel
theorem test_nan_premises : (FVal.nan false).isNan = true ∧ ((ffmt false).decode 0x7F800001).isNan = true ∧
    ((ffmt true).decode 0xFFF0000000000001).isNan = true ∧ (4 : Nat) ≤ (5 : BitVec 3).toNat := by decide +kernel

-- 2^63 - 1 + 1 overflows (R143)
theorem test_add_overflows : ∃ t, exec (.add 0 true 1 2 3) (running (fun x => (x.wg 2 (2 ^ 63 - 1)).wg 3 1)) = .next t ∧
    (t.ctx 0).rg 1 = 2 ^ 63 ∧ (t.ctx 0).flags = ⟨true, false, false, true, false⟩ := ⟨_, rfl, by decide +kernel⟩
-- 0 - 1 borrows (R143)
theorem test_sub_borrows : ∃ t, exec (.sub 0 true 1 0 3) (running (fun x => x.wg 3 1)) = .next t ∧
    (t.ctx 0).rg 1 = 2 ^ 64 - 1 ∧ (t.ctx 0).flags = ⟨true, false, true, false, false⟩ := ⟨_, rfl, by decide +kernel⟩
-- the quotient by 0 is 0 and the remainder the dividend (R145)
theorem test_division_by_zero : ∃ t, exec (.quoS 0 1 2 3) (running (fun x => x.wg 2 7)) = .next t ∧ (t.ctx 0).rg 1 = 0 :=
  ⟨_, rfl, by decide +kernel⟩
-- 3 × 4 in FP32 is 12 (R150)
theorem test_float_product : ∃ t, exec (.fmul 0 false 1 2 3) (running (fun x => (x.wg 2 0x40400000).wg 3 0x40800000)) = .next t ∧
    (t.ctx 0).rg 1 = 0x41400000 ∧ (t.ctx 0).fpcsr = 0 := ⟨_, rfl, by decide +kernel⟩
-- 0x7FFFFF + 1 clamps (R129)
theorem test_packed_clamps : ∃ t, exec (.padd 0 false 1 2 3) (running (fun x => (x.wg 2 0x7FFFFF).wg 3 1)) = .next t ∧
    (t.ctx 0).rg 1 = 0x7FFFFF ∧ (t.ctx 0).flags.sat = true := ⟨_, rfl, by decide +kernel⟩

/-! ### Premises: control flow (03, 05) -/

/-- In the Lining level, with a return stack of two entries, one of them in use, in the Lining store. -/
def stacked : State := running (fun x =>
  { x with
    status := { x.status with lvl := true }
    rsp := 0x4000108
    rsbase := 0x4000100
    rstop := 0x4000110
    latch := some 0x100 })

theorem test_call_premises : (0x4000100 : Nat) + 8 ≤ (stacked.ctx 0).rsp.toNat ∧
    ∃ u, (stacked.fetched 0).portWrite 0 (stacked.ctx 0).status.ring .push ((stacked.ctx 0).rsp - 8)
      (leBytes 8 ((stacked.ctx 0).pc + 8).toNat) = .ok () u := by
  refine ⟨by decide +kernel, ?_⟩
  exact ⟨_, rfl⟩

theorem test_call_overflow_premises : (running id).issues 0 .branch ∧
    ((running id).ctx 0).rsp.toNat < ((running id).ctx 0).rsbase.toNat + 8 ∧
    ((running id).ctx 0).rstop.toNat ≤ ((running id).ctx 0).rsp.toNat := by
  unfold State.issues State.reaches State.fetchesQuietly SameButFetch
  repeat' apply And.intro
  all_goals decide +kernel

theorem test_return_premises : stacked.issues 0 .branch ∧ (stacked.ctx 0).latch = some 0x100 ∧
    (stacked.ctx 0).rsp.toNat < (stacked.ctx 0).rstop.toNat := by
  unfold State.issues State.reaches State.fetchesQuietly SameButFetch
  repeat' apply And.intro
  all_goals decide +kernel

theorem test_refill_premises :
    let x := { stacked.ctx 0 with latch := none, wait := Wait.latch }
    x.run = .active ∧ x.entry = none ∧ x.rsp.toNat < x.rstop.toNat ∧
    ∃ b u, (stacked.setCtx 0 { x with wait := .none }).readNow 0 x.status.ring .latch x.rsp 8 = .ok b u := by
  refine ⟨by decide +kernel, by decide +kernel, by decide +kernel, ?_⟩
  exact ⟨_, _, rfl⟩

theorem test_misplaced_premises :
    (running (fun x => { x with slot := true, pc := 8, npc := 12, le := 8, lc := 1 })).reaches 0 ∧
    (running (fun x => { x with pc := 8, npc := 12, le := 8, lc := 1 })).reaches 0 ∧
    (running (fun x => { x with slot := true })).mayPrivileged 0 := by
  unfold State.reaches State.fetchesQuietly SameButFetch State.mayPrivileged
  repeat' apply And.intro
  all_goals decide +kernel

theorem test_annulled_premises : ((running (fun x => { x with slot := true, annul := true })).ctx 0).canIssue = true ∧
    ((running (fun x => { x with slot := true, annul := true })).ctx 0).shadowDue = false := by decide +kernel

-- an untaken BEQ with A = 1 annuls its slot, at 3 slots where it was predicted taken (R86, R87)
theorem test_untaken_branch : ∃ t, exec (.beq 0 true 1 2 0x7FFF) (running (fun x => { x.wg 1 1 with pc := 8, npc := 12 })) = .next t ∧
    (t.ctx 0).pc = 12 ∧ (t.ctx 0).npc = 16 ∧ (t.ctx 0).annul = true ∧ (t.ctx 0).slots = 3 := ⟨_, rfl, by decide +kernel⟩

/-! ### Premises: loads, stores and atomics (05, 07) -/

/-- The quad of context 0 holds the line at 0x100_0000 with the bytes 1, 2, 3 and so on, and g2 points at it. -/
def holding : State :=
  let s := running (fun x => x.wg 2 0x1000000)
  s.setQuad 0 { s.quad 0 with l2 := ⟨0x40000, 0x0807060504030201, false, [], .ctx 0 false⟩ :: (s.quad 0).l2 }

theorem test_held_line_premises : holding.issues 0 .plain ∧ HeldClean holding 0 0x1000000 ⟨0x40000, 0x0807060504030201, false, [], .ctx 0 false⟩ := by
  unfold State.issues State.reaches State.fetchesQuietly SameButFetch HeldClean
  repeat' apply And.intro
  all_goals decide +kernel

theorem test_access_premises : ∀ acc ∈ [Access.load, .store, .atomic], ∀ n ∈ [1, 2, 4, 6, 8],
    CacheAccess holding 0 acc 0x1000000 n 0x1000000 := by
  unfold CacheAccess SameButTlbs
  decide +kernel

theorem test_unique_premises :
    (∀ j : Fin 16, quadOf j = quadOf 0 → j ≠ 0 → (holding.core j).l1d.contains (lineOf 0x1000000) = false) ∧
    (∀ q : Fin 4, q ≠ quadOf 0 → holding.l2Get q (lineOf 0x1000000) = none) ∧ (holding.core 0).l1d.contains (lineOf 0x1000000) = false := by
  decide +kernel

theorem test_other_quads_hold_nothing : CleanElsewhere holding 0 0x1000000 := by
  intro q l hq h
  have hn : ∀ q : Fin 4, q ≠ quadOf (coreOf 0) → holding.l2Get q (lineOf 0x1000000) = none := by decide +kernel
  rw [hn q hq] at h
  cases h

-- LD reads the line's bytes least significant first (R147)
theorem test_load : ∃ t, exec (.ld 0 1 2 0) holding = .next t ∧ (t.ctx 0).rg 1 = 0x0807060504030201 := ⟨_, rfl, by decide +kernel⟩
-- SB changes one byte of the line, which is dirty then (R147, R213)
theorem test_store : ∃ t, exec (.sb 0 2 2 1) holding = .next t ∧
    (t.l2Get 0 0x40000).map (fun l => (l.data, l.dirty)) = some (0x0807060504030001, true) := ⟨_, rfl, by decide +kernel⟩
/-- As `holding`, with the line held by the core itself, and so uniquely. -/
def holdingUnique : State := holding.setCore 0 { holding.core 0 with l1d := [0x40000] }

-- AM.ADD leaves the sum and gives the old value (R160)
theorem test_atomic_add : ∃ t, exec (.amAdd 0 0 true 1 2 2) holdingUnique = .next t ∧ (t.ctx 0).rg 1 = 0x0807060504030201 ∧
    (t.l2Get 0 0x40000).map (fun l => l.data) = some 0x0807060505030201 := ⟨_, rfl, by decide +kernel⟩

theorem test_port_premises :
    (∃ b u, (holding.fetched 0).accRead 0 .load 0x1000000 4 = .ok b u) ∧
    (∃ u, (holding.fetched 0).accRead 0 .load 0x1000040 4 = .wait u) ∧
    (∃ k u, (holding.fetched 0).accRead 0 .load 0x0FFFFFC 4 = .cause k u) ∧
    (∃ u, (holding.fetched 0).accWrite 0 .store 0x1000000 [1] (fun u => u.done 0 1) = .ok () u) ∧
    (∃ u, (holding.fetched 0).accWrite 0 .store 0x1000040 [1] (fun u => u.done 0 1) = .wait u) ∧
    (∃ k u, (holding.fetched 0).accWrite 0 .store 0x0FFFFFC [1] (fun u => u.done 0 1) = .cause k u) := by
  refine ⟨⟨_, _, rfl⟩, ⟨_, rfl⟩, ⟨_, _, rfl⟩, ⟨_, rfl⟩, ⟨_, rfl⟩, ⟨_, _, rfl⟩⟩

theorem test_register_space_premises :
    let s := running (fun x => x.wg 2 0x10D00000)
    s.issues 0 .plain ∧ s.region 0x10D00000 = .devReg ∧ ((s.fetched 0).xlate 0 0 0x10D00000 .load).1 = .ok 0x10D00000 .dev ∧
    ((s.fetched 0).xlate 0 0 0x10D00000 .load).2.ctx 0 = s.ctx 0 ∧ ((s.fetched 0).xlate 0 0 0x10D00000 .store).1 = .ok 0x10D00000 .dev ∧
    s.firewall ⟨.ctx 0 false, s.ctxClass 0, .read, 0x10D00000, 4, true⟩ = .allowed ∧
    s.firewall ⟨.ctx 0 false, s.ctxClass 0, .write [0, 0, 0, 0], 0x10D00000, 4, true⟩ = .allowed ∧ s.regWaits 0x10D00000 = false ∧
    Sparse.get 0 (s.readReg me 0x10D00000 0).fab.resp ≠ some .uncorrectable := by
  unfold State.issues State.reaches State.fetchesQuietly SameButFetch
  repeat' apply And.intro
  all_goals decide +kernel

theorem test_misaligned_atomic_premise : ((0x1000001 : VAddr).toNat % 8 ≠ 0) := by decide

theorem test_empty_block_premises : (running id).issues 0 .plain ∧ ((running id).ctx 0).rg 6 = 0 ∧ ((running id).ctx 0).brpt = none := by
  unfold State.issues State.reaches State.fetchesQuietly SameButFetch
  repeat' apply And.intro
  all_goals decide +kernel

/-- As `holding`, with the operands of a block repeat of 4 bytes within the line. -/
def repeating : State := holding.setCtx 0 ((((holding.ctx 0).wg 4 0x1000000).wg 5 0x1000010).wg 6 4)

theorem test_one_chunk_premises : repeating.issues 0 .plain ∧ (repeating.ctx 0).brpt = none ∧ 0 < ((repeating.ctx 0).rg 6).toNat ∧
    ((repeating.ctx 0).rg 6).toNat ≤ 8 ∧
    okAnd ((repeating.fetched 0).accRead 0 .load 0x1000000 4) (fun b u => decide (u.ctx 0 = repeating.ctx 0) && b.length == 4 &&
      okAnd (u.accRead 0 .load 0x1000010 4) (fun d w => decide (w.ctx 0 = repeating.ctx 0) && d.length == 4 && b != d) &&
      okAnd (u.accWrite 0 .store 0x1000010 b (fun v => v.done 0 3)) (fun _ _ => true)) = true ∧
    okAnd ((repeating.fetched 0).accWrite 0 .store 0x1000010 [0, 0, 0, 0] (fun v => v.done 0 2)) (fun _ _ => true) = true := by
  unfold State.issues State.reaches State.fetchesQuietly SameButFetch
  repeat' apply And.intro
  all_goals decide +kernel

/-! ### Premises: rings, exceptions and translation (04, 06, 07) -/

/-- A context in ring 1. -/
def inRing1 : State := running (fun x => { x with status := { x.status with ring := 1 } })

/-- A context with room for frames on its exception stack, which lies in fabric memory. -/
def withStack (f : Context → Context) : State := running (fun x => f { x with xsp := 0x1000100, xlim := 0x1000000 })

theorem test_ring_premises : RingAllows ((running id).ctx 0) 0 ∧ ¬ RingAllows (inRing1.ctx 0) 0 ∧ inRing1.issues 0 .plain ∧
    ¬ inRing1.mayPrivileged 0 ∧ RingAllows ((running (fun x => { x with status := { x.status with lvl := true } })).ctx 0) 4 := by
  unfold RingAllows State.issues State.reaches State.fetchesQuietly SameButFetch State.mayPrivileged
  repeat' apply And.intro
  all_goals decide +kernel

theorem test_shadow_premises : ((running (fun x => { x with shadows := [⟨false, 1, 0⟩, ⟨true, 2, 1⟩] })).ctx 0).shadows =
    ⟨false, 1, 0⟩ :: [⟨true, 2, 1⟩] ∧ ∀ h ∈ ([⟨true, 2, 1⟩] : List Shadow), h.left ≠ 0 := by decide +kernel

theorem test_reserved_number_premises : (0x006 : Nat) ∉ Hymota.cregs ∧ Hymota.readable 6 = false := by decide +kernel

-- the WRC of status waits for two instructions (R116)
theorem test_wrc_status_waits : ∃ t, exec (.wrc 0 1 0) (running (fun x => x.wg 1 3)) = .next t ∧
    (t.ctx 0).status.ring = 0 ∧ (t.ctx 0).shadows = [⟨false, 3, 2⟩] := ⟨_, rfl, by decide +kernel⟩

theorem test_break_premises : ((running id).setFld Reg.DBG_CTRL Fld.DBG_CTRL_BRKCLAIM 1).flag Reg.DBG_CTRL Fld.DBG_CTRL_BRKCLAIM = true ∧
    (running id).flag Reg.DBG_CTRL Fld.DBG_CTRL_BRKCLAIM = false ∧
    ((running (fun x => { x with status := { x.status with tack := true } })).ctx 0).tackrem = 0 := by decide +kernel

theorem test_entry_premises :
    let y := ((withStack id).ctx 0).flushShadows
    y.xlim.toNat + 64 ≤ y.xsp.toNat ∧ ((running id).ctx 0).flushShadows.xsp.toNat < ((running id).ctx 0).flushShadows.xlim.toNat + 64 := by
  decide +kernel

/-- The entry of a divide trap of the context below. -/
def entry : Entry :=
  { kind := .exception, code := 5, num := 0, sub := 0, wr := false, half := false, sh := false, ds := false, addr := 0, savedPc := 0,
    savedNpc := 4, claimed := false }

theorem test_frame_premises :
    let s := withStack (fun x => { x with entry := some entry })
    let r := s.xlateNow 0 0 0x10000C0 .store
    let w := r.2.2.fullLine 0 0x10000C0 .wb (List.replicate 64 1)
    r.1 = .ok 0x10000C0 .wb ∧ r.2.1 = none ∧ r.2.2.ctx 0 = s.ctx 0 ∧ w.1 = .made ∧ w.2.ctx 0 = s.ctx 0 := by
  decide +kernel

theorem test_lining_premises :
    let s := (running (fun x => { x with lpend := 4 })).setFld Reg.SYS_BOOTSTAT Fld.SYS_BOOTSTAT_OK 1
    s.wf ∧ (s.ctx 0).lpend.getLsbD 2 = true ∧ (∀ j, j < 2 → (s.ctx 0).lpend.getLsbD j = false) ∧ (s.ctx 0).ldepth.toNat + 1 ≤ 16 ∧
    s.flag Reg.SYS_BOOTSTAT Fld.SYS_BOOTSTAT_OK = true ∧ (s.ctx 0).entry = none ∧ (s.ctx 0).midGroup = false ∧ s.waitingAt 33 = 0 := by
  refine ⟨wf_of _ (by decide +kernel), ?_⟩
  decide +kernel

theorem test_lining_return_premises :
    let s := running (fun x => { x with status := { x.status with lvl := true }, ldepth := 1 })
    s.issues 0 .transfer ∧ (s.ctx 0).heldKill = false ∧
    (∀ i, i < 8 → Sparse.get (0x40603C0 + 8 * i) s.ecc = none) ∧ s.waitingAt 33 = 0 ∧ ∀ p, s.l2Get p (lineOf 0x40603C0) = none := by
  unfold State.issues State.reaches State.fetchesQuietly SameButFetch
  repeat' apply And.intro
  all_goals decide +kernel

theorem test_return_frame_premises :
    let s := withStack id
    ∃ b u, ((s.fetched 0).setCtx 0 (s.ctx 0).flushShadows).readNow 0 0 .load 0x1000100 64 = .ok b u ∧ (u.ctx 0).heldKill = false :=
  ⟨_, _, rfl, by decide +kernel⟩

theorem test_return_fault_premises :
    let s := running (fun x => { x with xsp := 0xFFFFC0 })
    ∃ k u, ((s.fetched 0).setCtx 0 (s.ctx 0).flushShadows).readNow 0 0 .load 0xFFFFC0 64 = .cause k u := ⟨_, _, rfl⟩

/-- A gate table of one descriptor at 0x100_2000, for ring 0 and into ring 0: its target 0x400 and its word of type and masks. -/
def gated (d1 : List Byte) : State :=
  let s := withStack (fun x => { x with gtbase := 0x1002000, gtcount := 1 })
  { s with mem := Memory.writes (Memory.writes s.mem 0x1002000 [0, 4, 0, 0, 0, 0, 0, 0]) 0x1002008 d1 }

theorem test_gate_premises :
    (gated [0x10, 1]).issues 0 .transfer ∧ ((gated [0x10, 1]).ctx 0).shadows = [] ∧ (0 : Nat) < ((gated [0x10, 1]).ctx 0).gtcount.toNat ∧
    gateValid 0x400 0x110 = true ∧ gateValid 0x400 0x210 = true ∧ gateValid 0x400 0x310 = false := by
  unfold State.issues State.reaches State.fetchesQuietly SameButFetch
  repeat' apply And.intro
  all_goals decide +kernel

theorem test_gate_table_premises :
    let table (d : List Byte) := ((gated d).fetched 0).readGate 0 0x1002000
    okAnd (table [0x10, 1]) (fun d v => d == (0x400, 0x110) && decide (v.ctx 0 = (gated [0x10, 1]).ctx 0)) = true ∧
    okAnd (table [0, 1]) (fun d _ => d == (0x400, 0x100)) = true ∧
    okAnd (table [0x10, 2]) (fun d v => d == (0x400, 0x210) &&
      okAnd ((v.setCtx 0 (v.ctx 0).flushShadows).readNow 0 0 .load 0x1000100 64) (fun _ u => (u.ctx 0).status.lvl == false)) = true := by
  decide +kernel

-- a call gate begins an entry with code 0x11 (R182)
theorem test_gate_call : ∃ t, exec (.gate 0 0) (gated [0x10, 1]) = .next t ∧
    (t.ctx 0).entry.map (fun e => (e.code, e.savedPc)) = some (0x11, 4) := ⟨_, rfl, by decide +kernel⟩

theorem test_fetch_fault_premises :
    (∃ r l u, (running (fun x => { x with pc := 0x10000000000 })).fetch 0 = (.fault r l, u)) ∧
    (∃ u, (running (fun x => { x with pc := 0x3000000 })).fetch 0 = (.refused, u)) := ⟨⟨_, _, _, rfl⟩, ⟨_, rfl⟩⟩

/-- Event 5 pending and enabled for context 0. -/
def eventful (f : Context → Context) : State :=
  ((((withStack f).setFld (Reg.EVC_SCFG 5) Fld.EVC_SCFG_EN 1).setFld (Reg.EVC_SSTAT 5) Fld.EVC_SSTAT_PEND 1).setReg (Reg.EVC_TGT 5 0) 1)

theorem test_event_premises :
    let s := { eventful (fun x => { x with status := { x.status with ie := true } }) with evc := { State.reset.evc with offSeen := 0 } }
    s.presented 0 = some 5 ∧ (s.ctx 0).status.ie = true ∧ (s.ctx 0).canIssue = true ∧ (s.ctx 0).haltDue = false ∧
    (running id).presented 0 = none := by decide +kernel

/-- As `holding`, with the line dirty. -/
def dirty : State := holding.setQuad 0 { holding.quad 0 with
  l2 := [⟨0x40000, 0x0807060504030201, true, [], .ctx 0 false⟩, ⟨0, 0, false, [], .ctx 0 false⟩] }

theorem test_maintenance_premises :
    dirty.issues 0 .plain ∧ dirty.mayPrivileged 0 ∧ dirty.region 0x1000000 = .bank 0 ∧
    dirty.firewall ⟨.ctx 0 false, .be, .fullLine (List.replicate 64 0), 0x1000000, 64, true⟩ = .allowed ∧
    (∀ p : Fin 4, p ≠ 0 → dirty.l2Get p 0x40000 = none) ∧ ((dirty.fetched 0).xlate 0 0 0x1000000 .dcRead).1 = .ok 0x1000000 .wb ∧
    ((dirty.fetched 0).xlate 0 0 0x1000000 .dcInv).1 = .ok 0x1000000 .wb ∧
    ((dirty.fetched 0).xlate 0 0 0x1000000 .dcZero).1 = .ok 0x1000000 .wb ∧
    ((dirty.fetched 0).xlate 0 0 0x10000000 .dcRead).1 = .ok 0x10000000 .dev ∧
    (∀ acc ∈ [Access.dcRead, .dcInv, .dcZero], SameButTlbs (dirty.fetched 0) ((dirty.fetched 0).xlate 0 0 0x1000000 acc).2 0) := by
  unfold State.issues State.reaches State.fetchesQuietly SameButFetch State.mayPrivileged SameButTlbs
  repeat' apply And.intro
  all_goals decide +kernel

theorem test_maintenance_tables : dirty.wf := wf_of _ (by decide +kernel)

-- DC.CLN writes the line back and keeps it clean (R217)
theorem test_clean : ∃ t, exec (.dcCln 0 2) dirty = .next t ∧ Memory.read t.mem 0x1000003 = 4 ∧
    (t.l2Get 0 0x40000).map (fun l => l.dirty) = some false := ⟨_, rfl, by decide +kernel⟩

/-- A table with one gigabyte leaf at address 0, and the context waiting for its walk. -/
def walking : State :=
  let s := running (fun x => { x with ptroot := 0x1000000, wait := .walk 0x1234 .load false [] })
  { s with mem := Memory.writes (Memory.writes s.mem 0x1000000 [3, 0x10, 0, 1]) 0x1001000 [1, 7] }

theorem test_walk_premises :
    (walking.walk 0 0x1234).1 = .leaf { bits := 30, vpn := 0, asid := 0, glob := false, ppn := 0, ring := 0, rd := true, wr := true, ex := true, type := 0 } ∧ (walking.walk 0 0x8000000000).1 = .fault 1 0 := by
  decide +kernel

theorem test_fill_premises :
    let s := running (fun x => { x with wait := .fill 0x1000000 0x1000000 .load false })
    (s.ctx 0).wait = .fill 0x1000000 0x1000000 .load false ∧ s.memHeld 0x1000000 = false ∧ (∀ p, s.l2Get p 0x40000 = none) ∧
    s.targetOf 0x1000000 = some 0 ∧ s.waitingAt 0 = 0 ∧ (∀ i, i < 8 → Sparse.get (located (0x1000000 + 8 * i)) s.ecc = none) ∧
    (s.quad 0).l2.length < 16 ∧ s.fab.snoop.length < 16 := by
  decide +kernel

/-! ### Premises: pins, wheels, contexts and lockstep (03, 15) -/

theorem test_pin_port_premises :
    let s := (running id).setFlds (Reg.PIN_PPCTL 0) [(Fld.PIN_PPCTL_CTX, 1), (Fld.PIN_PPCTL_RING, 0), (Fld.PIN_PPCTL_EN, 1)]
    (s.ctx 0).status.ring.toNat ≤ s.fld (Reg.PIN_PPCTL 0) Fld.PIN_PPCTL_RING ∧ s.fld (Reg.PIN_PPCTL 0) Fld.PIN_PPCTL_CTX / 2 ^ 0 % 2 = 1 ∧
    (running id).fld (Reg.PIN_PPCTL 0) Fld.PIN_PPCTL_CTX / 2 ^ 0 % 2 = 0 := by decide +kernel

-- with no pin mapped a read gives 0 (R467)
theorem test_unmapped_pins_read_zero :
    let s := (running id).setFlds (Reg.PIN_PPCTL 0) [(Fld.PIN_PPCTL_CTX, 1)]
    ∃ t, exec (.pinIn 0 1) s = .next t ∧ (t.ctx 0).rg 1 = 0 := ⟨_, rfl, by decide +kernel⟩

/-- Lockstep in force on the safety core. -/
def locking : State := (running id).setFld Reg.HYC_LSCTL Fld.HYC_LSCTL_ACTIVE 1

theorem test_wheel_premises : (running id).wf ∧ (running id).locked (Reg.HYC_WHEELLO 0) = false ∧ locking.lockstep = true ∧
    ((running id).setFld (Reg.HYC_CCTL 0) Fld.HYC_CCTL_STRICT 1).flag (Reg.HYC_CCTL 0) Fld.HYC_CCTL_STRICT = true ∧
    locking.lockedOut 120 = true ∧ (running id).lockedOut 120 = false ∧
    ((running id).setCore 0 { (running id).core 0 with staged := some (0x76543210, 0x76543210) }).core 0 ≠ (running id).core 0 := by
  refine ⟨wf_of _ (by decide +kernel), ?_⟩
  decide +kernel

theorem test_spacing_premises : WellSpaced 0x76543210 0x76543210 3 ∧ ¬ WellSpaced 0x76543200 0x76543210 0 := by
  refine ⟨?_, ?_⟩
  · have h : ∀ p, p < 16 → ∀ q, q < 16 → p ≠ q → (0x7654321076543210 : Nat) / 16 ^ p % 16 = 3 →
        (0x7654321076543210 : Nat) / 16 ^ q % 16 = 3 → 4 ≤ (q + 16 - p) % 16 := by decide +kernel
    intro p q hp hq hn h1 h2
    exact h p hp q hq hn h1 h2
  · intro h
    exact absurd (h 0 1 (by decide) (by decide) (by decide) (by decide) (by decide)) (by decide)

theorem test_context_premises : (running id).wf ∧ ((running id).ctx 5).run = .off ∧ ((running id).ctx 0).run = .active ∧
    ((running (fun x => { x with run := .killing })).ctx 0).run = .killing ∧
    ((running id).setFld (Reg.HYC_CSTAT 5) Fld.HYC_CSTAT_STOPPED 1).flag (Reg.HYC_CSTAT 5) Fld.HYC_CSTAT_STOPPED = true := by
  refine ⟨wf_of _ (by decide +kernel), ?_⟩
  decide +kernel

theorem test_lockstep_premises : locking.wf ∧ locking.flag Reg.HYC_LSSTAT Fld.HYC_LSSTAT_SPLIT = false ∧ (1 : BitVec 3).toNat = 1 := by
  refine ⟨wf_of _ (by decide +kernel), ?_⟩
  decide +kernel

/-! ### Premises: debug, memory, events and the fabric (01, 03, 07, 08) -/

theorem test_debug_premises :
    let s := (running (fun x => { x with haltReq := some false })).setFld Reg.DBG_CTRL Fld.DBG_CTRL_NOHALT 1
    s.wf ∧ s.flag Reg.DBG_CTRL Fld.DBG_CTRL_NOHALT = true ∧ me.lining = false ∧ (s.ctx 0).haltReq = some false ∧
    (s.ctx 0).status.lvl = false ∧ (s.ctx 0).canIssue = true ∧ (running id).flag Reg.DBG_CTRL Fld.DBG_CTRL_NOHALT = false := by
  refine ⟨wf_of _ (by decide +kernel), ?_⟩
  decide +kernel

theorem test_debug_register_premises :
    let s (n : Nat) := (running (fun x => { x with run := .halted })).setFld Reg.DBG_RSEL Fld.DBG_RSEL_REG n
    (s 0x1004).wf ∧ (∀ n ∈ [0, 31, 0x20, 0x21, 0x1004], (s n).fld Reg.DBG_RSEL Fld.DBG_RSEL_REG = n) ∧
    Hymota.readable (BitVec.ofNat 12 4) = true ∧ (readRing 4).isSome = true ∧
    (((s 0).ctx (Fin.ofNat 128 ((s 0).fld Reg.DBG_RSEL Fld.DBG_RSEL_CTX))).run = .halted) ∧ ¬ (0x22 ≤ 0x21) := by
  refine ⟨wf_of _ (by decide +kernel), ?_⟩
  decide +kernel

/-- A debug port access: a read of fabric memory. -/
def portRead : BitVec 73 := 0x100000000000000

theorem test_access_port_premises :
    let s := State.reset
    let r (a : Nat) : Request := ⟨.debug, .be, .read, a, 4, true⟩
    s.dbg.tapOutstanding = none ∧ portRead.toNat / 2 ^ 32 % 2 ^ 40 = 0x1000000 ∧ portRead.getLsbD 72 = false ∧
    s.firewall (r 0x1000000) = .allowed ∧ s.firewall (r 0) = .refused 2 0 ∧ (∃ b, s.targetOf 0x1000000 = some b) ∧
    s.targetOf 0x10D00000 = none ∧ s.firewall (r 0x10D00000) = .allowed ∧ s.regHeld 0x10D00000 = false := by
  refine ⟨by decide +kernel, by decide +kernel, by decide +kernel, by decide +kernel, by decide +kernel, ⟨_, rfl⟩, by decide +kernel,
    by decide +kernel, by decide +kernel⟩

theorem test_port_held_premises : { State.reset with sys := { State.reset.sys with standby := 6 } }.portHeld 0x1000000 = true ∧
    State.reset.portHeld 0x1000000 = false := by decide +kernel

/-- DRAM of the smallest size, all channels trained, the scrubbers on. -/
def scrubbing : State :=
  (((running id).setFld Reg.MEM_CTRL Fld.MEM_CTRL_DRAMSZ 1).setFld Reg.MEM_STAT Fld.MEM_STAT_CHRDY 15).setFlds Reg.MEM_SCRUB
    [(Fld.MEM_SCRUB_DEN, 1), (Fld.MEM_SCRUB_FEN, 1)]

theorem test_scrub_premises : scrubbing.wf ∧ scrubbing.flag Reg.MEM_SCRUB Fld.MEM_SCRUB_DEN = true ∧
    scrubbing.flag Reg.MEM_SCRUB Fld.MEM_SCRUB_FEN = true ∧ scrubbing.fld Reg.MEM_STAT Fld.MEM_STAT_CHRDY / 2 ^ 3 % 2 = 1 ∧
    0 < scrubbing.dramSize / 256 ∧ scrubbing.ecc = [] ∧ scrubbing.locked (Reg.MEM_RSV 0) = false ∧
    scrubbing.flag Reg.MEM_ECCSTAT Fld.MEM_ECCSTAT_VALID = false ∧ scrubbing.reg Reg.MEM_CECNT ≠ 0xFFFFFFFF ∧
    Fld.MEM_RSV_RT0.get 24 + Fld.MEM_RSV_RT1.get 24 ≤ 48 := by
  refine ⟨wf_of _ (by decide +kernel), ?_⟩
  decide +kernel

-- one inverted bit is corrected and counted (R236)
theorem test_scrub_corrects : ∃ t, exec (.fmScrubRead [⟨.memory, 0x1000000, 1⟩]) scrubbing = .next t ∧ t.reg Reg.MEM_CECNT = 1 ∧
    t.fld Reg.MEM_ECCSTAT Fld.MEM_ECCSTAT_SYN = 128 := ⟨_, rfl, by decide +kernel⟩

theorem test_training_premises :
    let s := running id
    s.wf ∧ s.flag (Reg.MEM_MCSTAT 0) Fld.MEM_MCSTAT_VALID = false ∧ (s.ctx s.serviceCtx).run ≠ .off ∧ s.locked Reg.MEM_CTRL = false ∧
    s.fld Reg.MEM_STAT Fld.MEM_STAT_CHRDY = 0 ∧ (∀ m : Fin 4, s.ddr[m.val].training = false ∧ s.ddr[m.val].failed = false) ∧
    State.reset.flag (Reg.HYC_CSTAT State.reset.serviceCtx) Fld.HYC_CSTAT_EXH = false ∧ (State.reset.ctx State.reset.serviceCtx).run = .off ∧
    Sparse.get 40 s.fab.targets = none := by
  refine ⟨wf_of _ (by decide +kernel), ?_⟩
  decide +kernel

/-- Event 5 a member of group 2, which releases at 2 occurrences, of which two wait. -/
def grouped : State :=
  let s := (((running id).setFlds (Reg.EVC_SCFG 5) [(Fld.EVC_SCFG_EN, 1), (Fld.EVC_SCFG_GEN, 1), (Fld.EVC_SCFG_GRP, 2)]).setFlds
    (Reg.EVC_GCFG 2) [(Fld.EVC_GCFG_EN, 1), (Fld.EVC_GCFG_COUNT, 2)]).setReg (Reg.EVC_GTIME 2) 100
  { s with evc := { s.evc with sync := [5, 5] } }

theorem test_group_premises : grouped.wf ∧ grouped.memberOf 5 2 = true ∧ grouped.flag (Reg.EVC_GCFG 2) Fld.EVC_GCFG_EN = true ∧
    grouped.fld (Reg.EVC_GSTAT 2) Fld.EVC_GSTAT_COUNT + 1 < grouped.fld (Reg.EVC_GCFG 2) Fld.EVC_GCFG_COUNT ∧
    grouped.evc.suspended = false ∧ 5 ∈ grouped.evc.sync ∧ (grouped.reg (Reg.EVC_SCFG 5)).getLsbD 31 = false ∧
    grouped.flag (Reg.EVC_GSTAT 2) Fld.EVC_GSTAT_ARMED = false := by
  refine ⟨wf_of _ (by decide +kernel), ?_⟩
  decide +kernel

-- the first occurrence is held and arms the group, the second releases (R253)
theorem test_group_holds_then_releases : ∃ t u, exec (.eventOccurrence 5) grouped = .next t ∧ exec (.eventOccurrence 5) t = .next u ∧
    t.flag (Reg.EVC_SSTAT 5) Fld.EVC_SSTAT_HELD = true ∧ u.flag (Reg.EVC_SSTAT 5) Fld.EVC_SSTAT_HELD = false ∧
    Sparse.get 2 t.evc.deadlines = some 100 := ⟨_, _, rfl, rfl, by decide +kernel⟩

/-- Event 5 presented to context 0, which has made a claim. -/
def claiming (who : ClaimBy) : State :=
  let s := eventful id
  { s with fc := 1, evc := { s.evc with offSeen := 0, claims := [⟨0, who, 0, false⟩] } }

/-- As `claiming`, with the claim of an event entry of context 0. -/
def entering : State :=
  let e : Entry := { entry with kind := .event, code := 0x10 }
  (claiming (.entry (some 5))).setCtx 0 { (claiming .read).ctx 0 with entry := some e }

theorem test_claim_premises : (∀ k ∈ [ClaimBy.read, .load, .entry (some 5)], (claiming k).presented 0 = some 5 ∧
      (claiming k).evc.claims = ⟨0, k, 0, false⟩ :: [] ∧ (claiming k).evc.suspended = false ∧ 0 ≠ (claiming k).fc ∧ (claiming k).evc.servedFc ≠ some (claiming k).fc ∧ Block.evc ∉ (claiming k).fab.clearing) ∧
    (entering.ctx 0).run = .active ∧ (entering.ctx 0).entry = some { entry with kind := .event, code := 0x10 } ∧
    (entering.ctx 0).lpend = 0 ∧ entering.presentedTo 5 0 = true ∧ entering.presentedTo 6 0 = false ∧
    ((claiming .read).ctx 1).run = .off ∧ (claiming .read).evc.offSeen.getLsbD 1 = false ∧
    (claiming .read).flag Reg.EVC_STAT Fld.EVC_STAT_CERR = false := by
  decide +kernel

theorem test_claim_tables : (claiming .read).wf ∧ entering.wf := ⟨wf_of _ (by decide +kernel), wf_of _ (by decide +kernel)⟩

-- the claim makes the source active and owned (R244)
theorem test_claim : ∃ t, exec (.eventClaim none) (claiming .read) = .next t ∧ t.flag (Reg.EVC_SSTAT 5) Fld.EVC_SSTAT_ACT = true ∧
    t.flag (Reg.EVC_SSTAT 5) Fld.EVC_SSTAT_PEND = false ∧ t.fld (Reg.EVC_SSTAT 5) Fld.EVC_SSTAT_OWNER = 0 := ⟨_, rfl, by decide +kernel⟩

theorem test_wake_premises :
    let s := eventful (fun x => { x with run := .asleep })
    s.wf ∧ s.flag (Reg.EVC_SSTAT 5) Fld.EVC_SSTAT_PEND = true ∧ s.flag (Reg.EVC_SCFG 5) Fld.EVC_SCFG_EN = true ∧
    (s.reg (Reg.EVC_TGT 5 0)).getLsbD 0 = true ∧ (s.ctx 0).run = .asleep := by
  refine ⟨wf_of _ (by decide +kernel), ?_⟩
  decide +kernel

/-- A request of context 0 for one word, coherent as a core's are. -/
def ask (a : Nat) (k : ReqKind) : Request := ⟨me, .be, k, a, 4, true⟩

/-- A request of the presser for one word, not coherent. -/
def fetch (a : Nat) (k : ReqKind) : Request := ⟨.presser, .be, k, a, 4, false⟩

/-- After the release of the resets, with the fabric running. -/
def released : State := { running id with sys := { State.reset.sys with boot := .done } }

theorem test_firewall_premises :
    (running id).region 0x3000000 = .unmapped ∧ (running id).region 0x10000000 = .devReg ∧ (running id).region 0x4000000 = .liningStore ∧
    ((running id).setFld Reg.SYS_BPSTAT ⟨5, 1⟩ 1).poweredOff 0x10500000 = true ∧
    (running id).firewall (ask 0x3000000 .read) = .refused 1 0 ∧ (running id).firewall (ask 0x4000000 .read) = .refused 2 0 ∧
    (running id).firewall (ask 0x1000000 .read) = .allowed ∧
    ((running id).setFld Reg.FAB_CTRL Fld.FAB_CTRL_DEFAULT 1).firewall (ask 0x1000000 .read) = .refused 4 0 := by decide +kernel

theorem test_request_premises : released.wf ∧ (ask 0x1000000 .read).ok = true ∧ released.mayIssue (ask 0x1000000 .read) = true ∧
    released.ringHeld 0x10D00000 = false ∧ (released.arb 0).room 0 .be = true ∧ released.sys.boot ≠ .held ∧
    released.portHeld 0x1000000 = false ∧ released.firewall (ask 0x3000000 .read) = .refused 1 0 ∧ me ≠ .debug ∧
    released.firewall (ask 0x10D00000 .read) = .allowed ∧ released.targetOf 0x10D00000 = none ∧ released.regHeld 0x10D00000 = false := by
  refine ⟨wf_of _ (by decide +kernel), ?_⟩
  decide +kernel

/-- A bank with one waiting request of each of two classes. -/
def queued : State := released.setArb 0 (((released.arb 0).push (fetch 0x1000000 .read)).push { fetch 0x1000000 (.write [1, 2, 3, 4]) with cls := .bk })

theorem test_target_premises : queued.wf ∧ queued.sys.standby = 0 ∧ queued.targetClearing 0 = false ∧ queued.ecc = [] ∧
    (queued.arb 0).has .be = true ∧ (queued.arb 0).has .rt0 = false ∧ (queued.arb 0).queue .be = fetch 0x1000000 .read :: [] ∧
    queued.region 0x1000000 = .bank 0 := by
  refine ⟨wf_of _ (by decide +kernel), ?_⟩
  decide +kernel

theorem test_channel_premises :
    let s := scrubbing.setArb 40 ((scrubbing.arb 40).push (fetch 0x1000000000 .read))
    s.wf ∧ s.fld Reg.MEM_STAT Fld.MEM_STAT_CHRDY / 2 ^ 0 % 2 = 1 ∧ s.ddr[0].slot < 4 ∧ s.region 0x1000000000 = .dram ∧
    (s.arb 40).queue .be = fetch 0x1000000000 .read :: [] ∧ s.fld (Reg.MEM_RSV 0) Fld.MEM_RSV_RT0 = 0 := by
  refine ⟨wf_of _ (by decide +kernel), ?_⟩
  decide +kernel

theorem test_register_premises : (running id).wf ∧ (RegMap.find Reg.MEM_SCRUB).isSome = true ∧ 0x10300000 ≤ Reg.MEM_SCRUB ∧
    Reg.MEM_SCRUB ≠ Reg.MEM_CTRL ∧ regAddr 0x11200000 = false := by
  refine ⟨wf_of _ (by decide +kernel), ?_⟩
  decide +kernel

theorem test_clearing_premises :
    let s := { running id with fab := { State.reset.fab with clearing := [.prs], held := [(.prs, me, Reg.PRS_STAT, none)] } }
    s.wf ∧ s.fab.held.filter (fun h => h.1 = .prs) = [(.prs, me, Reg.PRS_STAT, none)] ∧ Block.prs ∈ s.fab.clearing := by
  refine ⟨wf_of _ (by decide +kernel), ?_⟩
  decide +kernel

/-! ### Premises: the pattern sequencer (02) -/

/-- Lane 3 in a state, its first entry of operation `op` with first word `w0` and second half 1, 0. -/
def lane3 (state op w0 : Nat) : State :=
  let s := released.setFld (Reg.PSQ_LSTAT 3) Fld.PSQ_LSTAT_STATE state
  let a := s.entryAddr 3
  let s := (s.setReg a (BitVec.ofNat 32 (op * 2 ^ 26 + w0))).setReg (a + 8) 1
  s.setLane 3 { s.lane 3 with period := 100000 }

theorem test_device_time_premises :
    let s := (running id).setFld Reg.PSQ_DTCTRL Fld.PSQ_DTCTRL_DISC 1
    let d := { running id with psq := { State.reset.psq with stepDue := [0] } }
    s.wf ∧ s.flag Reg.PSQ_DTCTRL Fld.PSQ_DTCTRL_DISC = true ∧ (running id).flag Reg.PSQ_DTCTRL Fld.PSQ_DTCTRL_DISC = false ∧
    d.psq.stepDue = 0 :: [] ∧ 0 ≤ d.fc ∧ (∀ l, d.laneState l = 0) ∧ (lane3 1 0 0).laneState 3 ≠ 0 := by
  refine ⟨wf_of _ (by decide +kernel), ?_⟩
  decide +kernel

/-- Lane 3's descriptor valid in bank 0: period 100 µs. -/
def described : State :=
  let a := bankBase 0 + 48
  (released.setReg a 0x80000000).setReg (a + 4) 100000

theorem test_lane_premises : described.wf ∧ described.laneState 3 = 0 ∧ described.ecc = [] ∧
    2 ^ 31 ≤ (described.reg (bankBase 0 + 48)).toNat ∧ 1000 ≤ (described.reg (bankBase 0 + 52)).toNat ∧
    (∀ n ∈ [1, 2, 3, 4], (lane3 n 0 0).laneState 3 = n) ∧
    ((running id).setFld (Reg.PSQ_LSTAT 3) Fld.PSQ_LSTAT_DONE 1).flag (Reg.PSQ_LSTAT 3) Fld.PSQ_LSTAT_DONE = true ∧
    ((running id).setFld Reg.PSQ_SWAPSTAT Fld.PSQ_SWAPSTAT_PENDING 1).flag Reg.PSQ_SWAPSTAT Fld.PSQ_SWAPSTAT_PENDING = true := by
  refine ⟨wf_of _ (by decide +kernel), ?_⟩
  decide +kernel

-- a start with a valid descriptor waits for the first T0 + kP to come (R62)
theorem test_lane_start : ∃ t, exec (.laneStart me 3) described = .next t ∧ t.laneState 3 = 1 ∧ (t.lane 3).start = 100000 := ⟨_, rfl, by decide +kernel⟩

theorem test_jdone_premises :
    let s := { running id with psq := { State.reset.psq with waked := [⟨3, 0, false⟩, ⟨3, 1, false⟩, ⟨3, 0, true⟩] } }
    s.psq.waked = [] ++ ⟨3, 0, false⟩ :: [⟨3, 1, false⟩, ⟨3, 0, true⟩] ∧
    Fin.ofNat 16 (Fld.PSQ_JDONE_LANE.get (Fld.PSQ_JDONE_LANE.put 3 0)) = 3 := by decide +kernel

theorem test_entry_operations : ∀ op ∈ [0, 1, 2, 3, 4, 0x10, 0x11, 0x12, 0x13, 0x14, 0x15, 0x16, 0x3F],
    (lane3 2 op 1).entryOp 3 = op ∧ (lane3 2 op 1).laneState 3 = 2 ∧ (lane3 2 op 1).inHem 3 = false := by decide +kernel

theorem test_dispatch_premises : (∀ op ∈ [0x10, 0x11, 0x12, 0x13, 0x14], (lane3 2 op 1).portServes 3 = true) ∧
    (lane3 2 0x15 0x40).portServes 3 = true ∧ (lane3 2 0x10 1).portHeld Reg.EVC_DOORBELL = false ∧ (lane3 2 0x10 1).regHeld Reg.EVC_DOORBELL = false ∧
    (lane3 2 0x10 1).firewall ⟨(lane3 2 0x10 1).psqWho, .be, .write [1, 0, 0, 0], Reg.EVC_DOORBELL, 4, true⟩ = .allowed ∧
    (lane3 2 0x11 1).shuState 1 = 0 ∧ (lane3 2 0x12 1).fld Reg.PRS_STAT Fld.PRS_STAT_STATE = 0 ∧
    (lane3 2 0x16 1).entryDue 3 = true ∧ (lane3 2 0x16 1).entryHeld 3 = false := by decide +kernel

theorem test_entry_premises_of_state : (lane3 2 0 0).wf ∧ (lane3 2 0 0).ecc = [] ∧ ((lane3 2 0 0).lane 3).rep = none ∧
    ((lane3 2 0 0).lane 3).entry < 8191 ∧ (3 : Nat) + 5 % 8192 < 8191 := by
  refine ⟨wf_of _ (by decide +kernel), ?_⟩
  decide +kernel

theorem test_hem_premises :
    let s := (lane3 2 0x10 1).setLane 3 { (lane3 2 0x10 1).lane 3 with hem := 100000 }
    s.inHem 3 = true := by decide +kernel

theorem test_uncorrectable_entry_premises :
    let s := { lane3 2 0 0 with ecc := [((lane3 2 0 0).entryAddr 3, 3)] }
    (s.tableRead 0xFE (s.entryAddr 3) 16).1 = true := by decide +kernel

theorem test_completion_premises :
    let x := { Lane.reset with closings := [⟨.mix, some 0⟩, ⟨.press, none⟩] }
    x.closings[0]? = some ⟨.mix, some 0⟩ ∧ (0 + 2 ≤ { State.reset with fc := 2 }.fc) ∧
    (∀ k n, x.closings[1]? = some k → k.signalled = some n → State.reset.fc < n + 2) := by
  refine ⟨rfl, by decide, ?_⟩
  intro k n hk hn
  cases hk
  cases hn

theorem test_natural_end_premises :
    let s := (running id).setLane 3 { (running id).lane 3 with ended := some (0, false) }
    s.laneState 3 = 0 ∧ (s.lane 3).ended = some (s.fc, false) := by decide +kernel

-- WAKE signals the doorbell of its context (R46)
theorem test_psq_wake : ∃ t, exec (.psqWake 3) (lane3 2 0x10 1) = .next t ∧ t.psq.waked = [⟨3, 1, false⟩] ∧
    t.flag (Reg.EVC_SSTAT 1) Fld.EVC_SSTAT_PEND = true := ⟨_, rfl, by decide +kernel⟩

/-- Lane 3 waiting for its start, which has come. -/
def starting (f : Lane → Lane) : State := (lane3 1 0 0).setLane 3 (f ((lane3 1 0 0).lane 3))

theorem test_period_premises : (starting id).wf ∧ (starting id).nextStart 3 = some 0 ∧ 0 * 2 ^ 32 ≤ (starting id).psq.time ∧
    (starting id).laneBank 3 = (starting id).targetBank ∧ ((starting id).lane 3).stopAtEnd = false ∧
    ((starting (fun x => { x with stopAtEnd := true })).lane 3).stopAtEnd = true ∧
    (starting (fun x => { x with start := 5 })).nextStart 3 = some 5 ∧ (starting id).psq.time < 5 * 2 ^ 32 ∧ (lane3 0 0 0).nextStart 3 = none := by
  refine ⟨wf_of _ (by decide +kernel), ?_⟩
  decide +kernel

theorem test_late_period_premises :
    let s := (lane3 3 0 0).setLane 3 { (lane3 3 0 0).lane 3 with endMet := some 200000 }
    let s := { s with psq := { s.psq with time := 200000 * 2 ^ 32 } }
    s.nextStart 3 = some 200000 ∧ (s.lane 3).maxLag < 200000 - 100000 ∧ s.flag (Reg.PSQ_LSTAT 3) Fld.PSQ_LSTAT_LAGMAX = false := by
  decide +kernel

theorem test_flipped_period_premises :
    let s := (starting id).setFld Reg.PSQ_SWAPSTAT Fld.PSQ_SWAPSTAT_TARGET 1
    s.laneBank 3 ≠ s.targetBank ∧ s.psq.flipFc ≠ some s.fc := by decide +kernel

/-! ### Premises: the display (09, 10) -/

/-- Pipe 0 running with a raster of 800 × 525 pixels, 640 × 480 of them active, the raster's next point `next`. -/
def drawing (next : Raster) (f : Pipe → Pipe) : State :=
  let s := (((released.setFlds (Reg.DP_HTIM0 0) [(Fld.DP_HTIM0_HACT, 640), (Fld.DP_HTIM0_HTOT, 800)]).setFlds (Reg.DP_HTIM1 0)
    [(Fld.DP_HTIM1_HSS, 656), (Fld.DP_HTIM1_HSW, 96)]).setFlds (Reg.DP_VTIM0 0) [(Fld.DP_VTIM0_VACT, 480), (Fld.DP_VTIM0_VTOT, 525)]).setFlds
    (Reg.DP_VTIM1 0) [(Fld.DP_VTIM1_VSS, 490), (Fld.DP_VTIM1_VSW, 2)]
  let s := (s.setFld (Reg.DP_STAT 0) Fld.DP_STAT_RUN 1).setFld (Reg.DP_CTRL 0) Fld.DP_CTRL_EN 1
  s.setPipe 0 (f { s.pipe 0 with active := s.stagedCopy 0, next := next })

theorem test_latch_premises :
    let s := drawing .latch id
    s.wf ∧ s.pipeRuns 0 = true ∧ (s.pipe 0).next = .latch ∧ (s.pipe 0).cur = none ∧ (s.pipe 0).whole = false ∧ (s.pipe 0).wbOn = false ∧
    (s.pipe 0).framePend = false ∧ s.ecc = [] ∧ s.flag (Reg.DP_CTRL 0) Fld.DP_CTRL_EN = true ∧ s.vtot 0 = 525 := by
  refine ⟨wf_of _ (by decide +kernel), ?_⟩
  decide +kernel

theorem test_frame_end_premises :
    let s := drawing .frameEnd id
    let g := (drawing .frameEnd (fun x => { x with glJ := some 4 })).setFld (Reg.DP_GLCTL 0) Fld.DP_GLCTL_EN 1
    (s.pipe 0).next = .frameEnd ∧ s.actFld 0 (Reg.DP_GLCTL 0) Fld.DP_GLCTL_EN = 0 ∧ s.flag (Reg.DP_STAT 0) Fld.DP_STAT_RRACT = false ∧
    (g.setPipe 0 { g.pipe 0 with active := g.stagedCopy 0 }).actFld 0 (Reg.DP_GLCTL 0) Fld.DP_GLCTL_EN = 1 ∧
    (g.pipe 0).glJ = some 4 ∧ (g.setFld (Reg.DP_STAT 0) Fld.DP_STAT_RRACT 1).flag (Reg.DP_STAT 0) Fld.DP_STAT_RRACT = true := by
  decide +kernel

theorem test_line_match_premises :
    let s := drawing (.fetch 3) (fun x => { x with line := 0, pixel := 0 })
    let m := s.setFld (Reg.DP_LMATCH 0) Fld.DP_LMATCH_LINE 1
    m.fld (Reg.DP_LMATCH 0) Fld.DP_LMATCH_LINE < m.vtot 0 ∧ (m.pipe 0).matched = none ∧ m.passIndex 0 0 0 ≤ m.passIndex 0 1 0 ∧
    m.beforeNext 0 (m.passIndex 0 1 0) = true := by decide +kernel

/-- A line in work. -/
def work (todo : List Nat) : LineWork :=
  { line := 5, cfg := [], maps := false, todo := todo, buf := [], apRow := [], sprites := [], failed := false, overran := false,
    underrun := false, out := [] }

theorem test_line_premises :
    let s := drawing (.compose 5) (fun x => { x with fetch := some (work [0x40000, 0x40001]) })
    (s.pipe 0).fetch = some (work [0x40000, 0x40001]) ∧ s.memHeld 0x1000000 = false ∧ s.targetOf 0x1000000 = some 0 ∧ s.waitingAt 0 = 0 ∧
      s.region 0x1000000 ≠ .devReg ∧ s.ecc = [] ∧
    s.firewall ⟨.pipe 0, .rt0, .read, 0x1000000, 64, false⟩ = .allowed ∧ (s.pipe 0).next = .compose 5 ∧ (s.pipe 0).cur = none ∧
    s.firewall ⟨.pipe 0, .rt0, .read, 0x3000000, 64, false⟩ = .refused 1 0 ∧
    ((drawing (.fetch 5) id).pipe 0).next = .fetch 5 ∧ (work []).todo = [] := by decide +kernel

theorem test_writeback_premises :
    ((drawing .latch (fun x => { x with wbPend := true })).pipe 0).wbPend = true ∧
    ((drawing .latch (fun x => { x with framePend := true })).pipe 0).framePend = true ∧
    ((drawing .latch id).pipe 0).wbPend = false ∧ ((drawing .latch id).pipe 0).wbOn = false := by decide +kernel

/-- Pipe 0 stopped and not enabled, its registers as in `drawing`. -/
def halted : State := ((drawing .latch id).setFld (Reg.DP_STAT 0) Fld.DP_STAT_RUN 0).setFld (Reg.DP_CTRL 0) Fld.DP_CTRL_EN 0

theorem test_commit_premises :
    halted.wf ∧ halted.pipeRuns 0 = false ∧ halted.flag (Reg.DP_CTRL 0) Fld.DP_CTRL_EN = false ∧ halted.commitCheck 0 = none ∧
    (running id).commitCheck 0 = some 1 ∧ halted.flag (Reg.DP_COMMIT 0) Fld.DP_COMMIT_PENDING = false ∧
    (halted.setFld (Reg.DP_COMMIT 0) Fld.DP_COMMIT_PENDING 1).flag (Reg.DP_COMMIT 0) Fld.DP_COMMIT_PENDING = true ∧
    (halted.setFld (Reg.SYS_PXCTL 0) Fld.SYS_PXCTL_LOCK 1).flag (Reg.SYS_PXCTL 0) Fld.SYS_PXCTL_LOCK = true ∧
    (halted.setFld (Reg.DP_OUTSEL 1) Fld.DP_OUTSEL_OUT 2).fld (Reg.DP_OUTSEL 1) Fld.DP_OUTSEL_OUT = 2 ∧
    (halted.setFld (Reg.DP_AUXSTAT 0) Fld.DP_AUXSTAT_BUSY 1).flag (Reg.DP_AUXSTAT 0) Fld.DP_AUXSTAT_BUSY = true ∧
    ((halted.setPipe 0 { halted.pipe 0 with train := .running }).pipe 0).train = .running ∧
    (halted.setFld (Reg.DP_OCTL 2) Fld.DP_OCTL_EN 1).driverOf 2 = none ∧ (halted.setFld (Reg.DP_OCTL 2) Fld.DP_OCTL_EN 1).flag (Reg.DP_OCTL 2) Fld.DP_OCTL_EN = true := by
  refine ⟨wf_of _ (by decide +kernel), ?_⟩
  decide +kernel

-- an enable with a locked pixel clock starts the raster (R264)
theorem test_pipe_enable : ∃ t, exec (.pipeEnable me 0 (Fld.DP_CTRL_EN.put 1 0)) (halted.setFld (Reg.SYS_PXCTL 0) Fld.SYS_PXCTL_LOCK 1) = .next t ∧
    t.pipeRuns 0 = true ∧ (t.pipe 0).line = 480 := ⟨_, rfl, by decide +kernel⟩

/-- The line list engine at an instruction of operation `op`, its next place before the raster's next point. -/
def listing (op w0 w1 : Nat) (f : Pipe → Pipe) : State :=
  let s := (drawing (.fetch 3) f).setFlds (Reg.DP_LLSTAT 0) [(Fld.DP_LLSTAT_STATE, 2)]
  (s.setReg (s.llAddr 0 0) (BitVec.ofNat 32 (op * 2 ^ 28 + w0))).setReg (s.llAddr 0 0 + 4) (BitVec.ofNat 32 w1)

theorem test_engine_premises : ∀ op ∈ [0, 1, 2, 3, 4, 5],
    let s := listing op 1 0x50005 id
    s.llOp 0 = op ∧ s.llState 0 = 2 ∧ s.pipeRuns 0 = true ∧ s.ecc = [] ∧ (s.pipe 0).rep = none ∧ s.llPc 0 < 1023 ∧
    s.passIndex 0 (s.pipe 0).line (s.pipe 0).pixel ≤ s.passIndex 0 0 1 ∧ s.beforeNext 0 (s.passIndex 0 0 1) = true ∧
    (s.pipe 0).pixel + 1 < s.htot 0 := by decide +kernel

theorem test_engine_tables : (listing 5 0 0 id).wf := wf_of _ (by decide +kernel)

theorem test_engine_waits :
    let s := listing 1 0 (2 * 2 ^ 16 + 7) id
    2 < s.vtot 0 ∧ ¬ s.passIndex 0 2 7 < s.passIndex 0 0 1 ∧ s.passIndex 0 500 0 < s.passIndex 0 0 1 ∧
    s.beforeNext 0 (s.passIndex 0 3 0) = false := by decide +kernel

theorem test_engine_repeats :
    let s := listing 5 0 0 (fun x => { x with rep := some ⟨0, 0, 0, 2, 0⟩ })
    (s.pipe 0).rep = some ⟨0, 0, 0, 2, 0⟩ ∧ s.llPc 0 = 0 := by decide +kernel

/-! ### Premises: presser, shuttles and spool (11, 12) -/

/-- A descriptor of operation `op` on rows of 4 pixels of 8 bits: source 0x100_1000, destination 0x100_2000, 2 rows. -/
def descriptor (op : Nat) : List Word :=
  [BitVec.ofNat 32 (op + 256), 0x00010003, 0x1001000, 0, 16, 0x1002000, 0, 16, 0xAB, 0, 0, 0, 0, 0, 0, 0]

/-- The presser in a state, at the rectangles above, with computed rows to write. -/
def pressing (state op : Nat) (rows : List (List (Nat × Byte))) : State :=
  let s := released.setFld Reg.PRS_STAT Fld.PRS_STAT_STATE state
  { s with prs := ⟨descriptor op, rows.length, rows, false, none⟩ }

theorem test_presser_premises : (pressing 0 1 []).wf ∧ (pressing 0 1 []).fld Reg.PRS_STAT Fld.PRS_STAT_STATE = 0 ∧
    prsCheck (descriptor 1) = none ∧ prsCheck (descriptor 7) = some 2 ∧ prsCheck (descriptor 4) = some 2 ∧
    (pressing 0 1 []).firewall ⟨.presser, .bk, .read, 0x1000000, 64, true⟩ = .allowed ∧
    (pressing 0 1 []).firewall ⟨.presser, .bk, .read, 0x3000000, 64, true⟩ = .refused 1 0 ∧
    (pressing 0 1 []).memHeld 0x1000000 = false ∧ (pressing 0 1 []).targetOf 0x1000000 = some 0 ∧ (pressing 0 1 []).waitingAt 0 = 0 ∧
    (pressing 1 1 [[(0x1002000, 1)]]).prs.rows = [[(0x1002000, 1)]] ∧ (pressing 2 1 []).fld Reg.PRS_STAT Fld.PRS_STAT_STATE = 2 := by
  refine ⟨wf_of _ (by decide +kernel), ?_⟩
  decide +kernel

theorem test_presser_descriptor_premises :
    let s := { released with mem := Memory.writes [] 0x1000000 ((descriptor 1).flatMap (fun w : Word => leBytes 4 w.toNat)) }
    (List.range 16).map (fun i => BitVec.ofNat 32 (leNat (((s.cohBytes 0x1000000 64).drop (4 * i)).take 4))) = descriptor 1 := by
  decide +kernel

theorem test_presser_landing_premises :
    let s := pressing 1 1 [[(0x1002000, 1)]]
    let w := s.engineCells .presser false [(0x1002000, 1)]
    w.1 = .done ∧ (s.engineCells .presser false [(0x3002000, 1)]).1 = .refused 1 0x3002000 ∧
    s.writesOnWay .presser = false ∧ w.2.writesOnWay .presser = false ∧ s.prs.issued = false ∧ w.2.dev = s.dev ∧ w.2.evc = s.evc ∧ w.2.prs = s.prs ∧ s.prs.begun ≤ (rectOf s.prs.desc 5).hm1 := by decide +kernel

theorem test_presser_row_premises : ∀ op ∈ [1, 2, 3, 5, 6],
    let s := pressing 1 op []
    s.fld Reg.PRS_STAT Fld.PRS_STAT_STATE = 1 ∧ s.prsWord 0 % 16 = op ∧ s.prs.begun ≤ (rectOf s.prs.desc 5).hm1 ∧
    s.anyHeld [(0x1001000, 4), (0x1002000, 4)] = false ∧
    (∃ b, (s.prsRead false [(0x1001000, 4)]).1 = .bytes b) ∧ (s.prsRead false [(0x3001000, 4)]).1 = .refused 1 0x3001000 := by
  intro op h
  simp only [List.mem_cons, List.not_mem_nil, or_false] at h
  rcases h with rfl | rfl | rfl | rfl | rfl <;> exact ⟨by decide +kernel, by decide +kernel, by decide +kernel, by decide +kernel, ⟨_, rfl⟩, by decide +kernel⟩

-- FILL writes the pixel to each place of the row (R320)
theorem test_presser_fill : ∃ t, exec (.prsFill []) (pressing 1 2 []) = .next t ∧
    t.prs.rows = [[(0x1002000, 0xAB), (0x1002001, 0xAB), (0x1002002, 0xAB), (0x1002003, 0xAB)]] := ⟨_, rfl, by decide +kernel⟩

/-- Channel 2 in a state, a linear transfer of 16 bytes within fabric memory. -/
def moving (state mode : Nat) (x : Shu) : State :=
  let s := ((((released.setReg (Reg.SHU_SRC 2) 0x1000008).setReg (Reg.SHU_DST 2) 0x1001008).setReg (Reg.SHU_CNT 2) 16).setFld (Reg.SHU_CTRL 2)
    Fld.SHU_CTRL_MODE mode).setFlds (Reg.SHU_GEOM 2) [(Fld.SHU_GEOM_KM1, 1), (Fld.SHU_GEOM_PB, 2)]
  (s.setFld (Reg.SHU_STAT 2) Fld.SHU_STAT_STATE state).setShu 2 x

theorem test_shuttle_premises : (moving 0 0 Shu.reset).wf ∧ (∀ k ∈ [0, 1, 2, 3, 4], (moving k 0 Shu.reset).shuState 2 = k) ∧
    ((moving 0 0 Shu.reset).xfer 2).check true = none ∧ ((moving 0 7 Shu.reset).xfer 2).check true = some 4 ∧
    (moving 0 0 Shu.reset).shuWaiting 2 = false ∧
    ((moving 0 0 Shu.reset).xfer 2).pos < ((moving 0 0 Shu.reset).xfer 2).cnt ∧
    ((moving 1 0 Shu.reset).setReg (Reg.SHU_POS 2) 16).xfer 2 = { (moving 1 0 Shu.reset).xfer 2 with pos := 16 } := by
  refine ⟨wf_of _ (by decide +kernel), ?_⟩
  decide +kernel

theorem test_shuttle_units : ∀ m ∈ [0, 1, 2, 3, 4], ((moving 1 m Shu.reset).xfer 2).mode = m ∧
  0 < ((moving 1 m Shu.reset).xfer 2).unit ∧
    ((moving 1 m Shu.reset).xfer 2).srcRegs = false := by decide +kernel

theorem test_shuttle_answer_premises :
    let s := moving 1 0 { Shu.reset with asked := [0x1000000] }
    (s.shu 2).asked = [0x1000000] ∧ (s.xfer 2).coh = false ∧ s.region 0x1001008 = .bank 0 ∧
    s.firewall ⟨.shuttle 2, .be, .read, 0x1000000, 64, false⟩ = .allowed ∧
    s.firewall ⟨.shuttle 2, .be, .write (s.bytes 0x1000008 16), 0x1001008, 16, true⟩ = .allowed ∧ 0x1001008 % 64 = 0x1000008 % 64 ∧
    (s.xfer 2).dstRegs = false ∧ s.memHeld 0x1000000 = false ∧ s.memHeld 0x1001008 = false ∧ s.targetOf 0x1000000 = some 0 ∧
    s.targetOf 0x1001008 = some 0 ∧ s.waitingAt 0 = 0 ∧ s.shuWaiting 2 = false ∧ (∀ g ∈ s.fab.got, g.1 ≠ (Who.shuttle 2).id) ∧ s.classOf (.shuttle 2) = .be ∧
    (∀ m ∈ s.shuReady 0, m = 2) ∧ s.shuPorts[0].used ≠ some s.fc := by decide +kernel

-- SPLIT puts bit p of each pixel of a unit into plane p (R341)
theorem test_split_planes : Xfer.into { (moving 1 3 Shu.reset).xfer 2 with planes := 2, stride := 64, dst := 0x1001000 } 0 [0b11100100, 0] =
    [(0x1001000, [0b1010]), (0x1001040, [0b1100])] := by decide +kernel

/-- The spool at an instruction of a run, with bus 3 holding a sum and input 5 a sample. -/
def mixing (word : Nat) (length : Nat) : State :=
  let s := (((released.setReg (mixAddr 0 0) (BitVec.ofNat 32 word)).setReg (Reg.SPL_GAIN 1) 0x1000))
  { s with spl := { s.spl with
      run := some 0, length := (length, length), inputs := (List.replicate 256 (0, false)).set 5 (100, true),
      buses := s.spl.buses.set! 3 ⟨8388600, true, false, [], 0⟩ } }

-- MIX into bus 3 of input 5 with gain 1
theorem test_mix_premises :
    let w := 2 * 2 ^ 28 + 5 * 2 ^ 19 + 3 * 2 ^ 13 + 1
    (mixing w 2).wf ∧ (mixing w 2).ecc = [] ∧ (mixing w 2).spl.run = some 0 ∧ (mixing w 2).mixWord 0 = w ∧ (mixing w 2).mixError w = none ∧
    0 + 1 < (mixing w 2).mixLength ∧ (mixing w 2).mixError (2 * 2 ^ 28 + 400 * 2 ^ 19) = some 2 ∧ (mixing w 2).mixError (6 * 2 ^ 28) = some 1 ∧
    (mixing w 2).mixError (3 * 2 ^ 28 + 3 * 2 ^ 13) = some 3 ∧ (mixing w 2).spl.gainHeld = [] ∧
    (∀ i : Fin 64, (mixing w 2).flag (Reg.SPL_WCTL i) Fld.SPL_WCTL_EN = false) := by
  refine ⟨wf_of _ (by decide +kernel), ?_⟩
  decide +kernel

-- trunc(100 × 4096 / 4096) is added (R365)
theorem test_mix : ∃ t, exec .mixMix (mixing (2 * 2 ^ 28 + 5 * 2 ^ 19 + 3 * 2 ^ 13 + 1) 2) = .next t ∧ (t.bus 3).acc = 8388700 ∧
    t.spl.run = some 1 := ⟨_, rfl, by decide +kernel⟩
-- OUT clamps and reports it (R365)
theorem test_mix_out_clamps : ∃ t, exec .mixOut { mixing (4 * 2 ^ 28 + 259 * 2 ^ 19 + 7) 2 with spl := { (mixing (4 * 2 ^ 28 + 259 * 2 ^ 19 + 7) 2).spl with
      buses := (mixing 0 2).spl.buses.set! 3 ⟨8388700, true, false, [], 0⟩ } } = .next t ∧
    t.spl.outputs[7] = 8388607 ∧ t.flag Reg.SPL_STAT Fld.SPL_STAT_CLIP = true := ⟨_, rfl, by decide +kernel⟩

theorem test_program_premises :
    let s := { mixing 0 1 with spl := { (mixing 0 1).spl with run := none, load := some (.reading 0x1000000) },
                               mem := Memory.writes [] 0x1000000 [1] }
    let bytes : List Byte := 1 :: List.replicate 63 0
    s.wf ∧ s.flag Reg.SPL_STAT Fld.SPL_STAT_LPEND = false ∧ s.splLines false 0x1000000 64 = (.bytes bytes, s) ∧ leNat (bytes.take 4) = 1 ∧
    s.splLines false 0x1000040 (4 * 1 + 4 - 64) = (.bytes [], s) ∧
    (s.splLines false 0x3000000 64).1 = .refused 0x3000000 ∧ (s.splLines false 0x3000000 64).2.wf ∧ (mixing 0 1).spl.run = some 0 ∧ s.spl.run = none := by
  refine ⟨wf_of _ (by decide +kernel), by decide +kernel, by decide +kernel, by decide +kernel, by decide +kernel, by decide +kernel,
    wf_of _ (by decide +kernel), by decide +kernel⟩

theorem test_stream_premises :
    let s := released.setFld (Reg.SPL_RCTL 4 + 12) Fld.SPL_RSIZE_SIZE 4
    s.flag (Reg.SPL_RCTL 4) Fld.SPL_RCTL_EN = false ∧ (RegMap.find (Reg.SPL_RCTL 4)).isSome = true ∧
    s.streamRefused false 4 (s.ringAt (Reg.SPL_RCTL 4) (Fld.SPL_RCTL_FIRST.put 200 0)) = false ∧
    s.streamRefused false 4 (s.ringAt (Reg.SPL_RCTL 4) (Fld.SPL_RCTL_FIRST.put 10 0)) = true := by decide +kernel

theorem test_writer_premises :
    let s := (released.setFld (Reg.SPL_WCTL 4 + 12) Fld.SPL_RSIZE_SIZE 4).setReg (Reg.SPL_WCTL 4 + 4) 0x1000000
    let g := s.writerRing 4
    let f : SplFrame := ⟨4, g.coh, g.frame g.own, [1, 2, 3]⟩
    let v := { s with spl := { s.spl with frames := [f] } }
    v.spl.frames.find? (fun f => f.writer == 4) = some f ∧ s.anyHeld (lineSplit 2 f.addr 3) = false ∧
    g.after g.own ≠ g.other ∧ (s.engineWrites .spool g.coh f.addr f.bytes).1 = .done ∧
    (released.writerRing 4).after (released.writerRing 4).own = (released.writerRing 4).other ∧
    Fld.SPL_TDMCTL_RXEN.get s.spl.tdm[0] ≠ 1 ∧ Fld.SPL_TDMCTL_RXEN.get (Fld.SPL_TDMCTL_RXEN.put 1 0) = 1 := by decide +kernel

theorem test_sample_premises :
    let s := { released with sys := { released.sys with clocks := 0xFFFF } }
    s.wf ∧ s.spl.run = none ∧ s.sys.clocks.getLsbD 11 = true ∧ s.poweredOff 0x10B00000 = false ∧ Block.spl ∉ s.fab.clearing ∧
    (({ s with spl := { s.spl with load := some (.ready 1) } } : State).spl.load = some (.ready 1)) := by
  refine ⟨wf_of _ (by decide +kernel), ?_⟩
  decide +kernel

theorem test_voice_premises :
    let s := released.setFlds (Reg.SPL_VCTL 2) [(Fld.SPL_VCTL_STATE, 3), (Fld.SPL_VCTL_LEVEL, 65536)]
    s.fld (Reg.SPL_VCTL 2) Fld.SPL_VCTL_STATE = 3 ∧ ((s.voice 2).envelope 3 65536).1 ≠ 0 ∧ (65536 : Nat) ≤ 65536 ∧ (s.voice 2).loop = false := by
  decide +kernel

/-! ### Premises: the seam (13, 14) -/

/-- A tagged broadcast frame of VLAN 5 at priority 3. -/
def shout : List Byte := List.replicate 6 0xFF ++ [2, 0, 0, 0, 0, 1, 0x81, 0, 0x60, 5, 0x90, 0] ++ List.replicate 48 7

/-- A frame in class `c`. -/
def inClass (c : Nat) (o : Origin) : SFrame := ⟨shout, c, 0, o⟩

/-- The bridge on, ports 1 and 2 forwarding in VLAN 5. -/
def bridging : State :=
  let port (s : State) (p : Nat) := (s.setFlds (Reg.SEAM_PCTL p) [(Fld.SEAM_PCTL_EN, 1), (Fld.SEAM_PCTL_STATE, 2)]).setFld (Reg.SEAM_PSTAT p)
    Fld.SEAM_PSTAT_LINK 1
  (((port (port released 1) 2).setFld Reg.SEAM_CTRL Fld.SEAM_CTRL_EN 1).setSeamWord (0xD0000 + 4 * 5) 0 (2 ^ 31 + 6)).setSeamWord (0xC0000) 0
    (2 ^ 31 + 2 ^ 29)

/-- That bridge with port 2 at a wire, a held frame and a class. -/
def sending (wire held : Option SFrame) (c : Nat) (l : List SFrame) : State :=
  let s := bridging.setReg (Reg.SEAM_GATE 2) 0xFF
  s.setSport 2 { s.sport 2 with wire := wire, held := held, classes := (s.sport 2).classes.set! c l }

theorem test_bridge_premises : bridging.wf ∧ bridging.ecc = [] ∧ bridging.flag (Reg.SEAM_PCTL 1) Fld.SEAM_PCTL_EN = true ∧ 14 ≤ shout.length ∧
    bridging.flag (Reg.SEAM_PCTL 3) Fld.SEAM_PCTL_EN = false ∧ bridging.frameVlan 1 shout = (5, 3) ∧
    bridging.fld (Reg.SEAM_PCTL 1) Fld.SEAM_PCTL_STATE = 2 ∧ bridging.vlan 5 / 2 ^ 31 = 1 ∧ (bridging.vlan 5).testBit 1 = true ∧
    (bridging.vlan 5).testBit 8 = false ∧ dstMac shout = 0xFFFFFFFFFFFF ∧ isGptp shout = false ∧ bridging.fdbFind (srcMac shout) 5 = none ∧
    bridging.flag Reg.SEAM_CTRL Fld.SEAM_CTRL_LEARN = false ∧ (bridging.vlan 5).testBit 2 = true ∧ bridging.classFull 2 3 = false ∧
    (sending none none 3 (List.replicate 64 (inClass 3 .bridge))).classFull 2 3 = true ∧
    released.flag Reg.SEAM_CTRL Fld.SEAM_CTRL_EN = false ∧ (bridging.setFld (Reg.SEAM_PCTL 9) Fld.SEAM_PCTL_EN 1).flag (Reg.SEAM_PCTL 9) Fld.SEAM_PCTL_EN = true ∧
    bridging.flag Reg.SEAM_RXDEF Fld.SEAM_RXDEF_EN = false := by
  refine ⟨wf_of _ (by decide +kernel), ?_⟩
  decide +kernel

-- a broadcast frame joins its class at the other port of its VLAN (R381)
theorem test_broadcast : ∃ t, exec (.frameReceive 1 shout 0 []) bridging = .next t ∧
    ((t.sport 2).classes.getD (bridging.pcpClass 2 3) []).length = 1 ∧ t.sport 1 = bridging.sport 1 := ⟨_, rfl, by decide +kernel⟩

theorem test_select_premises :
    let s := sending none none 3 [inClass 3 .bridge]
    s.wf ∧ (s.sport 2).wire = none ∧ (s.sport 2).held = none ∧ s.gateOpen 2 3 = true ∧ ((s.sport 2).classes.getD 3 []).head? = some (inClass 3 .bridge) ∧
    (inClass 3 .bridge).elig ≤ s.fc ∧ (∀ d, d < 8 → 3 < d → (s.sport 2).classes.getD d [] = []) ∧
    ((sending none (some (inClass 1 .bridge)) 3 []).sport 2).held = some (inClass 1 .bridge) := by
  refine ⟨wf_of _ (by decide +kernel), ?_⟩
  decide +kernel

theorem test_preemption_premises :
    let s := (sending (some (inClass 1 .bridge)) none 3 [inClass 3 .bridge]).setReg (Reg.SEAM_PPRE 2) 2
    s.preemptable 2 1 = true ∧ s.preempts 2 = true ∧ s.preemptable 2 3 = false ∧ s.gateOpen 2 3 = true ∧ (s.sport 2).wire = some (inClass 1 .bridge) ∧
    (s.sport 2).held = none := by decide +kernel

/-- Queue 3 enabled for port 2 and class 3, its ring of 4 descriptors in fabric memory holding one of `len` bytes. -/
def transmitting (len : Nat) (d : List TxD) : State :=
  let s := (((bridging.setSeamWord (queueAt false 3) 0 (2 ^ 31 + 2 * 2 ^ 25 + 3 * 2 ^ 22 + 2)).setSeamWord (queueAt false 3) 1
    0x1000000).setSeamWord (queueAt false 3) 3 (2 ^ 16)).setTxList 3 d
  { s with mem := Memory.writes [] 0x1000000 ([0x1001000, 0, len, 0].flatMap (leBytes 4)) }

theorem test_transmit_end_premises :
    let d : TxD := ⟨0, false, false, 1, none, 0⟩
    let s := transmitting 60 [d]
    let v := (({ s with free := s.free + 1 } : State).setSport 2 { s.sport 2 with wire := none }).setTxList 3 [{ d with left := 0, result := some 0 }]
    let r := v.engineWrites .seam (v.qCoh false 3) (v.qDesc false 3 0 + 16) (wordBytes [0x80000000, 0, 0, 0])
    s.wf ∧ s.txList 3 = [d] ∧ r.1 = .done ∧ ((r.2.setTxList 3 []).qDone false 3 (v.qDesc false 3 0 + 16) (2 ^ 31)).txList 3 = [] ∧
    ((sending (some (inClass 1 (.pdelayReq 7))) none 3 []).sport 2).wire = some (inClass 1 (.pdelayReq 7)) := by
  refine ⟨wf_of _ (by decide +kernel), ?_⟩
  decide +kernel

theorem test_port_upkeep_premises :
    let s := bridging.setReg Reg.SEAM_EVTEN 7
    speedAllowed 1 (s.flag (Reg.SEAM_PCTL 1) Fld.SEAM_PCTL_MODE) 5 = true ∧ s.reg (Reg.SEAM_PSTAT 1) ≠ 0 ∧ (s.reg Reg.SEAM_EVTEN).getLsbD 1 = true ∧
    s.seam.aged + (s.setFld Reg.SEAM_CTRL Fld.SEAM_CTRL_AGE 0).fld Reg.SEAM_CTRL Fld.SEAM_CTRL_AGE * 750000000 ≤ s.fc ∧
    (s.setSeamWord 0x80000 1 (2 ^ 31)).fdbDynamic = [0x80000] ∧
    s.seamWord 0xC0000 0 / 2 ^ 31 = 1 ∧ s.seamWord 0xC0000 0 / 2 ^ 29 % 2 = 1 ∧ (s.cbRec 0).takeAny = true ∧
    ((s.setCbRec 0 ⟨0, false, 5, [true], 0⟩).cbRec 0).takeAny = false ∧ s.seamWord 0xC0000 1 = 0 := by decide +kernel

/-- The time engine on, port 2 slave and port 1 master, with a Sync and its Follow_Up. -/
def timing : State :=
  let s := (((bridging.setFld (Reg.SEAM_PCTL 2) Fld.SEAM_PCTL_ROLE 2).setFld (Reg.SEAM_PCTL 1) Fld.SEAM_PCTL_ROLE 1).setFlds Reg.SEAM_PTPCTL
    [(Fld.SEAM_PTPCTL_EN, 1), (Fld.SEAM_PTPCTL_LOGPD, 0)])
  { s with seam := { s.seam with sync := some (4, 131072, 0), fup := some (4, 65536, 0), prevSync := some (0, 0) } }

theorem test_time_engine_premises : timing.wf ∧ timing.ecc = [] ∧ timing.ptpOn = true ∧ (∀ c, c < 8 → timing.classFull 1 c = false) ∧ ptpCls < 8 ∧
  timing.role 1 = 1 ∧
    timing.role 2 = 2 ∧ (timing.sport 1).syncSent = none ∧ (timing.sport 2).pdSent = none ∧ timing.slavePort = some 2 ∧
    timing.seam.sync = some (4, 131072, 0) ∧ timing.seam.fup = some (4, 65536, 0) ∧ 0 ≤ timing.syncInterval ∧ timing.disciplined = false ∧
    timing.flag Reg.SEAM_PTPCTL Fld.SEAM_PTPCTL_ISTEP = false ∧ timing.flag Reg.PSQ_DTCTRL Fld.PSQ_DTCTRL_HOLD = false ∧
    (timing.setFld Reg.PSQ_DTCTRL Fld.PSQ_DTCTRL_HOLD 1).flag Reg.PSQ_DTCTRL Fld.PSQ_DTCTRL_HOLD = true ∧
    timing.seam.syncFc + timing.fld Reg.SEAM_PTPCTL Fld.SEAM_PTPCTL_SRTO * timing.syncInterval ≤
      ({ timing with fc := 281250000 } : State).fc := by
  refine ⟨wf_of _ (by decide +kernel), by decide +kernel, by decide +kernel, by decide +kernel, Nat.mod_lt _ (by decide), ?_⟩
  decide +kernel

-- an accepted Sync shows the offset in nanoseconds (R391)
theorem test_sync_offset : ∃ t, exec .syncAccept timing = .next t ∧ t.reg Reg.SEAM_PTPOFFL = 1 := ⟨_, rfl, by decide +kernel⟩

theorem test_queue_premises : (transmitting 60 []).wf ∧ (transmitting 60 []).qEnabled false 3 = true ∧ bridging.qEnabled true 3 = false ∧
    Fld.SEAM_TXDB_QUEUE.get (Fld.SEAM_TXDB_QUEUE.put 8191 0) = 8191 ∧ Fld.SEAM_QCMD_ABORT.get (Fld.SEAM_QCMD_ABORT.put 1 0) = 1 ∧
    bridging.flag Reg.SEAM_QSTAT Fld.SEAM_QSTAT_BUSY = false ∧ (0x80000002#32).getLsbD 31 = true ∧ (0x80000002#32).toNat % 16 = 2 := by
  refine ⟨wf_of _ (by decide +kernel), ?_⟩
  decide +kernel

theorem test_fetch_premises : ∀ len ∈ [14, 1518, 13, 1519],
    let s := transmitting len []
    let r := s.engineReads .seam (s.qCoh false 3) (s.qDesc false 3 0) 32
    s.qWork false 3 = true ∧ r.2.dev = s.dev ∧ (match r.1 with | .bytes d => leNat (slice d 8 4) == len | _ => false) = true ∧
    s.portUp (s.qPort 3) = true ∧ s.classFull (s.qPort 3) (s.qClass 3) = false ∧ s.txList 3 = [] ∧
    ((s.setFld (Reg.SEAM_PCTL 2) Fld.SEAM_PCTL_STATE 1)).portUp (s.qPort 3) = false := by decide +kernel

theorem test_receive_and_abort_premises :
    let s := transmitting 60 []
    let r := { s with seam := { s.seam with rxc := [⟨4, 0x1000000, [1, 2, 3, 4]⟩] } }
    let v := { s with seam := { s.seam with aborts := [⟨false, 3, true⟩] } }
    r.seam.rxc ≠ [] ∧ (r.engineWrites .seam (r.qCoh true 4) 0x1000010 (wordBytes [1, 2, 3, 4])).1 = .done ∧
    v.qAborting false 3 = true ∧ v.qOnWire 3 = false ∧ v.txList 3 = [] ∧ s.qAborting false 3 = false := by decide +kernel

/-- Telegram entry 6, of a kind, in group 2, with queue 3 on. -/
def telegram (valid kind : Nat) : State :=
  let s := transmitting 60 []
  { s with mem := Memory.writes s.mem (0x20400000 + 64 * 6) (leBytes 4 (valid * 2 ^ 31 + kind * 2 ^ 28 + 2 * 2 ^ 16 + 8) ++ List.replicate 20 0 ++ leBytes 4 3) }

theorem test_telegram_premises : (telegram 0 1).wf ∧ (telegram 0 1).ecc = [] ∧ (telegram 0 1).tgKey 6 = none ∧ (telegram 0 1).tgValid 6 = false ∧
    (telegram 0 1).tgContent 6 = true ∧ (telegram 0 7).tgContent 6 = false ∧ (telegram 1 1).tgValid 6 = true ∧
    (∃ h, (telegram 0 2).tgKey 6 = some h ∧ (telegram 0 2).tgSlot h ≠ 6) ∧ (telegram 0 1).tgGroup 6 = 2 ∧
    Sparse.rising (telegram 1 1).seam.keyed = true ∧ Sparse.rising (telegram 1 1).seam.groups = true := by
  refine ⟨wf_of _ (by decide +kernel), by decide +kernel, by decide +kernel, by decide +kernel, by decide +kernel, by decide +kernel,
    by decide +kernel, ⟨_, rfl, by decide +kernel⟩, by decide +kernel, by decide +kernel, by decide +kernel⟩

theorem test_publish_premises :
    let s := (telegram 1 1).setMembers 2 [6]
    let b := { s with seam := { s.seam with builds := [(2, 0)] } }
    Fld.SEAM_PUB_GROUP.get (Fld.SEAM_PUB_GROUP.put 2 0) = 2 ∧ s.flag (Reg.SEAM_PGSTAT 2) Fld.SEAM_PGSTAT_BUSY = false ∧ s.members 2 ≠ [] ∧
    (s.setFld (Reg.SEAM_PGSTAT 2) Fld.SEAM_PGSTAT_BUSY 1).flag (Reg.SEAM_PGSTAT 2) Fld.SEAM_PGSTAT_BUSY = true ∧
    Sparse.get 2 b.seam.builds = some 0 ∧ b.nextPublisher 2 0 = some 6 ∧ b.tg 6 0 / 2 ^ 24 % 2 = 0 ∧ b.tg 6 6 % 2 ^ 13 = 3 ∧
    b.qEnabled false 3 = true ∧ b.classFull (b.qPort 3) (b.qClass 3) = false ∧ b.nextPublisher 2 7 = none := by decide +kernel

theorem test_supervision_premises :
    let s := telegram 1 2
    let v := { s with seam := { s.seam with scan := 6 }, mem := Memory.writes s.mem (0x20400000 + 64 * 6 + 40) (leBytes 4 1) }
    v.flag Reg.SEAM_CTRL Fld.SEAM_CTRL_EN = true ∧ v.tgValid 6 = true ∧ v.tgKind 6 = 2 ∧ v.tg 6 10 ≠ 0 ∧ leNat (v.bytes (v.tgStatus 6) 4) / 2 ^ 14 % 2 = 0 ∧
    v.tg 6 12 + v.tg 6 13 * 2 ^ 32 ≤ v.now ∧ v.tg 6 0 / 2 ^ 26 % 2 = 0 ∧ released.flag Reg.SEAM_CTRL Fld.SEAM_CTRL_EN = false := by decide +kernel

/-! ### Premises: the Selvage island and its mailbox (15, 16) -/

/-- The SHA-256 of the 352 bytes of the parameter block below, from outside the model. -/
def digest : List Byte :=
  [0x25, 0x34, 0xd9, 0xde, 0xd9, 0x80, 0xae, 0x98, 0x29, 0x46, 0xff, 0x9a, 0x37, 0x94, 0xab, 0x7b,
   0x9b, 0x59, 0x90, 0x6c, 0x4c, 0x19, 0xd0, 0x03, 0xc3, 0x7e, 0xbc, 0xb8, 0xfb, 0x08, 0xa2, 0xd9]

theorem test_sha256 : sha256 ([1, 0, 0, 0, 3, 20, 1] ++ List.replicate 345 0) = digest := by decide +kernel

/-- OTP bytes with the valid parameter block 0: both sets, MDIV 20, a filter of 1, gains and offsets 0; and with a key in slot 0. -/
def parameters : List (Nat × Byte) :=
  [(0x80, 5), (0xA0, 1), (0x300, 1), (0x304, 3), (0x305, 20), (0x306, 1)] ++ digest.mapIdx (fun k x => (0x460 + k, x))

/-- A running island, changed by `f`. -/
def island (f : Island → Island) : State := { released with isl := f { Island.reset with running := true, otp := parameters, cls := 2 } }

theorem test_island_parameters (i : Island) (h : i.otp = parameters) : i.params = some 0x300 := by
  have v (b : Nat) (hb : b ∈ [1, 2, 3, 4, 5, 6, 7]) : i.blockValid b = false := by
    have : ∀ b ∈ [1, 2, 3, 4, 5, 6, 7], mdivs.contains (i.otpAt (blockBase b + 5)).toNat = false := by
      simp only [Island.otpAt, h]
      decide +kernel
    simp only [Island.blockValid, this b hb, Bool.and_false, Bool.false_and]
  have w : i.blockValid 0 = true := by
    have e : i.otpBytes (blockBase 0) 352 = [1, 0, 0, 0, 3, 20, 1] ++ List.replicate 345 0 := by
      simp only [Island.otpBytes, Island.otpAt, h]
      exact eq_of_beq (by decide +kernel)
    have f : digest = i.otpBytes (blockBase 0 + 352) 32 := by
      simp only [Island.otpBytes, Island.otpAt, h]
      exact eq_of_beq (by decide +kernel)
    simp only [Island.blockValid, e, test_sha256, ← f, beq_self_eq_true, Bool.and_true]
    simp only [Island.otpNat, Island.otpBytes, Island.otpAt, h]
    decide +kernel
  have r : List.range 8 = [0, 1, 2, 3, 4, 5, 6, 7] := rfl
  simp [Island.params, r, w, v, blockBase]

theorem setOn_of (i : Island) (h : i.otp = parameters) (k : Nat) (hk : k < 2) : i.setOn k = true := by
  have e : i.otpAt (0x300 + 4) = 3 := by simp only [Island.otpAt, h]; decide +kernel
  have p := test_island_parameters i h
  unfold Island.setOn
  generalize i.params = o at p ⊢
  subst p
  show (i.otpAt (0x300 + 4)).getLsbD k = true
  rw [e]
  revert k
  decide

theorem test_measurement_premises :
    let i := (island id).isl
    i.params = some 0x300 ∧ i.setOn 0 = true ∧ i.running = true ∧ i.sub < i.len ∧ (Island.reset).running = false ∧
    i.bitsFit (16000 / i.mdiv 0x300) (List.replicate 8 (List.replicate 2400 true)) = true :=
  ⟨test_island_parameters _ rfl, setOn_of _ rfl 0 (by decide), by decide +kernel⟩

theorem test_no_parameters (i : Island) (h : i.otp = []) : i.params = none := by
  have v (b : Nat) (hb : b ∈ [0, 1, 2, 3, 4, 5, 6, 7]) : i.blockValid b = false := by
    have : ∀ b ∈ [0, 1, 2, 3, 4, 5, 6, 7], mdivs.contains (i.otpAt (blockBase b + 5)).toNat = false := by
      simp only [Island.otpAt, h]
      decide +kernel
    simp only [Island.blockValid, this b hb, Bool.and_false, Bool.false_and]
  have r : List.range 8 = [0, 1, 2, 3, 4, 5, 6, 7] := rfl
  simp [Island.params, r, v]

theorem test_second_premises :
    let i := (island (fun i => { i with sub := 25000000, sec := 299 })).isl
    i.len ≤ i.sub ∧ (i.sec + 1) % 300 = 0 ∧ ((island id).isl.sec + 1) % 300 ≠ 0 ∧
    (∃ x : IslSet, x.n ≠ 0 ∧ x.vac2 / x.n < 11000 * 11000) := by
  refine ⟨by decide +kernel, by decide +kernel, by decide +kernel, { IslSet.reset with n := 1 }, by decide, by decide +kernel⟩

theorem test_modulator_premises :
    let i := (island (fun i => { i with chans := i.chans.set 2 { IslChan.reset with quiet := 64, full := 24 } })).isl
    (i.chans[2]).faultNow = true ∧ (i.chans[2]).fault = false ∧ (i.chans[2]).over25 = (i.chans[2]).ranged ∧
    i.setOn (((2 : Fin 8) : Nat) / 4) = true :=
  ⟨by decide +kernel, by decide +kernel, by decide +kernel, setOn_of _ rfl _ (by decide)⟩

/-- A time message for second 1000. -/
def message1000 : List Byte := let b := leBytes 8 1000; [0x55, 0xAA] ++ b ++ leBytes 2 (crc16 b).toNat

theorem test_time_message_premises : message1000.length = 12 ∧ message1000.take 2 = [0x55, 0xAA] ∧
    message1000.drop 10 = leBytes 2 (crc16 ((message1000.drop 2).take 8)).toNat ∧
    (∀ x ∈ [(1000, 100), (1000, 24999000), (1001, 1000), (999, 1000)],
      let i := (island (fun i => { i with tod := some (1000, 0), sc := 5000, sec := x.1, sub := x.2 })).isl
      i.sc + 999 ≤ 0 + 25000000 ∧ i.tod = some (1000, 0)) ∧
    (island (fun i => { i with good := some 0 })).isl.inSync = true ∧ (island (fun i => { i with good := some 0, sc := 250000001 })).isl.inSync = false := by
  decide +kernel

-- an edge 100 sc into second 1000 of a message for it shows the offset and slews (R432)
theorem test_edge : ∃ t, exec (.ppsEdge 0) (island (fun i => { i with tod := some (1000, 0), sec := 1000, sub := 1100 })) = .next t ∧
    t.isl.offNs = 4000 ∧ t.isl.slew = 100 := ⟨_, rfl, by decide +kernel⟩

theorem test_record_premises :
    let c : IslClosed := ⟨⟨[300, 0, 0, 0, 0, 0], false, false, false, false⟩, 300, 2, true, 4, [], false, false, false⟩
    let k : IslCheckpoint := ⟨7, 0, List.replicate 20 5, c.period, 2, 100, 40, true, 4, false⟩
    let f (flash : List (Nat × Byte)) : Island := { Island.reset with flash := flash }
    let slot := k.bytes.mapIdx (fun j x => (0x100000 + j, x))
    (island (fun i => { i with closed := [c] })).isl.closed = c :: [] ∧ (island id).isl.closed = [] ∧ Island.reset.running = false ∧
    c.period.secs.length = 6 ∧ Sparse.rising (f slot).flash = true ∧ k.bytes.length = 252 ∧
    readCheckpoint k.bytes = { k with energy := (readCheckpoint k.bytes).energy } := by
  decide +kernel

/-- The mailbox on, with a ring of 16 slots in fabric memory. -/
def mailing (ready : Nat) (f : Island → Island) : State :=
  (((island f).setFlds Reg.SELM_MCTL [(Fld.SELM_MCTL_EN, 1), (Fld.SELM_MCTL_SZL, 4)]).setReg Reg.SELM_RBASEL 0x1000000).setFld Reg.SELM_MSTAT
    Fld.SELM_MSTAT_READY ready

theorem test_mailbox_premises :
    let s := mailing 1 (fun i => { i with queue := [i.message 3 false []] })
    let r := s.engineWrites .mailbox false s.slotAddr (s.isl.message 3 false [])
    let w := s.setReg Reg.SELM_RBASEL 0x3000000
    s.wf ∧ (mailing 1 id).isl.running = true ∧ (mailing 1 id).isl.ready = false ∧ (mailing 1 id).selm.fell = false ∧
    s.flag Reg.SELM_MSTAT Fld.SELM_MSTAT_READY = true ∧ s.flag Reg.SELM_MCTL Fld.SELM_MCTL_EN = true ∧ s.flag Reg.SELM_MCTL Fld.SELM_MCTL_COH = false ∧
    s.selm.stopped = false ∧ s.selm.writing = false ∧ s.isl.queue ≠ [] ∧ s.ringFull = false ∧ (s.setReg Reg.SELM_RIDX 1).ringFull = true ∧
    s.flag Reg.SELM_MSTAT Fld.SELM_MSTAT_WAIT = false ∧ r.1 = .done ∧
    (match (w.engineWrites .mailbox false w.slotAddr (List.replicate 512 0)).1 with | .refused _ _ => true | _ => false) = true ∧
    Sparse.rising (w.engineWrites .mailbox false w.slotAddr (List.replicate 512 0)).2.dev = true ∧
    (mailing 0 id).flag Reg.SELM_MSTAT Fld.SELM_MSTAT_READY = false := by
  refine ⟨wf_of _ (by decide +kernel), ?_⟩
  decide +kernel

theorem test_send_premises :
    let s (f : Island → Island) := mailing 1 (fun i => { f i with ready := true })
    (s id).queued < 8 ∧ (0 - fromGray 0b1100 : BitVec 4).toNat = 8 ∧ (s (fun i => { i with sendId := true })).isl.sendId = true ∧ (s id).isl.sendId = false ∧
    (s (fun i => { i with status := some [1] })).isl.status = some [1] ∧ (s id).isl.status = none ∧ (s id).isl.replayRecs = [] ∧
    8 ≤ (s (fun i => { i with sent := 8 })).queued := by decide +kernel

-- a record under UNSEALED with a zero signature is the next to be sent (R435, R442)
theorem test_send_record_premise :
    let rec1 : List Byte := [1, 0, 0, 0, 0, 0, 0x40, 0] ++ List.replicate 328 0
    let i : Island := { Island.reset with rnum := 1, flash := rec1.mapIdx (fun k x => (0x400000 + k, x)) ++ (List.range 4).map (fun k => (0x4001FC + k, 0)) }
    (fromTo i.nextRec i.rnum).find? (fun r => (i.readRec r).isSome) = some 1 := by decide +kernel

theorem test_mailbox_enable_premises :
    let s := (mailing 0 id).setFld Reg.SELM_MCTL Fld.SELM_MCTL_EN 0
    s.flag Reg.SELM_MCTL Fld.SELM_MCTL_EN = false ∧ (∀ z ∈ [3, 4, 12, 13], Fld.SELM_MCTL_SZL.get (Fld.SELM_MCTL_SZL.put z 0x80000000) = z) ∧
    (0x80000000#32).getLsbD 31 = true ∧ s.flag Reg.SELM_MSTAT Fld.SELM_MSTAT_ILINK ≠ s.isl.running := by decide +kernel

theorem test_seal_premises :
    let i := (island id).isl
    let e := ({ Island.reset with running := true } : Island)
    i.sealed = false ∧ i.holdsKey i.activeSlot = true ∧ i.seals < 8 ∧ ({ e with otp := [(0x300, 1)] } : Island).freeBlock = some 1 ∧
    e.holdsKey e.activeSlot = false ∧ (List.range 4).find? (fun k => !e.slotUsed k) = some 0 ∧ (∀ a, a < 32 → e.otpAt (0x80 + 128 * 0 + a) = 0) ∧
    ({ e with otp := [(0x40, 1)] } : Island).sealed = true ∧ ({ e with otp := [(0xE7F, 1), (0xEFF, 1)] } : Island).freeBlock = none := by
  decide +kernel

/-! ### Premises: timers and pins (17) -/

/-- Timer unit 4 running from fc, its compare channel 1 at 50 and channel 2 a capture channel. -/
def counting (cnt per : Nat) : State :=
  let s := ((released.setFld (Reg.TMR_CTL 4) Fld.TMR_CTL_EN 1).setFld (Reg.TMR_CCTL 4 1) Fld.TMR_CCTL_MODE 1).setFld (Reg.TMR_CCTL 4 2)
    Fld.TMR_CCTL_MODE 2
  s.setUnit 4 { Tmr.reset with cnt := cnt, per := per, cmp := #v[0, 50, 0, 0], armed := #v[false, true, false, false] }

theorem test_tick_premises : (counting 7 9).wf ∧ (counting 7 9).canTick 4 = true ∧ (counting 7 9).sourceTick 4 = true ∧
    ((counting 7 9).unit 4).cnt < ((counting 7 9).unit 4).per ∧ ((counting 9 9).unit 4).per ≤ ((counting 9 9).unit 4).cnt ∧
    released.canTick 4 = false := by
  refine ⟨wf_of _ (by decide +kernel), ?_⟩
  decide +kernel

-- at the period the count starts anew and PERF is set (R453)
theorem test_reload : ∃ t, exec (.timerReload 4) (counting 9 9) = .next t ∧ (t.unit 4).cnt = 0 ∧
    t.flag (Reg.TMR_STAT 4) Fld.TMR_STAT_PERF = true := ⟨_, rfl, by decide +kernel⟩

theorem test_compare_premises : ∀ cnt ∈ [50, 51],
    let s := counting cnt 100
    s.ticks 4 = true ∧ (s.chMode 4 1 == 1) = true ∧ (s.unit 4).armed[1] = true ∧ (s.unit 4).cmp[1] ≤ (s.unit 4).cnt ∧
    ¬ ((counting 49 100).unit 4).cmp[1] ≤ ((counting 49 100).unit 4).cnt := by decide +kernel

theorem test_capture_premises :
    let s := counting 7 9
    s.pins.inputs.getLsbD (4 * 4 + 2) = false ∧ s.inLevel (4 * 4 + 2) = false ∧
    (({ s.setFld (Reg.PIN_ISEL 18) Fld.PIN_ISEL_PIN 5 with
      pins := { s.pins with outside := s.pins.outside.set 5 (some true), inReset := false } } : State).inLevel (4 * 4 + 2) = true) ∧ Fld.TMR_CCTL_CEDGE.get (s.cctl 4 2) = 0 ∧ s.chMode 4 2 = 2 ∧ s.frozen 4 = false ∧
    ((s.setFld (Reg.TMR_STAT 4) Fld.TMR_STAT_CAPPEND 4).fld (Reg.TMR_STAT 4) Fld.TMR_STAT_CAPPEND).testBit 2 = true := by decide +kernel

/-- Unit 4 with a trigger mode and a signal on its way. -/
def triggered (mode : Nat) (signal : Bool) : State :=
  let s := (counting 7 9).setFld (Reg.TMR_TRIG 4) Fld.TMR_TRIG_MODE mode
  { s with fc := 4, tmrX := ⟨if signal then [(4, mode, 0)] else [], []⟩ }

theorem test_trigger_premises :
    (∀ m ∈ [2, 3, 4], (triggered m true).fc / 3 ≠ 0 ∧ (4, m, (triggered m true).fc / 3 - 1) ∈ (triggered m true).tmrX.signals ∧
      (4, m, 0) ∉ (triggered m false).tmrX.signals ∧
      (triggered m true).trigMode 4 = m ∧ (triggered m true).frozen 4 = false) ∧
    (triggered 3 true).canTick 4 = true ∧ (triggered 2 true).ticks 4 = true ∧
    ((triggered 4 true).setFld (Reg.TMR_CTL 4) Fld.TMR_CTL_EN 0).flag (Reg.TMR_CTL 4) Fld.TMR_CTL_EN = false ∧
    (triggered 1 false).trigMode 4 = 1 ∧ (triggered 1 false).frozen 4 = false ∧
    (∀ b : Bool, let s := (triggered 1 false).setUnit 4 { (triggered 1 false).unit 4 with gate := b }
      s.gateSignal 4 = false ∧ (s.unit 4).gate = b) := by decide +kernel

theorem test_freeze_premise :
    let s := ((counting 7 9).setFld (Reg.TMR_CTL 4) Fld.TMR_CTL_FRZ 1).setCtx 0 { (counting 7 9).ctx 0 with run := .halted }
    (s.flag (Reg.TMR_CTL 4) Fld.TMR_CTL_FRZ && (s.ctx (Fin.ofNat 128 (s.fld (Reg.TMR_OWN 4) Fld.TMR_OWN_CTX))).run == .halted) = true := by
  decide +kernel

theorem test_timer_register_premises :
    let s := counting 7 9
    released.flag (Reg.TMR_CTL 4) Fld.TMR_CTL_EN = false ∧ (0x80000000#32).getLsbD 31 = true ∧ released.frozen 4 = false ∧ s.wf ∧
    (∀ d : Fin 4, d ≠ 1 → s.firing 4 d = false) ∧ s.ticks 4 = true ∧ s.chMode 4 1 = 1 ∧ s.chMode 4 3 ≠ 1 ∧
    7 + (s.unit 4).stCmp[1] * 2 ^ 32 ≤ (s.unit 4).cnt ∧ (s.unit 4).cnt < 8 + (s.unit 4).stCmp[1] * 2 ^ 32 ∧
    (s.reg (Reg.TMR_CTL 4) = (s.plainWrite (Reg.TMR_CTL 4) 0xC0000000 0).reg (Reg.TMR_CTL 4)) := by
  refine ⟨by decide +kernel, by decide +kernel, by decide +kernel, wf_of _ (by decide +kernel), ?_⟩
  decide +kernel

theorem test_pin_premises : released.wf ∧ driveReg (Reg.PIN_CFG 0) = true ∧ driveReg Reg.PIN_CTRL = false ∧
    driveReg (Reg.PIN_PPCTL 15) = true ∧ (locking.setFld Reg.HYC_LSCTL Fld.HYC_LSCTL_ACTIVE 1).lockstep = true ∧ released.lockstep = false ∧
    (released.plainWrite (Reg.PIN_ISEL 3) 5 0).reg (Reg.PIN_ISEL 3) ≠ released.reg (Reg.PIN_ISEL 3) ∧
    (released.plainWrite (Reg.PIN_ISEL 3) 255 0).reg (Reg.PIN_ISEL 3) = released.reg (Reg.PIN_ISEL 3) ∧
    ({ released with pins := { released.pins with inReset := false } } : State).pinsReset = false ∧ released.fld (Reg.PIN_CFG 159) Fld.PIN_CFG_MODE = 0 := by
  refine ⟨wf_of _ (by decide +kernel), ?_⟩
  decide +kernel

theorem test_pin_line_premises :
    (∀ k ∈ [(0, false, true), (1, true, false), (2, false, true), (3, false, true), (4, true, false)],
      let s := { released.setFlds (Reg.PIN_IRQCFG 2) [(Fld.PIN_IRQCFG_EN, 1), (Fld.PIN_IRQCFG_TRIG, k.1)] with
        pins := { released.pins with inReset := false, filtered := if k.2.1 then 4 else 0, outside := released.pins.outside.set 2 (some k.2.2) } }
      s.flag (Reg.PIN_IRQCFG 2) Fld.PIN_IRQCFG_EN = true ∧ s.fld (Reg.PIN_IRQCFG 2) Fld.PIN_IRQCFG_TRIG = k.1 ∧
      s.pins.filtered.getLsbD 2 = k.2.1 ∧ s.fld (Reg.PIN_IRQCFG 2) Fld.PIN_IRQCFG_FILT ≤ s.pins.held[2] ∧ s.ballLevel (s.irqPin 2) = k.2.2) ∧
    (let v := released.plainWrite (Reg.PIN_IRQCFG 2) 5 0
     ¬ (v.reg (Reg.PIN_IRQCFG 2) = released.reg (Reg.PIN_IRQCFG 2) ∨
       v.reg (Reg.PIN_IRQCFG 2) = (released.reg (Reg.PIN_IRQCFG 2)).and 0x7FFFFFFF)) := by decide +kernel

theorem test_balls_premises : State.reset.pinsReset = true ∧ State.reset.pins.outside.getD 3 none = none ∧
    ({ State.reset with pins := { State.reset.pins with outside := State.reset.pins.outside.set 3 (some true) } } : State).pins.outside.getD 3 none =
      some true := by decide +kernel

/-! ### Premises: power, standby, clocks, boot and resets (19) -/

/-- Block pipe 2 of the display, off. -/
def darkPipe : State := (released.setReg Reg.SYS_BPWR 0x200).setReg Reg.SYS_BPSTAT 0x200

theorem test_power_premises :
    let i := 9
    let changing (s : State) (o : Bool) : State := { s with sys := { s.sys with changes := [(i, o)] } }
    darkPipe.wf ∧ (∃ b : Block, b.index = 9) ∧ canPowerOff 9 = true ∧ canPowerOff 4 = false ∧ canPowerOff 13 = false ∧ canPowerOff 5 = true ∧
    canPowerOff 12 = true ∧ (darkPipe.reg Reg.SYS_BPWR).getLsbD 9 = true ∧ (released.reg Reg.SYS_BPWR).getLsbD 9 = false ∧
    released.powerBusy 9 = false ∧ (released.setFld (Reg.DP_CTRL 2) Fld.DP_CTRL_EN 1).powerBusy 9 = true ∧
    (∀ o : Bool, (changing released o).sys.changes.any (fun c => c.1 == i) = true) ∧ released.sys.changes.any (fun c => c.1 == i) = false ∧
    0x10900000 ≤ Reg.DP_STAT 2 ∧ lockOf (Reg.DP_STAT 2) ≠ some (Reg.DP_STAT 2) := by
  refine ⟨wf_of _ (by decide +kernel), ⟨.dp2, by decide⟩, ?_⟩
  decide +kernel

theorem test_voltage_premises :
    let s (d : Dvfs) (p : Nat) : State := released.setQuad 1 { released.quad 1 with dvfs := d, point := p, qvid := BitVec.ofNat 3 p }
    let k (n : Nat) : Nat := Fld.SYS_QDVFS_TARGET.get (Fld.SYS_QDVFS_TARGET.put n 0)
    ((s .idle 2).quad 1).dvfs = .idle ∧ k 1 < 2 ∧ 2 < k 3 ∧ k 2 = 2 ∧
    k 2 = Fld.SYS_QDVFS_CUR.get (((s .idle 2).plainWrite (Reg.SYS_QDVFS 1) (Fld.SYS_QDVFS_TARGET.put 2 0) 0).reg (Reg.SYS_QDVFS 1)) ∧
    (∀ d ∈ [Dvfs.divider 3 false, .divider 3 true, .biasing 3 true 750, .biasing 3 false 0, .settling 3 true, .settling 3 false], ((s d 3).quad 1).dvfs = d ∧ d ≠ .idle ∧
      ((s d 3).quad 1).pendTarget = none ∧ ((s d 3).quad 1).point = 3) ∧
    (let v := { (s .idle 2).setQuad 1 { (s .idle 2).quad 1 with cycles := 32, span := 1, cross := 17 } with sys := { released.sys with clocks := 8 } }
     (v.positionZero 1 17).isSome = true ∧ v.sys.clocks.getLsbD 3 = true ∧ (v.positionZero 1 33).isSome = false) := by decide +kernel

/-- An armed device whose contexts are all Off. -/
def armed : State := { State.reset with sys := { State.reset.sys with boot := .done } }.setFld Reg.SYS_STBY Fld.SYS_STBY_GO 1

theorem test_standby_premises : armed.wf ∧ armed.flag Reg.SYS_STBY Fld.SYS_STBY_GO = true ∧ armed.sys.standby = 0 ∧
    (∀ c, (armed.ctx c).run = .asleep ∨ (armed.ctx c).run = .off) ∧ armed.standbyRefusal = none ∧ armed.fab.targets = [] ∧
    (armed.setFld Reg.SEAM_CTRL Fld.SEAM_CTRL_EN 1).standbyRefusal = some 4 ∧ (armed.setFld Reg.PRS_STAT Fld.PRS_STAT_STATE 1).standbyRefusal = some 1 ∧
    ((armed.setReg Reg.SYS_FMRET 0).reg Reg.SYS_FMRET).getLsbD 31 = false := by
  refine ⟨wf_of _ (by decide +kernel), ?_⟩
  decide +kernel

-- the second step of an entry leaves the quads at the voltage code 4 (R480)
theorem test_standby_quads : ∃ t, exec (.standbyEntry 1) armed = .next t ∧ t.sys.standby = 2 ∧ (t.quad 3).qvid = 4 ∧ t.evc.suspended = true :=
  ⟨_, rfl, by decide +kernel⟩

theorem test_wake_from_standby_premises :
    let s := { armed.setReg Reg.SYS_WAKEEN 0x20000 with sys := { armed.sys with standby := 2 } }
    let w := { s with sys := { s.sys with waking := some 17 }, evc := { s.evc with suspended := true, saved := some ⟨[(Reg.EVC_SCFG 5, 1)], []⟩ } }
    0 < s.sys.standby ∧ s.sys.waking = none ∧ (s.reg Reg.SYS_WAKEEN).getLsbD 17 = true ∧ s.sys.blind ≤ s.fc ∧
    ({ s with fab := { s.fab with ring := [(me, 0x10500000, none)] } } : State).portHeld 0x10500000 = true ∧
    (∀ q, ((w.setQuad q { w.quad q with qpg := true }).quad q).qpg = true) ∧ w.sys.waking = some 17 ∧ w.evc.saved.isSome = true ∧
    Memory.wf w.mem = true ∧ Sparse.rising w.dev = true ∧ Sparse.rising [(Reg.EVC_SCFG 5, (1 : Word))] = true := by decide +kernel

theorem test_clock_premises :
    let s := { released with sys := { released.sys with clocks := 0x3FFF } }
    released.wf ∧ released.sys.boot ≠ .held ∧ released.sys.standby = 0 ∧ released.sys.clocks.getLsbD 11 = false ∧ s.sys.clocks.getLsbD 11 = true ∧
    s.sys.clocks.getLsbD 13 = true ∧ (released.setFld (Reg.SYS_PXCTL 1) Fld.SYS_PXCTL_EN 1).flag (Reg.SYS_PXCTL 1) Fld.SYS_PXCTL_EN = true ∧
    released.flag (Reg.SYS_PXCTL 1) Fld.SYS_PXCTL_EN = false ∧ (released.reg Reg.SYS_BPSTAT).getLsbD 8 = false ∧
    (darkPipe.reg Reg.SYS_BPSTAT).getLsbD 9 = true := by
  refine ⟨wf_of _ (by decide +kernel), ?_⟩
  decide +kernel

-- the limits of a pixel PLL: INT 48 and 96, DIV with an output of 1/24 to 1 of the VCO (R487)
theorem test_pixel_setting_premises :
    let m := released.fld (Reg.SYS_PXMOD 1) Fld.SYS_PXMOD_MOD
    let f := released.fld (Reg.SYS_PXFRAC 1) Fld.SYS_PXFRAC_FRAC
    (∀ d ∈ [(48, 2), (96, 96), (96, 4)], let v := d.1 * m + f
      48 * m ≤ v ∧ v ≤ 96 * m ∧ f < m ∧ 2 ≤ d.2 ∧ d.2 ≤ 96 ∧ d.2 * m ≤ v ∧ v ≤ 24 * (d.2 * m) ∧
      Fld.SYS_PXCTL_INT.get (Fld.SYS_PXCTL_INT.put d.1 (Fld.SYS_PXCTL_DIV.put d.2 0)) = d.1 ∧
      Fld.SYS_PXCTL_DIV.get (Fld.SYS_PXCTL_INT.put d.1 (Fld.SYS_PXCTL_DIV.put d.2 0)) = d.2) ∧
    ¬ 48 * m ≤ 47 * m + f ∧ released.pipeRuns 1 = false ∧ Who.lining (.ctx 0 true) = true := by decide +kernel

/-- Context 0 in the boot ROM at a copy, for a source. -/
def booting (copy src : Nat) : State := { (running id).setFld Reg.SYS_STRAP Fld.SYS_STRAP_BOOTSRC src with sys := { State.reset.sys with boot := .rom copy } }

theorem test_boot_premises :
    let r := { State.reset with sys := { State.reset.sys with boot := .released, clocks := 4 } }
    r.wf ∧ r.sys.boot = .released ∧ r.sys.clocks.getLsbD 2 = true ∧
    (∀ k ∈ [0, 1, 2, 3], (booting 1 k).fld Reg.SYS_STRAP Fld.SYS_STRAP_BOOTSRC = k) ∧ (booting 1 0).sys.boot = .rom 1 ∧ ((booting 1 0).ctx 0).run = .active ∧
    (booting 1 0).sys.bootAt ≤ (booting 1 0).fc ∧ bootRead 0 1 = some (.qspi 3 0x200000) ∧ bootRead 1 1 = some (.emmc 2 0) ∧
    headerError [] = some 2 ∧ headerError ([0x54, 0x4F, 0x42, 0x57, 1, 0] ++ List.replicate 250 0) = some 3 := by
  refine ⟨wf_of _ (by decide +kernel), ?_⟩
  decide +kernel

theorem test_reset_premises :
    (running id).wf ∧ (running id).fab.targets = [] ∧ (running id).prs.rows = [] ∧ Who.lining (.ctx 0 true) = true ∧ me.lining = false ∧
    Block.resettable .tmr = true ∧ released.blockOff .tmr = false ∧ Block.resettable .sys = false ∧ darkPipe.blockOff .dp2 = true ∧
    State.reset.sys.boot = .held ∧ State.reset.pinsReset = true ∧ (running id).fab.port = [] ∧ keptMemory 0x1000000 = true ∧ keptMemory 0x4000000 = false ∧
    lockOf Reg.PIN_CTRL = some Reg.PIN_CTRL ∧ ((released.setFld Reg.PIN_CTRL Fld.PIN_CTRL_LOCK 1).reg Reg.PIN_CTRL).getLsbD 31 = true := by
  refine ⟨wf_of _ (by decide +kernel), ?_⟩
  decide +kernel

/-! ### Premises: the machine (20) -/

theorem test_queue_of_commands_premises :
    let s := { running id with pending := [Instr.pwronRstN, .sysRstN] }
    s.pending = .pwronRstN :: [.sysRstN] ∧ (running id).pending = [] ∧ (running id).sys.clocks.getLsbD 0 = false ∧
    ({ released with sys := { released.sys with clocks := 5 } } : State).sys.clocks.getLsbD 0 = true ∧
    ({ released with sys := { released.sys with clocks := 5 } } : State).sys.clocks.getLsbD (2 + 0) = true := by decide +kernel

-- a state that keeps the invariant, and a step of it that answers a next state
theorem test_step_premises : ∃ t, (running id).wf ∧ step { running id with pending := [.pwronRstN] } = .next t :=
  ⟨_, wf_of _ (by decide +kernel), rfl⟩
-- an empty queue and a running fabric: one fabric cycle
theorem test_idle_step : ∃ t, step { released with sys := { released.sys with clocks := 5 } } = .next t ∧ t.fc = 1 ∧ t.psq.time = 0x155555555 :=
  ⟨_, rfl, by decide +kernel⟩

/-! ### Premises: further clauses (01 to 03, 07 to 13, 19) -/

/-- A device with DRAM whose channels are not trained, so that its memory is held (R489). -/
def untrained : State := released.setFld Reg.MEM_CTRL Fld.MEM_CTRL_DRAMSZ 1

theorem test_held_memory_premises : untrained.wf ∧ untrained.memHeld 0x1000000000 = true ∧ untrained.anyHeld [(0x1000000000, 4)] = true ∧
    (untrained.engineWrites .seam false 0x1000000000 [1, 2, 3, 4]).1 = .held ∧
    (untrained.engineWrites .mailbox false 0x1000000000 [1, 2, 3, 4]).1 = .held ∧
    (untrained.splLines false 0x1000000000 64).1 = .held ∧ (untrained.engineCells .presser false [(0x1000000000, 1)]).1 = .held := by
  refine ⟨wf_of _ (by decide +kernel), ?_⟩
  decide +kernel

theorem test_waiting_claim_premises :
    let d : State := { claiming .load with evc := { (claiming .load).evc with claims := [⟨0, .load, 0, true⟩] } }
    let o := (claiming .read).setFlds (Reg.EVC_SSTAT 5) [(Fld.EVC_SSTAT_ACT, 1), (Fld.EVC_SSTAT_OWNER, 0)]
    d.wf ∧ d.presented 0 = some 5 ∧ d.evc.claims = [⟨0, .load, 0, true⟩] ∧ d.evc.suspended = false ∧
    (claiming .read).hasClaim 0 = true ∧ (claiming .read).hasClaim 1 = false ∧ (claiming .read).evc.claims ≠ [] ∧
    o.flag (Reg.EVC_SSTAT 5) Fld.EVC_SSTAT_ACT = true ∧ o.fld (Reg.EVC_SSTAT 5) Fld.EVC_SSTAT_OWNER = 0 ∧
    Fld.EVC_COMPLETE_NUM.get (Fld.EVC_COMPLETE_NUM.put 0x7FF 0) = 0x7FF ∧
    (entering.ctx 0).entry.map (fun e => e.made) = some false ∧
    ({ released with evc := { released.evc with suspended := true } } : State).evcHeld = true ∧ released.evcHeld = false := by
  refine ⟨wf_of _ (by decide +kernel), ?_⟩
  decide +kernel

theorem test_refusal_record_premises :
    let s := released.setFlds Reg.FAB_VSTAT [(Fld.FAB_VSTAT_VALID, 1), (Fld.FAB_VSTAT_INIT, 200)]
    let r : State := { s with fab := { s.fab with refFc := some 0 } }
    r.wf ∧ r.flag Reg.FAB_VSTAT Fld.FAB_VSTAT_VALID = true ∧ r.fab.refFc = some 0 ∧ r.fc = 0 ∧ me.id < r.fld Reg.FAB_VSTAT Fld.FAB_VSTAT_INIT ∧
    s.fab.refFc = none ∧ released.mayIssue { ask 0x1000000 .read with cls := .rt0 } = false ∧
    (released.setCtx 0 { released.ctx 0 with status := { (released.ctx 0).status with lvl := false } }).mayIssue
      { ask 0x1000000 .read with who := .ctx 0 true } = false ∧
    ({ released with evc := { released.evc with suspended := true } } : State).ringHeld Reg.EVC_STAT = true := by
  refine ⟨wf_of _ (by decide +kernel), ?_⟩
  decide +kernel

theorem test_dispatch_hold_premises :
    let s : State := { lane3 2 0x10 1 with evc := { (lane3 2 0x10 1).evc with suspended := true } }
    let o := (lane3 2 0x12 1).setReg Reg.SYS_BPSTAT 0x40
    s.portServes 3 = true ∧ s.inHem 3 = false ∧ s.entryOp 3 = 0x10 ∧ s.ringHeld Reg.EVC_DOORBELL = true ∧
    s.firewall ⟨s.psqWho, .be, .write [1, 0, 0, 0], Reg.EVC_DOORBELL, 4, true⟩ = .allowed ∧
    o.portServes 3 = true ∧ o.inHem 3 = false ∧ o.fld Reg.PRS_STAT Fld.PRS_STAT_STATE = 0 ∧
    o.firewall ⟨o.psqWho, .be, .write [0, 0, 0, 0], Reg.PRS_START, 4, true⟩ ≠ .allowed := by decide +kernel

theorem test_lane_end_premises :
    let s := lane3 0 0 0
    let e := s.setLane 3 { s.lane 3 with ended := some (0, true) }
    e.wf ∧ e.laneState 3 = 0 ∧ (e.lane 3).ended = some (e.fc, true) ∧ (s.lane 3).ended = none ∧
    (s.setFld (Reg.PSQ_LSTAT 3) Fld.PSQ_LSTAT_DONE 1).flag (Reg.PSQ_LSTAT 3) Fld.PSQ_LSTAT_DONE = true ∧
    (({ s with fc := 2 } : State).setLane 3 { s.lane 3 with closings := [⟨.press, some 0⟩] }).lane 3 = { s.lane 3 with closings := [⟨.press, some 0⟩] } ∧
    0 + 2 ≤ ({ s with fc := 2 } : State).fc := by
  refine ⟨wf_of _ (by decide +kernel), ?_⟩
  decide +kernel

theorem test_wheel_word_premises : (∀ i, i < 8 → (0x88888800#32).toNat / 16 ^ i % 16 = min ((0xFEDCBA00#32).toNat / 16 ^ i % 16) 8) ∧
    (running id).lockstep = false ∧ (running id).locked (Reg.HYC_WHEELLO 3) = false ∧
    (∀ j, j < 8 → (running id).flag (Reg.HYC_CCTL (8 * 3 + j)) Fld.HYC_CCTL_STRICT = false) ∧
    (running id).evc.offSeen.getLsbD 1 = true ∧ ((running id).ctx 1).run = .off := by decide +kernel

/-- A frame of class `c` that is long enough to be cut. -/
def long (c : Nat) (o : Origin) : SFrame := ⟨shout ++ List.replicate 60 7, c, 0, o⟩

theorem test_preemption_length : let s := (sending (some (long 1 .bridge)) none 3 [inClass 3 .bridge]).setReg (Reg.SEAM_PPRE 2) 2
    64 * (1 + s.fld (Reg.SEAM_PPRE 2) Fld.SEAM_PPRE_ADDFRAG) - 4 + 64 ≤ (long 1 .bridge).bytes.length + 4 ∧
    (s.sport 2).wire = some (long 1 .bridge) ∧ (s.sport 2).held = none ∧ s.preempts 2 = true := by decide +kernel

/-- A frame of a telegram to no MAC address that the device knows, in class 3 of port 8. -/
def inward : State :=
  let f : SFrame := ⟨[2, 0, 0, 0, 0, 9] ++ shout.drop 6, 3, 0, .telegram⟩
  let s := bridging.setFld (Reg.SEAM_PCTL 8) Fld.SEAM_PCTL_EN 1
  s.setSport 8 { s.sport 8 with classes := (s.sport 8).classes.set! 3 [f] }

theorem test_inward_premises : inward.wf ∧ inward.flag (Reg.SEAM_PCTL 8) Fld.SEAM_PCTL_EN = true ∧ inward.gateOpen 8 3 = true ∧
    (∀ f ∈ ((inward.sport 8).classes.getD 3 []).head?, f.elig ≤ inward.fc ∧ f.cls = 3 ∧ f.origin = .telegram ∧ isGptp f.bytes = false ∧
      aafPdu f.bytes = none ∧ inward.tgFind f.bytes = none) ∧ ((inward.sport 8).classes.getD 3 []).length = 1 ∧
        inward.flag Reg.SEAM_RXDEF Fld.SEAM_RXDEF_EN = false ∧ (∀ d, d < 8 → 3 < d → (inward.sport 8).classes.getD d [] = []) := by
  refine ⟨wf_of _ (by decide +kernel), ?_⟩
  decide +kernel

theorem test_telegram_busy_premises :
    let s := (telegram 0 1).setFld Reg.SEAM_TSTAT Fld.SEAM_TSTAT_BUSY 1
    let v := { telegram 1 2 with seam := { (telegram 1 2).seam with visit := some 6 } }
    s.wf ∧ s.flag Reg.SEAM_TSTAT Fld.SEAM_TSTAT_BUSY = true ∧ (telegram 0 1).flag Reg.SEAM_TSTAT Fld.SEAM_TSTAT_BUSY = false ∧
    (telegram 0 1).seam.visit = none ∧ v.seam.visit = some 6 ∧ v.tgKind 6 = 2 ∧ bridging.seam.visit = none ∧
    Sparse.get (8192 + 3) bridging.seam.doneFc ≠ some bridging.fc := by
  refine ⟨wf_of _ (by decide +kernel), ?_⟩
  decide +kernel

theorem test_boot_stop_premises :
    let p := { booting 1 0 with ctxs := ((running (fun x => { x with lpend := 1, heldKill := true })).ctxs) }
    p.wf ∧ (p.ctx 0).lpend ≠ 0 ∧ (p.ctx 0).heldKill = true ∧ (p.ctx 0).run = .active ∧ p.sys.boot = .rom 1 ∧
    p.flag (Reg.HYC_CSTAT 0) Fld.HYC_CSTAT_EXH = false ∧ ((booting 1 0).ctx 0).lpend = 0 ∧ ((booting 1 0).ctx 0).heldKill = false := by
  refine ⟨wf_of _ (by decide +kernel), ?_⟩
  decide +kernel

theorem test_idle_premises :
    let s := { released with sys := { released.sys with clocks := 5 } }
    s.pending = [] ∧ s.seam.visit = none ∧ s.fab.ring = [] ∧ s.fab.port = [] ∧ s.seam.tcmd = none ∧ s.seam.tx = [] ∧ s.seam.waiting = [] ∧
    s.prsWaits = false ∧ (∀ n, (s.shu n).held = []) := by decide +kernel

theorem test_output_premises :
    let s := halted.setFld (Reg.DP_OCTL 2) Fld.DP_OCTL_EN 1
    s.wf ∧ s.driverOf 2 = none ∧ (s.setPipe 2 { s.pipe 2 with train := .failed }).outputSends 2 = s.outputSends 2 ∧
    (halted.flag (Reg.DP_OCTL 1) Fld.DP_OCTL_EN) = false ∧
    ((halted.setPipe 0 { halted.pipe 0 with train := .failed }).pipe 0).train = .failed := by
  refine ⟨wf_of _ (by decide +kernel), ?_⟩
  decide +kernel

/-! ### Premises of single clauses -/

theorem test_slot_premises :
    let s := running (fun x => { x with slot := true, annul := true })
    s.mayTake 0 = true ∧ (s.ctx 0).canIssue = true ∧ (s.ctx 0).annul = true ∧ instrContext (.fence 0) = some 0 ∧ (Instr.fence 0).wf = true ∧
    instrContext (.jr 0 1) = some 0 ∧ (Instr.jr 0 1).wf = true ∧ isTransfer (.jr 0 1) = true ∧ isTransfer (.fence 0) = false ∧
    (running id).ownsSlot 0 = true := by decide +kernel

theorem test_register_access_premises :
    let s := (running (fun x => x.wg 2 0x10D00000)).fetched 0
    okAnd (s.accXlate 0 .load 0x10D00000 4 []) (fun l _ => l.map (fun p => p.2) == [(0x10D00000, .dev)]) = true ∧
    okAnd (s.accXlate 0 .store 0x10D00000 4 []) (fun l _ => l.map (fun p => p.2) == [(0x10D00000, .dev)]) = true ∧
    okAnd (s.accXlate 0 .load 0x10D00000 8 []) (fun l _ => l.map (fun p => p.2) == [(0x10D00000, .dev)]) = true ∧
    okAnd (s.accXlate 0 .store 0x10D00002 4 []) (fun l _ => l.map (fun p => p.2) == [(0x10D00002, .dev)]) = true ∧
    okAnd (s.accXlate 0 .load 0x10D0003E 4 []) (fun l _ => l.length == 2) = true := by decide +kernel

theorem test_wheel_position_premises :
    let s := (running id).setQuad 0 { (running id).quad 0 with cycles := 32 }
    let y := { s.core 0 with staged := some 5, reach := 31 }
    (s.setCore 0 y).positionZero 0 31 = some 32 ∧ (s.setCore 0 { y with reach := 33 }).positionZero 0 33 = none := by decide +kernel

theorem test_locked_port_premises :
    let s := locking.setFld Reg.PSQ_OWNER Fld.PSQ_OWNER_CTX 120
    s.psqWho = .ctx 120 false ∧ s.lockedOut s.psqWho.id = true ∧ (running id).lockedOut (running id).psqWho.id = false := by decide +kernel

theorem test_boundary_premises :
    ((running (fun x => { x with lpend := 1 })).ctx 0).wait.outside = true ∧ (Wait.port).outside = false ∧
    (Wait.fill 0x1000000 0x1000000 .load false).outside = false := by decide +kernel

theorem test_shuttle_check_premises :
    ((moving 0 7 Shu.reset).xfer 2).check true = some 4 ∧
    (((moving 0 1 Shu.reset).setReg (Reg.SHU_CNT 2) 3).xfer 2).check true ≠ none := by decide +kernel

theorem test_idle_reset_invariant : ({ State.reset with fc := 1, free := 1 } : State).regular ∧ (State.reset.setFld Reg.SYS_STBY Fld.SYS_STBY_GO 1).wf := by
  refine ⟨?_, wf_of _ (by decide +kernel)⟩
  refine ⟨?_, ?_, by decide +kernel, by decide +kernel, by decide +kernel, by decide +kernel, by decide +kernel, by decide +kernel⟩
  · intro c
    have h : ({ State.reset with fc := 1, free := 1 } : State).ctx c = Context.reset := by simp [State.ctx, State.reset]
    rw [h]
    refine ⟨by decide, by decide, by decide, by decide, by decide, by decide, ?_⟩
    intro e t r ie he
    simp [Context.reset] at he
  · intro q
    have h : ({ State.reset with fc := 1, free := 1 } : State).quad q = Quad.reset := by simp [State.quad, State.reset]
    rw [h]
    exact ⟨by decide, by intro t ht; simp [Quad.reset] at ht, trivial⟩

end Sys2Proof.Tests
end

section
/-! SUPPORT. The firewall of R19: what each of its steps tests, in the spec's words, and its verdict where a step decides. -/

namespace Sys2Proof.Machine

/-! ### The tests of the steps -/

/-- A request for one aligned 32-bit word, read or written (R5, R19 step 2). -/
def Request.OneWord (r : Request) : Prop :=
  r.len = 4 ∧ r.addr % 4 = 0 ∧ (r.kind = .read ∨ ∃ d, r.kind = .write d)

/-- The address is mapped, and a register-space request keeps R5: steps 1 and 2 of R19 refuse nothing. -/
def State.Addressed (s : State) (r : Request) : Prop :=
  s.region r.addr ≠ .unmapped ∧ (s.region r.addr ≠ .devReg ∨ r.OneWord)

/-- The request breaks a fixed rule of R20, one disjunct for each. -/
def State.Barred (s : State) (r : Request) : Prop :=
  (r.who.id = 200 ∧ r.kind.isWrite = false) ∨
  (s.region r.addr = .liningStore ∧ r.who.lining = false) ∨
  (s.region r.addr = .rom ∧ (r.kind.isWrite = true ∨ r.who.id = 199 ∨ r.who.id = 200)) ∨
  (s.region r.addr = .devReg ∧ blockIndex r.addr = 4 ∧ r.kind.isWrite = true ∧ r.who.lining = false) ∨
  (s.region r.addr = .applique ∧ r.kind.isWrite = true ∧ s.appliqueOwner r.who.id = false)

/-- Steps 1 to 4 of R19 refuse nothing, and step 5 lets no Lining request pass: the firewall's regions decide. -/
def State.LeftToRegions (s : State) (r : Request) : Prop :=
  s.Addressed r ∧ s.poweredOff r.addr = false ∧ ¬ s.Barred r ∧ r.who.lining = false

/-- Firewall region `n` is enabled and its range contains address `a` (R19 step 6, R24). -/
def State.Covers (s : State) (a n : Nat) : Prop :=
  n < 32 ∧ Fld.FAB_RCTL_EN.get (s.fwReg (Reg.FAB_RCTL n)) = 1 ∧
    Fld.FAB_RBASE_BASE.get (s.fwReg (Reg.FAB_RBASE n)) ≤ a / 4096 ∧ a / 4096 ≤ Fld.FAB_RLIM_LIMIT.get (s.fwReg (Reg.FAB_RLIM n))

/-- The mask of groups that region `n` allows to write, or to read (R19 step 6). -/
def State.groupMask (s : State) (writes : Bool) (n : Nat) : Nat :=
  (if writes then Fld.FAB_RPERM_WMASK else Fld.FAB_RPERM_RMASK).get (s.fwReg (Reg.FAB_RPERM n))

/-- Steps 6 and 7 of R19: the region that decides, or the default. -/
def State.regionVerdict (s : State) (r : Request) : Verdict :=
  match s.fwRegion r.addr with
  | some n => if s.groupMask r.kind.isWrite n / 2 ^ s.fwGroup r.who.id % 2 = 1 then .allowed else .refused 3 n
  | none => if Fld.FAB_CTRL_DEFAULT.get (s.fwReg Reg.FAB_CTRL) = 1 then .refused 4 0 else .allowed

theorem Request.registerForm_iff_oneWord (r : Request) : r.registerForm = true ↔ r.OneWord := by
  obtain ⟨who, cls, kind, addr, len, coh⟩ := r
  cases kind <;> simp [Request.registerForm, Request.OneWord]

theorem State.fixedRule_iff_barred (s : State) (r : Request) : s.fixedRule r = true ↔ s.Barred r := by
  unfold State.fixedRule State.Barred
  cases s.region r.addr <;> simp [and_assoc, or_assoc]

/-- A search of the first `k` numbers finds `n` just where `n` is the least of them that passes. -/
theorem find?_range_eq_some_iff_least (k n : Nat) (p : Nat → Bool) :
    (List.range k).find? p = some n ↔ (n < k ∧ p n = true) ∧ ∀ m, m < n → ¬ (m < k ∧ p m = true) := by
  rw [List.find?_range_eq_some, List.mem_range]
  constructor
  · rintro ⟨hp, hk, hbefore⟩
    exact ⟨⟨hk, hp⟩, fun m hm ⟨_, hpm⟩ => by simpa [hpm] using hbefore m hm⟩
  · rintro ⟨⟨hk, hp⟩, hleast⟩
    exact ⟨hp, hk, fun m hm => by simpa [hm.trans hk] using hleast m hm⟩

/-- The region that decides is the lowest-numbered one that covers the address. -/
theorem State.fwRegion_eq_some_iff (s : State) (a n : Nat) :
    s.fwRegion a = some n ↔ s.Covers a n ∧ ∀ m, m < n → ¬ s.Covers a m := by
  simp only [State.fwRegion, State.Covers, find?_range_eq_some_iff_least, Bool.and_eq_true, beq_iff_eq, decide_eq_true_eq, and_assoc]

theorem State.fwRegion_eq_none_iff (s : State) (a : Nat) : s.fwRegion a = none ↔ ∀ n, ¬ s.Covers a n := by
  simp [State.fwRegion, State.Covers]

/-! ### The verdict, step by step -/

variable {s : State} {r : Request}

theorem State.firewall_of_unmapped (h : s.region r.addr = .unmapped) : s.firewall r = .refused 1 0 := by
  simp [State.firewall, h]

theorem State.firewall_of_not_oneWord (h : s.region r.addr = .devReg) (hw : ¬ r.OneWord) : s.firewall r = .refused 5 0 := by
  have hform : r.registerForm = false := by rwa [← r.registerForm_iff_oneWord, Bool.not_eq_true] at hw
  simp [State.firewall, h, hform]

theorem State.Addressed.firewall_eq (h : s.Addressed r) :
    s.firewall r =
      if s.poweredOff r.addr then .refused 6 0
      else if s.fixedRule r then .refused 2 0
      else if r.who.lining then .allowed
      else s.regionVerdict r := by
  obtain ⟨hmapped, hform⟩ := h
  have hkeeps : ¬ (s.region r.addr = .devReg ∧ r.registerForm = false) := by
    rw [← Bool.not_eq_true, r.registerForm_iff_oneWord]
    tauto
  unfold State.firewall State.regionVerdict State.groupMask
  rw [if_neg hmapped, if_neg hkeeps]
  cases r.kind.isWrite <;> rfl

theorem State.Addressed.firewall_of_poweredOff (h : s.Addressed r) (hoff : s.poweredOff r.addr = true) :
    s.firewall r = .refused 6 0 := by
  rw [h.firewall_eq, if_pos hoff]

theorem State.Addressed.firewall_of_barred (h : s.Addressed r) (hon : s.poweredOff r.addr = false) (hb : s.Barred r) :
    s.firewall r = .refused 2 0 := by
  simp [h.firewall_eq, hon, (s.fixedRule_iff_barred r).2 hb]

theorem State.Addressed.firewall_of_lining (h : s.Addressed r) (hon : s.poweredOff r.addr = false) (hb : ¬ s.Barred r)
    (hl : r.who.lining = true) : s.firewall r = .allowed := by
  rw [← s.fixedRule_iff_barred] at hb
  simp [h.firewall_eq, hon, hb, hl]

theorem State.LeftToRegions.firewall_eq (h : s.LeftToRegions r) : s.firewall r = s.regionVerdict r := by
  obtain ⟨haddr, hon, hb, hl⟩ := h
  rw [← s.fixedRule_iff_barred] at hb
  simp [haddr.firewall_eq, hon, hb, hl]

theorem State.LeftToRegions.firewall_of_covers (h : s.LeftToRegions r) {n : Nat} (hn : s.Covers r.addr n)
    (hlow : ∀ m, m < n → ¬ s.Covers r.addr m) :
    s.firewall r = if s.groupMask r.kind.isWrite n / 2 ^ s.fwGroup r.who.id % 2 = 1 then .allowed else .refused 3 n := by
  rw [h.firewall_eq, State.regionVerdict, (s.fwRegion_eq_some_iff r.addr n).2 ⟨hn, hlow⟩]

theorem State.LeftToRegions.firewall_of_not_covers (h : s.LeftToRegions r) (hnone : ∀ n, ¬ s.Covers r.addr n) :
    s.firewall r = if Fld.FAB_CTRL_DEFAULT.get (s.fwReg Reg.FAB_CTRL) = 1 then .refused 4 0 else .allowed := by
  rw [h.firewall_eq, State.regionVerdict, (s.fwRegion_eq_none_iff r.addr).2 hnone]

end Sys2Proof.Machine

namespace Sys2Proof.Proofs
open Machine

/-- Settles O26, one lemma for each step of R19. -/
theorem firewallChecksInOrder : Obligations.FirewallChecksInOrder := by
  intro s r v g who writes oneWord barred covers mask
  refine ⟨State.firewall_of_unmapped, fun hmapped => ⟨State.firewall_of_not_oneWord, fun hform => ?_⟩⟩
  have haddr : s.Addressed r := ⟨hmapped, hform⟩
  refine ⟨haddr.firewall_of_poweredOff, fun hon => ⟨haddr.firewall_of_barred hon, fun hb => ⟨haddr.firewall_of_lining hon hb, fun hl => ?_⟩⟩⟩
  have hleft : s.LeftToRegions r := ⟨haddr, hon, hb, hl⟩
  exact ⟨fun _ => hleft.firewall_of_covers, hleft.firewall_of_not_covers⟩

end Sys2Proof.Proofs
end

section
/-! SUPPORT. The numbers and the flags of the ALU group (R142, R143): the model's readings of a word as a number, in Lean's terms. -/

namespace Sys2Proof.Machine

/-! ### Signed numbers -/

theorem signed_eq_toInt_ofNat (w n : Nat) : signed w n = (BitVec.ofNat w n).toInt := by
  rw [signed, BitVec.toInt_eq_toNat_cond, BitVec.toNat_ofNat]
  rcases w with _ | w
  · simp [Nat.mod_one]
  · have hhalf : n % 2 ^ (w + 1) < 2 ^ w ↔ 2 * (n % 2 ^ (w + 1)) < 2 ^ (w + 1) := by omega
    simp only [Nat.add_sub_cancel, hhalf]

theorem fits_iff (w : Nat) (i : Int) : Fits w i = true ↔ -2 ^ (w - 1) ≤ i ∧ i < 2 ^ (w - 1) := by
  simp [Fits]

theorem overflows_eq_not_fits (w : Nat) (i : Int) : overflows w i = !Fits w i := by
  rw [Bool.eq_iff_iff]
  simp [overflows, Fits]

/-! ### The lesser and the greater of two -/

theorem boolD_slt (a b : Dword) : boolD (a.slt b) = if a.toInt < b.toInt then 1 else 0 := by
  simp [boolD, BitVec.slt_iff_toInt_lt]

theorem boolD_ult (a b : Dword) : boolD (a.ult b) = if a.toNat < b.toNat then 1 else 0 := by
  simp [boolD, BitVec.ult_iff_toNat_lt]

theorem toInt_lesser (a b : Dword) : (if a.slt b then a else b).toInt = min a.toInt b.toInt := by
  simp only [apply_ite BitVec.toInt, BitVec.slt_iff_toInt_lt, min_def_lt]

theorem toInt_greater (a b : Dword) : (if a.slt b then b else a).toInt = max a.toInt b.toInt := by
  simp only [apply_ite BitVec.toInt, BitVec.slt_iff_toInt_lt, max_def_lt]

theorem toNat_lesser (a b : Dword) : (if a.ult b then a else b).toNat = min a.toNat b.toNat := by
  simp only [apply_ite BitVec.toNat, BitVec.ult_iff_toNat_lt, min_def_lt]

theorem toNat_greater (a b : Dword) : (if a.ult b then b else a).toNat = max a.toNat b.toNat := by
  simp only [apply_ite BitVec.toNat, BitVec.ult_iff_toNat_lt, max_def_lt]

/-! ### Flags -/

theorem ofNat_mod_two_pow (w n : Nat) : BitVec.ofNat w (n % 2 ^ w) = BitVec.ofNat w n := by
  simp [← BitVec.toNat_inj]

theorem flagsOf_eq {w : Nat} (hw : 0 < w) {n : Nat} {r : BitVec w} (hr : BitVec.ofNat w n = r) (c v : Bool) (old : CFlags) :
    flagsOf w n c v old = ⟨r.msb, r == 0, c, v, old.sat⟩ := by
  subst hr
  have hn : decide (n / 2 ^ (w - 1) % 2 = 1) = (BitVec.ofNat w n).msb := by
    rw [BitVec.msb_eq_getLsbD_last, BitVec.getLsbD_ofNat, Nat.testBit_eq_decide_div_mod_eq, decide_eq_true (Nat.sub_lt hw one_pos),
      Bool.true_and]
  have hz : decide (n % 2 ^ w = 0) = (BitVec.ofNat w n == 0) := by
    rw [Bool.eq_iff_iff]
    simp [← BitVec.toNat_inj]
  rw [flagsOf, hn, hz]

theorem addFlags_eq {w : Nat} (hw : 0 < w) (m n k : Nat) (old : CFlags) :
    addFlags w m n k old =
      let a := BitVec.ofNat w m
      let b := BitVec.ofNat w n
      let r := a + b + BitVec.ofNat w k
      ⟨r.msb, r == 0, 2 ^ w ≤ a.toNat + b.toNat + k, !Fits w (a.toInt + b.toInt + k), old.sat⟩ := by
  have hr : BitVec.ofNat w (m % 2 ^ w + n % 2 ^ w + k) = BitVec.ofNat w m + BitVec.ofNat w n + BitVec.ofNat w k := by
    rw [BitVec.ofNat_add, BitVec.ofNat_add, ofNat_mod_two_pow, ofNat_mod_two_pow]
  simp only [addFlags, flagsOf_eq hw hr, overflows_eq_not_fits, signed_eq_toInt_ofNat, BitVec.toNat_ofNat]

theorem subFlags_eq {w : Nat} (hw : 0 < w) (m n k : Nat) (hk : k < 2 ^ w) (old : CFlags) :
    subFlags w m n k old =
      let a := BitVec.ofNat w m
      let b := BitVec.ofNat w n
      let r := a - b - BitVec.ofNat w k
      ⟨r.msb, r == 0, a.toNat < b.toNat + k, !Fits w (a.toInt - b.toInt - k), old.sat⟩ := by
  have hn : n % 2 ^ w < 2 ^ w := Nat.mod_lt n (by positivity)
  have hm : BitVec.ofNat w (m % 2 ^ w + 2 ^ w + 2 ^ w) = BitVec.ofNat w m := by simp [← BitVec.toNat_inj]
  have hr : BitVec.ofNat w (m % 2 ^ w + 2 ^ w + 2 ^ w - n % 2 ^ w - k) = BitVec.ofNat w m - BitVec.ofNat w n - BitVec.ofNat w k := by
    rw [← BitVec.ofNat_sub_ofNat_of_le _ k hk (by omega), ← BitVec.ofNat_sub_ofNat_of_le _ _ hn (by omega), hm, ofNat_mod_two_pow]
  simp only [subFlags, flagsOf_eq hw hr, overflows_eq_not_fits, signed_eq_toInt_ofNat, BitVec.toNat_ofNat]

theorem logicFlags_eq (r : Dword) (old : CFlags) : logicFlags r old = ⟨r.msb, r == 0, false, false, old.sat⟩ :=
  flagsOf_eq (by decide) (by simp) false false old

end Sys2Proof.Machine
end

section
/-! SUPPORT. The bits and bytes that the ALU group counts, extends and reverses (R142). -/

namespace Sys2Proof.Machine

/-! ### Zero extension -/

theorem zeroExtend_truncate (a : Dword) (k : Nat) : (a.truncate k).zeroExtend 64 = a &&& BitVec.ofNat 64 (2 ^ k - 1) := by
  refine BitVec.eq_of_getLsbD_eq fun i hi => ?_
  simp only [BitVec.truncate, BitVec.zeroExtend, BitVec.getLsbD_setWidth, BitVec.getLsbD_and, BitVec.getLsbD_ofNat,
    Nat.testBit_two_pow_sub_one, hi, decide_true, Bool.true_and, Bool.and_comm]

/-! ### Counts -/

theorem runLength_eq_findIdx (a : Dword) (l : List Nat) : runLength a l = l.findIdx (fun i => a.getLsbD i) := by
  induction l with
  | nil => rfl
  | cons i l ih => cases h : a.getLsbD i <;> simp [runLength, List.findIdx_cons, h, ih]

theorem toNat_count {n : Nat} (h : n ≤ 64) : (BitVec.ofNat 64 n).toNat = n :=
  (BitVec.toNat_ofNat n 64).trans (Nat.mod_eq_of_lt (by omega))

/-- CLZ (R142): the count lies in 0 to 64, and the highest bit that is 1 stands right below the leading zeros. -/
theorem leadingZeros (a : Dword) :
    let v := BitVec.ofNat 64 (runLength a (List.range 64).reverse)
    v.toNat ≤ 64 ∧ a.toNat < 2 ^ (64 - v.toNat) ∧ (a ≠ 0 → 2 ^ (63 - v.toNat) ≤ a.toNat) := by
  intro v
  set n := (List.range 64).reverse.findIdx (fun i => a.getLsbD i) with hn
  have hle : n ≤ 64 := by simpa using (List.findIdx_le_length : n ≤ (List.range 64).reverse.length)
  have hv : v.toNat = n := by rw [← toNat_count hle, hn, ← runLength_eq_findIdx]
  have hzero : ∀ i, i < n → a.getLsbD (63 - i) = false := fun i hi => by
    simpa using List.not_of_lt_findIdx (p := fun i => a.getLsbD i) (xs := (List.range 64).reverse) hi
  have hlt : a.toNat < 2 ^ (64 - n) := Nat.lt_pow_two_of_testBit _ fun i hi => by
    by_cases h64 : i < 64
    · have := hzero (63 - i) (by omega)
      rwa [show 63 - (63 - i) = i by omega] at this
    · exact BitVec.getLsbD_of_ge a i (by omega)
  rw [hv]
  refine ⟨hle, hlt, fun ha => Nat.ge_two_pow_of_testBit ?_⟩
  have hlen : n < (List.range 64).reverse.length := by
    by_contra hge
    have : n = 64 := by simp at hge; omega
    rw [this] at hlt
    exact ha (BitVec.eq_of_toNat_eq (by simpa using hlt))
  change a.getLsbD (63 - n) = true
  simpa [hn] using List.findIdx_getElem (p := fun i => a.getLsbD i) (w := hlen)

/-- CTZ (R142): the count lies in 0 to 64, the bits below it are 0, and the bit at it is 1 unless all are 0. -/
theorem trailingZeros (a : Dword) :
    let v := BitVec.ofNat 64 (runLength a (List.range 64))
    v.toNat ≤ 64 ∧ (a = 0 → v.toNat = 64) ∧ (a ≠ 0 → a.getLsbD v.toNat = true) ∧ ∀ i, i < v.toNat → a.getLsbD i = false := by
  intro v
  set n := (List.range 64).findIdx (fun i => a.getLsbD i) with hn
  have hle : n ≤ 64 := by simpa using (List.findIdx_le_length : n ≤ (List.range 64).length)
  have hv : v.toNat = n := by rw [← toNat_count hle, hn, ← runLength_eq_findIdx]
  have hzero : ∀ i, i < n → a.getLsbD i = false := fun i hi => by
    simpa using List.not_of_lt_findIdx (p := fun i => a.getLsbD i) (xs := List.range 64) hi
  have hone (hlt : n < 64) : a.getLsbD n = true := by
    have hlen : n < (List.range 64).length := by simpa using hlt
    simpa [hn] using List.findIdx_getElem (p := fun i => a.getLsbD i) (w := hlen)
  rw [hv]
  refine ⟨hle, fun ha => ?_, fun ha => hone ?_, hzero⟩
  · by_contra hne
    simpa [ha] using hone (by omega)
  · by_contra hge
    exact ha (BitVec.eq_of_getLsbD_eq fun i hi => by simpa using hzero i (by omega))

theorem popCount (a : Dword) :
    (BitVec.ofNat 64 ((List.range 64).countP (fun i => a.getLsbD i))).toNat = (List.range 64).countP (fun i => a.getLsbD i) :=
  toNat_count (by simpa using List.countP_le_length (p := fun i => a.getLsbD i) (l := List.range 64))

/-! ### Bytes in reverse -/

@[simp] theorem length_leBytes (n v : Nat) : (leBytes n v).length = n := by
  induction n generalizing v with
  | zero => rfl
  | succ n ih => simp [leBytes, ih]

theorem getLsbD_getElem_leBytes {n i j : Nat} (v : Nat) (hi : i < n) (hj : j < 8) :
    ((leBytes n v)[i]'(by simpa using hi)).getLsbD j = v.testBit (8 * i + j) := by
  induction n generalizing v i with
  | zero => omega
  | succ n ih =>
    cases i with
    | zero => simp [leBytes, BitVec.getLsbD_ofNat, -BitVec.getLsbD_eq_getElem, hj]
    | succ i =>
      have h256 : v / 256 = v >>> 8 := (Nat.shiftRight_eq_div_pow v 8).symm
      simp only [leBytes, List.getElem_cons_succ]
      rw [ih (v / 256) (by omega), h256, Nat.testBit_shiftRight]
      congr 1
      omega

/-- Byte `i` of a number made from bytes, the most significant first. -/
theorem testBit_beNat_reverse {l : List Byte} {i j : Nat} (hi : i < l.length) (hj : j < 8) :
    (beNat l.reverse).testBit (8 * i + j) = l[i].getLsbD j := by
  induction l generalizing i with
  | nil => simp at hi
  | cons b l ih =>
    have happ : beNat (b :: l).reverse = 2 ^ 8 * beNat l.reverse + b.toNat := by simp [beNat, Nat.mul_comm]
    rw [happ, Nat.testBit_two_pow_mul_add _ b.isLt]
    cases i with
    | zero => simp [hj]; rfl
    | succ i =>
      rw [if_neg (by omega), show 8 * (i + 1) + j - 8 = 8 * i + j by omega, ih (by simpa using hi)]
      rfl

/-- BSWAP (R142). -/
theorem getLsbD_reversedBytes (a : Dword) {i j : Nat} (hi : i < 8) (hj : j < 8) :
    (BitVec.ofNat 64 (beNat (leBytes 8 a.toNat))).getLsbD (8 * i + j) = a.getLsbD (8 * (7 - i) + j) := by
  have hlen : i < (leBytes 8 a.toNat).reverse.length := by simpa using hi
  rw [BitVec.getLsbD_ofNat, ← List.reverse_reverse (leBytes 8 a.toNat), testBit_beNat_reverse hlen hj, List.getElem_reverse]
  simp only [length_leBytes]
  rw [getLsbD_getElem_leBytes _ (by omega) hj, decide_eq_true (by omega), Bool.true_and]
  rfl

end Sys2Proof.Machine
end

section
/-! SUPPORT. What an instruction that computes answers, said once for those that keep the flags and once for those with an S field. -/

namespace Sys2Proof.Machine

section
variable {s : State} {c : Ctx} {i : Instr} {cost : Nat} {rd : Gpr}

/-- An instruction that computes completes with the value that it gives. -/
theorem State.compute_gives {f : Context → Dword} {v : Dword} (h : s.issues c .plain) (hi : exec i s = .next (s.compute c cost rd f))
    (hv : f (s.ctx c) = v) : ∃ t, exec i s = .next t ∧ Computed s t c rd v (s.ctx c).flags cost :=
  ⟨_, hi, hv ▸ s.compute_computed c cost rd f h⟩

/-- An instruction that computes completes with a value that has the property of the one that it gives. -/
theorem State.compute_gives_with {f : Context → Dword} {P : Dword → Prop} (h : s.issues c .plain)
    (hi : exec i s = .next (s.compute c cost rd f)) (hp : P (f (s.ctx c))) :
    ∃ t v, exec i s = .next t ∧ Computed s t c rd v (s.ctx c).flags cost ∧ P v :=
  ⟨_, _, hi, s.compute_computed c cost rd f h, hp⟩

/-- An instruction with an S field completes at one slot with its value and, where S = 1, its flags. -/
theorem State.alu_gives {sf : Bool} {rs1 rs2 : Gpr} {f : Dword → Dword → Nat → Dword} {fl : Dword → Dword → Nat → CFlags → CFlags}
    {v : Dword} {n z cy o : Bool} (h : s.issues c .plain) (hi : exec i s = .next (s.alu c sf rd rs1 rs2 f fl))
    (hv : f ((s.ctx c).rg rs1) ((s.ctx c).rg rs2) (bit (s.ctx c).flags.c) = v)
    (hfl : fl ((s.ctx c).rg rs1) ((s.ctx c).rg rs2) (bit (s.ctx c).flags.c) (s.ctx c).flags = ⟨n, z, cy, o, (s.ctx c).flags.sat⟩) :
    ∃ t, exec i s = .next t ∧ Computed s t c rd v (flagsWith sf (s.ctx c).flags n z cy o) 1 := by
  have hc := s.computeF_computed c 1 rd (fun x => f (x.rg rs1) (x.rg rs2) (bit x.flags.c))
    (fun x => if sf then fl (x.rg rs1) (x.rg rs2) (bit x.flags.c) x.flags else x.flags) h
  rw [hv, hfl] at hc
  exact ⟨_, hi, hc⟩

/-- A logical instruction completes at one slot with its value and, where S = 1, with N and Z from it and no C and V. -/
theorem State.aluLogic_gives {sf : Bool} {rs1 rs2 : Gpr} {f : Dword → Dword → Dword} {v : Dword} (h : s.issues c .plain)
    (hi : exec i s = .next (s.aluLogic c sf rd rs1 rs2 f)) (hv : f ((s.ctx c).rg rs1) ((s.ctx c).rg rs2) = v) :
    ∃ t, exec i s = .next t ∧ Computed s t c rd v (flagsWith sf (s.ctx c).flags v.msb (v == 0) false false) 1 :=
  State.alu_gives h hi hv (hv ▸ logicFlags_eq _ _)

end

theorem bit_lt_two_pow (b : Bool) : bit b < 2 ^ 64 := by cases b <;> decide

/-- The flags of ADD and ADDW: without a carry in. -/
theorem addFlags_zero {w : Nat} (hw : 0 < w) (m n : Nat) (old : CFlags) :
    addFlags w m n 0 old =
      let a := BitVec.ofNat w m
      let b := BitVec.ofNat w n
      ⟨(a + b).msb, a + b == 0, 2 ^ w ≤ a.toNat + b.toNat, !Fits w (a.toInt + b.toInt), old.sat⟩ := by
  simpa using addFlags_eq hw m n 0 old

/-- The flags of SUB and SUBW: without a borrow in. -/
theorem subFlags_zero {w : Nat} (hw : 0 < w) (m n : Nat) (old : CFlags) :
    subFlags w m n 0 old =
      let a := BitVec.ofNat w m
      let b := BitVec.ofNat w n
      ⟨(a - b).msb, a - b == 0, a.toNat < b.toNat, !Fits w (a.toInt - b.toInt), old.sat⟩ := by
  simpa using subFlags_eq hw m n 0 (by positivity) old

end Sys2Proof.Machine

namespace Sys2Proof.Proofs
open Machine

/-- Settles O1, group by group of R142. -/
theorem aluResultsAndFlags : Obligations.AluResultsAndFlags := by
  refine ⟨?sums, ?logic, ?choices, ?bits⟩
  case sums =>
    intro s c sf rd rs1 rs2 h x a b k aw bw
    have hadd := addFlags_eq (w := 64) (by decide) a.toNat b.toNat k x.flags
    have hsub := subFlags_eq (w := 64) (by decide) a.toNat b.toNat k (bit_lt_two_pow _) x.flags
    have hadd0 := addFlags_zero (w := 64) (by decide) a.toNat b.toNat x.flags
    have hsub0 := subFlags_zero (w := 64) (by decide) a.toNat b.toNat x.flags
    rw [BitVec.ofNat_toNat, BitVec.ofNat_toNat, BitVec.setWidth_eq, BitVec.setWidth_eq] at hadd hsub hadd0 hsub0
    have haddw := addFlags_zero (w := 32) (by decide) a.toNat b.toNat x.flags
    have hsubw := subFlags_zero (w := 32) (by decide) a.toNat b.toNat x.flags
    rw [BitVec.ofNat_toNat, BitVec.ofNat_toNat] at haddw hsubw
    exact ⟨State.alu_gives h rfl rfl hadd0, State.alu_gives h rfl rfl hsub0, State.alu_gives h rfl rfl hadd,
      State.alu_gives h rfl rfl hsub, State.alu_gives h rfl rfl haddw, State.alu_gives h rfl rfl hsubw⟩
  case logic =>
    intro s c sf rd rs1 rs2 h x a b fl
    exact ⟨State.aluLogic_gives h rfl rfl, State.aluLogic_gives h rfl rfl, State.aluLogic_gives h rfl rfl,
      State.aluLogic_gives h rfl rfl, State.aluLogic_gives h rfl rfl⟩
  case choices =>
    intro s c cond rd rs1 rs2 h x a b f taken
    have hcond : condHolds cond f = taken := by
      unfold condHolds taken
      split <;> simp [*, bne, beq_eq_decide]
    exact ⟨State.compute_gives h rfl (boolD_slt a b), State.compute_gives h rfl (boolD_ult a b),
      State.compute_gives_with h rfl (toInt_lesser a b), State.compute_gives_with h rfl (toInt_greater a b),
      State.compute_gives_with h rfl (toNat_lesser a b), State.compute_gives_with h rfl (toNat_greater a b),
      State.compute_gives h rfl (by rw [← hcond])⟩
  case bits =>
    intro s c rd rs1 h x a f
    exact ⟨State.compute_gives h rfl rfl, State.compute_gives h rfl rfl, State.compute_gives h rfl rfl,
      State.compute_gives h rfl (zeroExtend_truncate a 8), State.compute_gives h rfl (zeroExtend_truncate a 16),
      State.compute_gives h rfl (zeroExtend_truncate a 32),
      State.compute_gives_with h rfl (leadingZeros a), State.compute_gives_with h rfl (trailingZeros a),
      State.compute_gives_with h rfl (popCount a), State.compute_gives_with h rfl fun i j => getLsbD_reversedBytes a⟩

end Sys2Proof.Proofs
end

section
/-! SUPPORT. Shifts, multiplication and division (R133, R144 to R146): the model's values in the terms of the spec. -/

namespace Sys2Proof.Machine

/-! ### Shifts -/

theorem uimm_eq_mul (i : BitVec 21) : uimm i = i.signExtend 64 * 2 ^ 11 := by
  rw [uimm, BitVec.shiftLeft_eq_mul_twoPow]
  rfl

theorem toInt_sshiftRight_eq_div (a : Dword) (n : Nat) : (a.sshiftRight n).toInt = a.toInt / 2 ^ n := by
  rw [BitVec.toInt_sshiftRight, Int.shiftRight_eq_div_pow]
  norm_cast

theorem toNat_ushiftRight_eq_div (a : Dword) (n : Nat) : (a >>> n).toNat = a.toNat / 2 ^ n := by
  rw [BitVec.toNat_ushiftRight, Nat.shiftRight_eq_div_pow]

theorem getLsbD_rotateRight_eq_mod (a : Dword) {n i : Nat} (hn : n < 64) (hi : i < 64) :
    (a.rotateRight n).getLsbD i = a.getLsbD ((i + n) % 64) := by
  rw [BitVec.getLsbD_rotateRight, Nat.mod_eq_of_lt hn]
  by_cases h : i < 64 - n
  · rw [decide_eq_true h, cond_true, Nat.mod_eq_of_lt (by omega), Nat.add_comm]
  · rw [decide_eq_false h, cond_false, decide_eq_true hi, Bool.true_and, Nat.mod_eq_sub_mod (by omega), Nat.mod_eq_of_lt (by omega)]
    congr 1
    omega

/-! ### Signed results -/

theorem fits_toInt {w : Nat} (v : BitVec w) : Fits w v.toInt = true :=
  (fits_iff w v.toInt).2 ⟨BitVec.le_toInt v, BitVec.toInt_lt⟩

theorem toInt_ofInt_of_fits {w : Nat} (hw : 0 < w) {i : Int} (h : Fits w i = true) : (BitVec.ofInt w i).toInt = i := by
  obtain ⟨hlo, hhi⟩ := (fits_iff w i).1 h
  exact BitVec.toInt_ofInt_eq_self hw hlo hhi

theorem toInt_resultD_64 {i : Int} (h : Fits 64 i = true) : (resultD 64 i).toInt = i :=
  toInt_ofInt_of_fits (by decide) h

theorem toInt_resultD_32 {i : Int} (h : Fits 32 i = true) : (resultD 32 i).toInt = i :=
  (BitVec.toInt_signExtend_of_le (by decide)).trans (toInt_ofInt_of_fits (by decide) h)

theorem resultD_64_toNat (v : Dword) : resultD 64 (v.toNat : Int) = v :=
  (BitVec.ofInt_natCast 64 v.toNat).trans (by simp)

theorem resultD_32_toNat (v : Word) : resultD 32 (v.toNat : Int) = v.signExtend 64 :=
  congrArg (BitVec.signExtend 64) ((BitVec.ofInt_natCast 32 v.toNat).trans (by simp))

/-! ### Multiplication -/

/-- The high half of a signed product: with the low half it is the product (R145). -/
theorem toInt_highHalf {p : Int} (h : Fits 64 (p / 2 ^ 64) = true) {low : Dword} (hlow : BitVec.ofInt 64 p = low) :
    (BitVec.ofInt 64 (p / 2 ^ 64)).toInt * 2 ^ 64 + low.toNat = p := by
  rw [toInt_ofInt_of_fits (by decide) h, ← hlow, BitVec.toNat_ofInt]
  omega

theorem fits_highHalf_signed (a b : Dword) : Fits 64 (a.toInt * b.toInt / 2 ^ 64) = true := by
  have hlo := BitVec.le_toInt_mul_toInt (x := a) (y := b)
  have hhi := BitVec.toInt_mul_toInt_le (x := a) (y := b)
  rw [fits_iff]
  omega

theorem fits_highHalf_mixed (a b : Dword) : Fits 64 (a.toInt * (b.toNat : Int) / 2 ^ 64) = true := by
  have hb := b.isLt
  have hlo := BitVec.le_toInt a
  have hhi := BitVec.toInt_lt (x := a)
  rw [fits_iff]
  constructor
  · rw [Int.le_ediv_iff_mul_le (by decide)]
    nlinarith
  · rw [Int.ediv_lt_iff_lt_mul (by decide)]
    nlinarith

theorem ofInt_mul_toInt (a b : Dword) : BitVec.ofInt 64 (a.toInt * b.toInt) = a * b := by
  rw [BitVec.ofInt_mul, BitVec.ofInt_toInt, BitVec.ofInt_toInt]

theorem ofInt_mul_toNat (a b : Dword) : BitVec.ofInt 64 (a.toInt * (b.toNat : Int)) = a * b := by
  rw [BitVec.ofInt_mul, BitVec.ofInt_toInt, BitVec.ofInt_natCast, BitVec.ofNat_toNat, BitVec.setWidth_eq]

theorem toNat_highHalf (a b : Dword) :
    (BitVec.ofNat 64 (a.toNat * b.toNat / 2 ^ 64)).toNat * 2 ^ 64 + (a * b).toNat = a.toNat * b.toNat := by
  have hlt : a.toNat * b.toNat / 2 ^ 64 < 2 ^ 64 :=
    Nat.div_lt_of_lt_mul (Nat.mul_lt_mul'' a.isLt b.isLt)
  rw [BitVec.toNat_ofNat, Nat.mod_eq_of_lt hlt, BitVec.toNat_mul]
  omega

/-! ### Division -/

/-- The signed quotient in the spec's words (R145), of the low `w` bits of two registers. -/
theorem quotient_signed (w : Nat) (a b : Dword) :
    quotient w true a.toNat b.toNat =
      let p := (a.setWidth w).toInt
      let q := (b.setWidth w).toInt
      if q = 0 then 0 else if p = -2 ^ (w - 1) ∧ q = -1 then 2 ^ (w - 1) - 1 else p.tdiv q := by
  simp [quotient, signed_eq_toInt_ofNat]

/-- The signed remainder in the spec's words (R145). -/
theorem remainder_signed (w : Nat) (a b : Dword) :
    remainder w true a.toNat b.toNat =
      let p := (a.setWidth w).toInt
      let q := (b.setWidth w).toInt
      if q = 0 then p else if p = -2 ^ (w - 1) ∧ q = -1 then 0 else p.tmod q := by
  simp [remainder, signed_eq_toInt_ofNat]

theorem quotient_unsigned (w : Nat) (a b : Dword) :
    quotient w false a.toNat b.toNat = ((a.setWidth w / b.setWidth w).toNat : Int) := by
  rw [BitVec.toNat_udiv, BitVec.toNat_setWidth, BitVec.toNat_setWidth, Int.ofNat_tdiv]
  simp only [quotient, Bool.false_and, Bool.false_eq_true, if_false, ite_eq_right_iff]
  intro hzero
  rw [hzero, Int.tdiv_zero]

theorem remainder_unsigned (w : Nat) (a b : Dword) :
    remainder w false a.toNat b.toNat = ((a.setWidth w % b.setWidth w).toNat : Int) := by
  rw [BitVec.toNat_umod, BitVec.toNat_setWidth, BitVec.toNat_setWidth, Int.ofNat_tmod]
  simp only [remainder, Bool.false_and, Bool.false_eq_true, if_false, ite_eq_right_iff]
  intro hzero
  rw [hzero, Int.tmod_zero]

/-- The only signed quotient that does not fit is the least number divided by −1. -/
theorem fits_tdiv {w : Nat} (hw : 0 < w) (a b : BitVec w) (h : ¬ (a.toInt = -2 ^ (w - 1) ∧ b.toInt = -1)) :
    Fits w (a.toInt.tdiv b.toInt) = true := by
  have hne : a ≠ BitVec.intMin w ∨ b ≠ -1#w := by
    rw [← not_and_or]
    rintro ⟨rfl, rfl⟩
    refine h ⟨?_, by simp [BitVec.neg_one_eq_allOnes, BitVec.toInt_allOnes, hw]⟩
    rw [BitVec.toInt_intMin, Nat.mod_eq_of_lt (Nat.pow_lt_pow_right one_lt_two (by omega))]
    norm_cast
  rw [← BitVec.toInt_sdiv_of_ne_or_ne a b hne]
  exact fits_toInt _

theorem fits_quotient_signed {w : Nat} (hw : 0 < w) (a b : Dword) : Fits w (quotient w true a.toNat b.toNat) = true := by
  rw [quotient_signed]
  dsimp only
  split_ifs with hzero hleast
  · simp [Fits]
  · have hpos : (0 : Int) < 2 ^ (w - 1) := by positivity
    rw [fits_iff]
    omega
  · exact fits_tdiv hw _ _ hleast

theorem fits_remainder_signed (w : Nat) (a b : Dword) : Fits w (remainder w true a.toNat b.toNat) = true := by
  rw [remainder_signed]
  dsimp only
  split_ifs
  · exact fits_toInt _
  · simp [Fits]
  · rw [← BitVec.toInt_srem]
    exact fits_toInt _

end Sys2Proof.Machine

namespace Sys2Proof.Proofs
open Machine

/-- Settles O2, group by group: the immediate instructions (R144), the shifts (R146), the multiplications and the divisions (R145). -/
theorem immediateShiftAndMultiplyResults : Obligations.ImmediateShiftAndMultiplyResults := by
  refine ⟨?immediates, ?shifts, ?products, ?quotients⟩
  case immediates =>
    intro s c rd rs1 imm imm21 h x a f sx zx upper
    have hupper : uimm imm21 = upper := uimm_eq_mul imm21
    exact ⟨State.compute_gives h rfl rfl, State.compute_gives h rfl rfl, State.compute_gives h rfl rfl, State.compute_gives h rfl rfl,
      State.compute_gives h rfl (boolD_slt a sx), State.compute_gives h rfl (boolD_ult a sx), State.compute_gives h rfl hupper,
      State.compute_gives h rfl (congrArg (x.pc.zeroExtend 64 + ·) hupper)⟩
  case shifts =>
    intro s c rd rs1 m h x a w f amount n k
    have hn : m.value x 64 = n := by cases m <;> rfl
    have hk : m.value x 32 = k := by cases m <;> rfl
    have hlt : n < 64 := Nat.mod_lt amount (by decide)
    rw [← hn] at hlt ⊢
    rw [← hk]
    exact ⟨State.compute_gives h rfl rfl, State.compute_gives_with h rfl (toNat_ushiftRight_eq_div a _),
      State.compute_gives_with h rfl (toInt_sshiftRight_eq_div a _),
      State.compute_gives_with h rfl fun i => getLsbD_rotateRight_eq_mod a hlt,
      fun _ => State.compute_gives h rfl rfl, fun _ => State.compute_gives h rfl rfl, fun _ => State.compute_gives h rfl rfl⟩
  case products =>
    intro s c rd rs1 rs2 h x a b f
    have hlow : BitVec.ofNat 64 (a.toNat * b.toNat) = a * b := by simp [BitVec.ofNat_mul]
    exact ⟨State.compute_gives h rfl hlow,
      State.compute_gives_with h rfl (toInt_highHalf (fits_highHalf_signed a b) (ofInt_mul_toInt a b)),
      State.compute_gives_with h rfl (toNat_highHalf a b),
      State.compute_gives_with h rfl (toInt_highHalf (fits_highHalf_mixed a b) (ofInt_mul_toNat a b)),
      State.compute_gives h rfl rfl⟩
  case quotients =>
    intro s c rd rs1 rs2 h x a b aw bw f quo rmd
    have hquo : quotient 64 true a.toNat b.toNat = quo 64 a.toInt b.toInt := by
      rw [quotient_signed, BitVec.setWidth_eq, BitVec.setWidth_eq]
    have hrmd : remainder 64 true a.toNat b.toNat = rmd 64 a.toInt b.toInt := by
      rw [remainder_signed, BitVec.setWidth_eq, BitVec.setWidth_eq]
    have hquow : quotient 32 true a.toNat b.toNat = quo 32 aw.toInt bw.toInt := quotient_signed 32 a b
    have hrmdw : remainder 32 true a.toNat b.toNat = rmd 32 aw.toInt bw.toInt := remainder_signed 32 a b
    have hquou : resultD 64 (quotient 64 false a.toNat b.toNat) = a / b := by
      rw [quotient_unsigned, resultD_64_toNat, BitVec.setWidth_eq, BitVec.setWidth_eq]
    have hrmdu : resultD 64 (remainder 64 false a.toNat b.toNat) = a % b := by
      rw [remainder_unsigned, resultD_64_toNat, BitVec.setWidth_eq, BitVec.setWidth_eq]
    have hquouw : resultD 32 (quotient 32 false a.toNat b.toNat) = (aw / bw).signExtend 64 := by
      rw [quotient_unsigned, resultD_32_toNat]
    have hrmduw : resultD 32 (remainder 32 false a.toNat b.toNat) = (aw % bw).signExtend 64 := by
      rw [remainder_unsigned, resultD_32_toNat]
    exact ⟨State.compute_gives_with h rfl ((toInt_resultD_64 (fits_quotient_signed (by decide) _ _)).trans hquo),
      State.compute_gives_with h rfl (by rw [hquou, BitVec.toNat_udiv]),
      State.compute_gives_with h rfl ((toInt_resultD_64 (fits_remainder_signed _ _ _)).trans hrmd),
      State.compute_gives_with h rfl (by rw [hrmdu, BitVec.toNat_umod]),
      State.compute_gives_with h rfl ((toInt_resultD_32 (fits_quotient_signed (by decide) _ _)).trans hquow),
      State.compute_gives h rfl hquouw,
      State.compute_gives_with h rfl ((toInt_resultD_32 (fits_remainder_signed _ _ _)).trans hrmdw),
      State.compute_gives h rfl hrmduw⟩

end Sys2Proof.Proofs
end

section
/-! SUPPORT. Bit fields of a word: what a field holds after a field has been replaced. -/

namespace Sys2Proof.Machine

theorem Fld.testBit_get (f : Fld) (w : Word) (i : Nat) : (f.get w).testBit i = (decide (i < f.len) && w.getLsbD (f.lo + i)) := by
  rw [Fld.get, Nat.testBit_mod_two_pow, Nat.testBit_div_two_pow, Nat.add_comm]
  rfl

theorem Fld.getLsbD_put (f : Fld) (hf : f.lo + f.len ≤ 32) (v : Nat) (w : Word) (i : Nat) :
    (f.put v w).getLsbD i = if f.lo ≤ i ∧ i < f.lo + f.len then v.testBit (i - f.lo) else w.getLsbD i := by
  have hsplit : w.toNat % 2 ^ f.lo + v % 2 ^ f.len * 2 ^ f.lo + w.toNat / 2 ^ (f.lo + f.len) * 2 ^ (f.lo + f.len) =
      2 ^ f.lo * (2 ^ f.len * (w.toNat / 2 ^ (f.lo + f.len)) + v % 2 ^ f.len) + w.toNat % 2 ^ f.lo := by ring
  have hw : 32 ≤ i → w.toNat.testBit i = false := w.getLsbD_of_ge i
  rw [Fld.put, BitVec.getLsbD_ofNat, hsplit, Nat.testBit_two_pow_mul_add _ (Nat.mod_lt _ (Nat.two_pow_pos _)),
    Nat.testBit_two_pow_mul_add _ (Nat.mod_lt _ (Nat.two_pow_pos _)), Nat.testBit_mod_two_pow, Nat.testBit_mod_two_pow,
    Nat.testBit_div_two_pow, BitVec.getLsbD]
  by_cases hlo : i < f.lo
  · simp [hlo, show ¬ f.lo ≤ i by omega, show i < 32 by omega]
  by_cases hhi : i < f.lo + f.len
  · simp [hlo, hhi, show i - f.lo < f.len by omega, show f.lo ≤ i by omega, show i < 32 by omega]
  · simp only [hlo, hhi, show ¬ i - f.lo < f.len by omega, show i - f.lo - f.len + (f.lo + f.len) = i by omega, and_false, if_false]
    by_cases h32 : i < 32
    · simp [h32]
    · simp [h32, hw (by omega)]

theorem Fld.get_put (f : Fld) (hf : f.lo + f.len ≤ 32) {v : Nat} (hv : v < 2 ^ f.len) (w : Word) : f.get (f.put v w) = v := by
  refine Nat.eq_of_testBit_eq fun i => ?_
  rw [Fld.testBit_get, Fld.getLsbD_put f hf]
  by_cases hi : i < f.len
  · simp [hi]
  · simp [hi, Nat.testBit_eq_false_of_lt (hv.trans_le (Nat.pow_le_pow_right two_pos (Nat.le_of_not_lt hi)))]

/-- Replacing a field leaves every field apart from it. -/
theorem Fld.get_put_of_apart {f g : Fld} (hf : f.lo + f.len ≤ 32) (h : f.lo + f.len ≤ g.lo ∨ g.lo + g.len ≤ f.lo) (v : Nat) (w : Word) :
    g.get (f.put v w) = g.get w := by
  refine Nat.eq_of_testBit_eq fun i => ?_
  rw [Fld.testBit_get, Fld.testBit_get, Fld.getLsbD_put f hf]
  by_cases hi : i < g.len
  · rw [if_neg (by omega)]
  · simp [hi]

theorem Fld.put_put (f : Fld) (hf : f.lo + f.len ≤ 32) (u v : Nat) (w : Word) : f.put v (f.put u w) = f.put v w := by
  refine BitVec.eq_of_getLsbD_eq fun i _ => ?_
  simp only [Fld.getLsbD_put f hf]
  split <;> rfl

theorem Fld.put_of_get_eq {f : Fld} (hf : f.lo + f.len ≤ 32) {v : Nat} {w : Word} (h : f.get w = v) : f.put v w = w := by
  refine BitVec.eq_of_getLsbD_eq fun i _ => ?_
  rw [Fld.getLsbD_put f hf, ← h, Fld.testBit_get]
  split
  · rw [decide_eq_true (by omega), Bool.true_and]
    congr 1
    omega
  · rfl

theorem State.flag_eq_false_iff (s : State) (a : Nat) (f : Fld) : s.flag a f = false ↔ f.get (s.reg a) = 0 := by
  simp [State.flag, State.fld]

/-- A one-bit field that is set holds 1. -/
theorem State.get_eq_one_of_flag {s : State} {a : Nat} {f : Fld} (hf : f.len = 1) (h : s.flag a f = true) : f.get (s.reg a) = 1 := by
  have hlt := Fld.get_lt f (s.reg a)
  rw [hf] at hlt
  have hne : f.get (s.reg a) ≠ 0 := by simpa [State.flag, State.fld] using h
  omega

end Sys2Proof.Machine
end

section
/-! SUPPORT. The sources that a bit of EVC_SSTATn marks, and the event presented to a context (R241, R242). -/

namespace Sys2Proof.Machine

/-! ### The marked sources -/

theorem RegDef.bounds_of_holds {d : RegDef} {a : Nat} (hs : 0 < d.s1) (h : d.holds a = true) : d.base ≤ a ∧ a - d.base < d.n1 * d.s1 := by
  simp only [RegDef.holds, Bool.and_eq_true, decide_eq_true_eq] at h
  obtain ⟨hbase, ⟨hn1, -⟩, -⟩ := h
  exact ⟨hbase, (Nat.div_lt_iff_lt_mul hs).1 hn1⟩

theorem RegMap.reset_EVC_SSTAT {n : Nat} (hn : n < 1536) : RegMap.reset (Reg.EVC_SSTAT n) = 0 := by
  have ha : Reg.EVC_SSTAT n = 0x10120000 + 4 * n := rfl
  have hblock : RegMap.blockOf (Reg.EVC_SSTAT n) = RegMap.blockEVC := by
    rw [RegMap.blockOf, show (Reg.EVC_SSTAT n - 0x10000000) / 0x100000 = 1 by omega]
    rfl
  have hzero : ∀ d ∈ RegMap.blockEVC, 0 < d.s1 ∧ (d.base + d.n1 * d.s1 ≤ 0x10120000 ∨ 0x10121800 ≤ d.base ∨
      d.fields.foldl (fun w f => w + f.reset * 2 ^ f.fld.lo) 0 = 0) := by decide
  rw [RegMap.reset, RegMap.resetNat, if_neg (by omega), if_neg (by omega), if_neg (by omega), if_neg (by omega),
    RegMap.find, if_neg (by omega), hblock]
  split
  case h_1 d hd =>
    obtain ⟨hs, hplace⟩ := hzero d (List.mem_of_find?_eq_some hd)
    have hin := RegDef.bounds_of_holds hs (List.find?_some (p := fun d : RegDef => d.holds _) hd)
    rcases hplace with hbelow | habove | hsum
    · omega
    · omega
    · rw [hsum]; rfl
  case h_2 => rfl
theorem Sparse.mem_of_get {α : Type} {k : Nat} {v : α} {l : List (Nat × α)} (h : Sparse.get k l = some v) : (k, v) ∈ l := by
  induction l with
  | nil => simp [Sparse.get] at h
  | cons p t ih =>
    obtain ⟨i, w⟩ := p
    simp only [Sparse.get] at h
    split at h
    · simp_all
    · split at h
      · cases h
      · exact List.mem_cons_of_mem _ (ih h)

/-- A source whose status bit is set is one of those that the model looks through. -/
theorem State.mem_sourcesWith_of_flag {s : State} {f : Fld} {n : Nat} (hn : n < 1536) (h : s.flag (Reg.EVC_SSTAT n) f = true) :
    n ∈ s.sourcesWith f := by
  have hne : f.get (s.reg (Reg.EVC_SSTAT n)) ≠ 0 := by simpa [State.flag, State.fld] using h
  obtain ⟨w, hw⟩ : ∃ w, Sparse.get (Reg.EVC_SSTAT n) s.dev = some w := by
    rw [← Option.ne_none_iff_exists']
    intro hnone
    rw [State.reg, hnone, Option.getD_none, RegMap.reset_EVC_SSTAT hn] at hne
    simp [Fld.get] at hne
  rw [State.reg, hw, Option.getD_some] at hne
  refine List.mem_filterMap.2 ⟨_, Sparse.mem_of_get hw, ?_⟩
  have hsource : (Reg.EVC_SSTAT n - 0x10120000) / 4 = n := by unfold Reg.EVC_SSTAT; omega
  rw [if_pos ⟨by unfold Reg.EVC_SSTAT; omega, by unfold Reg.EVC_SSTAT; omega, hne⟩, hsource]

theorem Sparse.pairwise_of_rising {α : Type} {l : List (Nat × α)} (h : Sparse.rising l = true) : l.Pairwise (fun p q => p.1 < q.1) := by
  induction l with
  | nil => exact .nil
  | cons p t ih =>
    obtain ⟨hlt, hrise⟩ := (Sparse.rising_cons p.1 p.2 t).1 h
    exact .cons hlt (ih hrise)

theorem State.pairwise_sourcesWith {s : State} (h : Sparse.rising s.dev = true) (f : Fld) :
    (s.sourcesWith f).Pairwise (fun m n => m ≤ n) := by
  refine (Sparse.pairwise_of_rising h).filterMap _ fun p q hlt m hm n hn => ?_
  split at hm <;> split at hn <;> simp at hm hn
  omega

/-! ### The choice among the presented sources -/

theorem State.presentedTo_iff (s : State) (n : Nat) (c : Ctx) :
    s.presentedTo n c = true ↔ s.flag (Reg.EVC_SSTAT n) Fld.EVC_SSTAT_PEND = true ∧ s.flag (Reg.EVC_SSTAT n) Fld.EVC_SSTAT_HELD = false ∧
      s.flag (Reg.EVC_SSTAT n) Fld.EVC_SSTAT_ACT = false ∧ s.flag (Reg.EVC_SCFG n) Fld.EVC_SCFG_EN = true ∧
      (s.reg (Reg.EVC_TGT n (c.val / 32))).getLsbD (c.val % 32) = true ∧ s.lockedOut c = false ∧ s.evc.offSeen.getLsbD c.val = false := by
  simp only [State.presentedTo, State.ready, State.targets, State.seesEvents, Bool.and_eq_true, Bool.not_eq_true']
  tauto

/-- The sources presented to a context, in ascending order. -/
def State.candidates (s : State) (c : Ctx) : List Nat := (s.sourcesWith Fld.EVC_SSTAT_PEND).filter (fun n => s.presentedTo n c)

theorem State.mem_candidates_iff (s : State) (c : Ctx) (n : Nat) : n ∈ s.candidates c ↔ n < 1536 ∧ s.presentedTo n c = true := by
  rw [State.candidates, List.mem_filter]
  refine ⟨fun ⟨hmem, hp⟩ => ⟨mem_sourcesWith hmem, hp⟩, fun ⟨hn, hp⟩ => ⟨State.mem_sourcesWith_of_flag hn ?_, hp⟩⟩
  exact ((s.presentedTo_iff n c).1 hp).1

/-- The priority of a source. -/
abbrev State.prio (s : State) (n : Nat) : Nat := s.fld (Reg.EVC_SCFG n) Fld.EVC_SCFG_PRIO

/-- The model's search keeps the first of the sources of highest PRIO. -/
theorem State.presented_eq_argmax (s : State) (c : Ctx) :
    s.presented c = (s.candidates c).argmax s.prio := by
  unfold State.presented List.argmax
  congr 1
  funext best n
  cases best <;> rfl

theorem idxOf_le_idxOf_iff {l : List Nat} (h : l.Pairwise (fun m n => m ≤ n)) {m n : Nat} (hm : m ∈ l) (hn : n ∈ l) :
    l.idxOf m ≤ l.idxOf n ↔ m ≤ n := by
  have hle {i j : Nat} (hi : i ∈ l) (hj : j ∈ l) (hlt : l.idxOf i < l.idxOf j) : i ≤ j := by
    have := List.pairwise_iff_getElem.1 h _ _ (List.idxOf_lt_length_of_mem hi) (List.idxOf_lt_length_of_mem hj) hlt
    simpa using this
  constructor
  · intro hidx
    rcases hidx.lt_or_eq with hlt | heq
    · exact hle hm hn hlt
    · exact ((List.idxOf_inj hm).1 heq).le
  · intro hmn
    by_contra hlt
    have := hmn.antisymm (hle hn hm (by omega))
    subst this
    exact hlt le_rfl

theorem State.presented_eq_some_iff {s : State} (h : Sparse.rising s.dev = true) (c : Ctx) (n : Nat) :
    s.presented c = some n ↔
      n ∈ s.candidates c ∧ ∀ m ∈ s.candidates c, s.prio m < s.prio n ∨ (s.prio m = s.prio n ∧ n ≤ m) := by
  have hsorted : (s.candidates c).Pairwise (fun m n => m ≤ n) := (State.pairwise_sourcesWith h _).filter _
  rw [State.presented_eq_argmax, List.argmax_eq_some_iff]
  refine and_congr_right fun hn => ⟨fun ⟨hmax, hfirst⟩ m hm => ?_, fun h => ⟨fun m hm => ?_, fun m hm hle => ?_⟩⟩
  · rcases (hmax m hm).lt_or_eq with hlt | heq
    · exact .inl hlt
    · exact .inr ⟨heq, (idxOf_le_idxOf_iff hsorted hn hm).1 (hfirst m hm heq.ge)⟩
  · rcases h m hm with hlt | ⟨heq, -⟩
    · exact hlt.le
    · exact heq.le
  · rcases h m hm with hlt | ⟨-, hnm⟩
    · omega
    · exact (idxOf_le_idxOf_iff hsorted hn hm).2 hnm

theorem State.presented_eq_none_iff (s : State) (c : Ctx) : s.presented c = none ↔ ∀ n, n ∉ s.candidates c := by
  rw [State.presented_eq_argmax, List.argmax_eq_none, List.eq_nil_iff_forall_not_mem]

theorem State.presented_lt {s : State} {c : Ctx} {n : Nat} (h : s.presented c = some n) : n < 1536 := by
  rw [State.presented_eq_argmax] at h
  exact ((s.mem_candidates_iff c n).1 (List.argmax_mem h)).1

/-- EVC_CPRESn answers what R242 chooses. -/
theorem State.readEvc_CPRES (s : State) (who : Who) (c : Ctx) (hw : Word) :
    s.readEvc who (Reg.EVC_CPRES c) hw = s.respondWord who ((s.presented c).elim 0x7FF (fun n => BitVec.ofNat 32 (2 ^ 31 + n))) := by
  have hctx : (Fin.ofNat 128 ((Reg.EVC_CPRES c - 0x10150000) / 4) : Ctx) = c := by
    ext
    simp [Reg.EVC_CPRES]
  have hne : Reg.EVC_CPRES c ≠ Reg.EVC_CLAIM := by unfold Reg.EVC_CPRES Reg.EVC_CLAIM; omega
  unfold State.readEvc
  rw [if_neg hne, if_pos (by unfold Reg.EVC_CPRES; omega), hctx]
  dsimp only
  cases s.presented c <;> rfl

theorem EVC_CPRES_fields {n : Nat} (hn : n < 1536) :
    Fld.EVC_CPRES_VALID.get (BitVec.ofNat 32 (2 ^ 31 + n)) = 1 ∧ Fld.EVC_CPRES_NUM.get (BitVec.ofNat 32 (2 ^ 31 + n)) = n := by
  simp only [Fld.get, Fld.EVC_CPRES_VALID, Fld.EVC_CPRES_NUM, BitVec.toNat_ofNat]
  omega

end Sys2Proof.Machine
end

section
/-! SUPPORT. What an accepted occurrence and the release of a group write (R239, R253). -/

namespace Sys2Proof.Machine

/-! ### What a register write leaves -/

theorem State.now_setFld (s : State) (a : Nat) (f : Fld) (v : Nat) : (s.setFld a f v).now = s.now :=
  congrArg (fun p => p.time / 2 ^ 32) (s.setFld_psq a f v)

theorem State.reg_setFld_of_ne {s : State} (h : Sparse.rising s.dev = true) {a b : Nat} (hne : b ≠ a) (f : Fld) (v : Nat) :
    (s.setFld a f v).reg b = s.reg b :=
  (s.reg_setFld a b f v h).trans (if_neg hne)

theorem Reg.EVC_SSTAT_inj {m n : Nat} : Reg.EVC_SSTAT m = Reg.EVC_SSTAT n ↔ m = n := by
  unfold Reg.EVC_SSTAT
  omega

/-- Whether a source belongs to a group is read in its configuration register alone. -/
theorem State.memberOf_congr {s t : State} {m : Nat} (h : t.reg (Reg.EVC_SCFG m) = s.reg (Reg.EVC_SCFG m)) (g : Nat) :
    t.memberOf m g = s.memberOf m g := by
  simp only [State.memberOf, State.flag, State.fld, h]

/-! ### The release of a group -/

/-- The status bit `f` of the sources of a list is cleared. -/
def State.clearAll (s : State) (f : Fld) (l : List Nat) : State := l.foldl (fun s n => s.setFld (Reg.EVC_SSTAT n) f 0) s

theorem State.rising_clearAll {s : State} (h : Sparse.rising s.dev = true) (f : Fld) (l : List Nat) :
    Sparse.rising (s.clearAll f l).dev = true := by
  induction l generalizing s with
  | nil => exact h
  | cons n l ih => exact ih (s.rising_setFld _ _ _ h)

theorem State.evc_clearAll (s : State) (f : Fld) (l : List Nat) : (s.clearAll f l).evc = s.evc := by
  induction l generalizing s with
  | nil => rfl
  | cons n l ih => exact ih _

theorem State.reg_clearAll_of_not_mem {s : State} (h : Sparse.rising s.dev = true) (f : Fld) {l : List Nat} {a : Nat}
    (ha : ∀ n ∈ l, a ≠ Reg.EVC_SSTAT n) : (s.clearAll f l).reg a = s.reg a := by
  induction l generalizing s with
  | nil => rfl
  | cons n l ih =>
    obtain ⟨hn, hl⟩ := List.forall_mem_cons.1 ha
    exact (ih (s.rising_setFld _ _ _ h) hl).trans ((s.reg_setFld _ a f 0 h).trans (if_neg hn))

theorem State.reg_clearAll_of_mem {s : State} (h : Sparse.rising s.dev = true) {f : Fld} (hf : f.lo + f.len ≤ 32) {l : List Nat} {m : Nat}
    (hm : m ∈ l) : (s.clearAll f l).reg (Reg.EVC_SSTAT m) = f.put 0 (s.reg (Reg.EVC_SSTAT m)) := by
  induction l generalizing s with
  | nil => cases hm
  | cons n l ih =>
    have hrise := s.rising_setFld (Reg.EVC_SSTAT n) f 0 h
    have hfirst := s.reg_setFld (Reg.EVC_SSTAT n) (Reg.EVC_SSTAT m) f 0 h
    change ((s.setFld (Reg.EVC_SSTAT n) f 0).clearAll f l).reg _ = _
    by_cases hl : m ∈ l
    · rw [ih hrise hl, hfirst]
      split
      case isTrue heq => rw [heq, Fld.put_put f hf]
      case isFalse => rfl
    · have hmn : m = n := (List.mem_cons.1 hm).resolve_right hl
      subst hmn
      rw [State.reg_clearAll_of_not_mem hrise f, hfirst, if_pos rfl]
      exact fun n hn heq => hl (Reg.EVC_SSTAT_inj.1 heq ▸ hn)

/-- The members that a group holds. -/
def State.heldBy (s : State) (g : Nat) : List Nat := (s.sourcesWith Fld.EVC_SSTAT_HELD).filter (fun n => s.memberOf n g)

theorem State.mem_heldBy {s : State} {g n : Nat} (h : n ∈ s.heldBy g) : n < 1536 ∧ s.memberOf n g = true := by
  obtain ⟨hmem, hg⟩ := List.mem_filter.1 h
  exact ⟨mem_sourcesWith hmem, hg⟩

theorem State.releaseGroup_eq (s : State) (g : Nat) :
    s.releaseGroup g = { ((s.clearAll Fld.EVC_SSTAT_HELD (s.heldBy g)).setReg (Reg.EVC_GSTAT g) 0) with
      evc := { s.evc with deadlines := Sparse.erase g s.evc.deadlines } } := by
  have hevc : ((s.clearAll Fld.EVC_SSTAT_HELD (s.heldBy g)).setReg (Reg.EVC_GSTAT g) 0).evc = s.evc := s.evc_clearAll _ _
  rw [← hevc]
  rfl

theorem State.evc_releaseGroup (s : State) (g : Nat) :
    (s.releaseGroup g).evc = { s.evc with deadlines := Sparse.erase g s.evc.deadlines } := by
  rw [State.releaseGroup_eq]

theorem State.reg_releaseGroup {s : State} (h : Sparse.rising s.dev = true) (g a : Nat) :
    (s.releaseGroup g).reg a = if a = Reg.EVC_GSTAT g then 0 else (s.clearAll Fld.EVC_SSTAT_HELD (s.heldBy g)).reg a := by
  rw [State.releaseGroup_eq]
  exact State.reg_setReg _ _ _ _ (State.rising_clearAll h _ _)

/-- Every member of a released group is held no more, and no other source changes. -/
theorem State.reg_releaseGroup_EVC_SSTAT {s : State} (h : Sparse.rising s.dev = true) (g : Nat) {m : Nat} (hm : m < 1536) :
    (s.releaseGroup g).reg (Reg.EVC_SSTAT m) =
      if s.memberOf m g = true then Fld.EVC_SSTAT_HELD.put 0 (s.reg (Reg.EVC_SSTAT m)) else s.reg (Reg.EVC_SSTAT m) := by
  rw [State.reg_releaseGroup h, if_neg (by unfold Reg.EVC_SSTAT Reg.EVC_GSTAT; omega)]
  by_cases hheld : m ∈ s.heldBy g
  · rw [State.reg_clearAll_of_mem h (by decide) hheld, if_pos (State.mem_heldBy hheld).2]
  · rw [State.reg_clearAll_of_not_mem h]
    · split
      case isTrue hmem =>
        refine (Fld.put_of_get_eq (by decide) ((s.flag_eq_false_iff _ _).1 ?_)).symm
        by_contra hflag
        exact hheld (List.mem_filter.2 ⟨State.mem_sourcesWith_of_flag hm (by simpa using hflag), hmem⟩)
      case isFalse => rfl
    · exact fun n hn heq => hheld (Reg.EVC_SSTAT_inj.1 heq ▸ hn)

theorem State.reg_releaseGroup_EVC_GSTAT {s : State} (h : Sparse.rising s.dev = true) (g : Nat) :
    (s.releaseGroup g).reg (Reg.EVC_GSTAT g) = 0 := by
  rw [State.reg_releaseGroup h, if_pos rfl]

theorem State.reg_releaseGroup_of_not_mem {s : State} (h : Sparse.rising s.dev = true) {g a : Nat}
    (ha : a ∉ Reg.EVC_GSTAT g :: (List.range 1536).map Reg.EVC_SSTAT) : (s.releaseGroup g).reg a = s.reg a := by
  rw [List.mem_cons, not_or] at ha
  obtain ⟨hgs, hst⟩ := ha
  rw [State.reg_releaseGroup h, if_neg hgs, State.reg_clearAll_of_not_mem h]
  rintro n hn rfl
  exact hst (List.mem_map_of_mem (List.mem_range.2 (State.mem_heldBy hn).1))

/-! ### An accepted occurrence -/

/-- An occurrence pends its source. -/
abbrev State.pend (s : State) (n : Nat) : State := s.setFld (Reg.EVC_SSTAT n) Fld.EVC_SSTAT_PEND 1

/-- A group's deadline lies its TIMEOUT after device time; a TIMEOUT of 0 gives none. -/
def State.setDeadline (s : State) (g : Nat) : State :=
  if (s.reg (Reg.EVC_GTIME g)).toNat = 0 then s
  else { s with evc := { s.evc with deadlines := Sparse.put g (s.now + (s.reg (Reg.EVC_GTIME g)).toNat) s.evc.deadlines } }

/-- A group that is not armed is armed, with its deadline. -/
def State.armGroup (s : State) (g : Nat) : State :=
  if s.flag (Reg.EVC_GSTAT g) Fld.EVC_GSTAT_ARMED then s
  else (s.setFld (Reg.EVC_GSTAT g) Fld.EVC_GSTAT_ARMED 1).setDeadline g

/-- The state in which an occurrence of source `n`, pended and held, comes to its group. -/
abbrev State.pendHeld (s : State) (n : Nat) : State := (s.pend n).setFld (Reg.EVC_SSTAT n) Fld.EVC_SSTAT_HELD 1

/-- An occurrence of source `n` is held in group `g`, and counted. -/
def State.hold (s : State) (n g : Nat) : State :=
  let t := (s.pendHeld n).armGroup g
  t.setFld (Reg.EVC_GSTAT g) Fld.EVC_GSTAT_COUNT (t.fld (Reg.EVC_GSTAT g) Fld.EVC_GSTAT_COUNT + 1)

theorem State.setDeadline_dev (s : State) (g : Nat) : (s.setDeadline g).dev = s.dev := by
  unfold State.setDeadline
  split <;> rfl

theorem State.reg_setDeadline (s : State) (g a : Nat) : (s.setDeadline g).reg a = s.reg a := by
  rw [State.reg, State.setDeadline_dev, State.reg]

theorem State.evc_setDeadline (s : State) (g : Nat) :
    (s.setDeadline g).evc = if (s.reg (Reg.EVC_GTIME g)).toNat = 0 then s.evc
      else { s.evc with deadlines := Sparse.put g (s.now + (s.reg (Reg.EVC_GTIME g)).toNat) s.evc.deadlines } := by
  unfold State.setDeadline
  split <;> rfl

theorem State.rising_armGroup {s : State} (h : Sparse.rising s.dev = true) (g : Nat) : Sparse.rising (s.armGroup g).dev = true := by
  unfold State.armGroup
  split
  · exact h
  · rw [State.setDeadline_dev]
    exact s.rising_setFld _ _ _ h

theorem State.reg_armGroup {s : State} (h : Sparse.rising s.dev = true) (g a : Nat) :
    (s.armGroup g).reg a = if a = Reg.EVC_GSTAT g then Fld.EVC_GSTAT_ARMED.put 1 (s.reg (Reg.EVC_GSTAT g)) else s.reg a := by
  by_cases harmed : s.flag (Reg.EVC_GSTAT g) Fld.EVC_GSTAT_ARMED = true
  · rw [State.armGroup, if_pos harmed, Fld.put_of_get_eq (by decide) (State.get_eq_one_of_flag rfl harmed)]
    split
    case isTrue ha => rw [ha]
    case isFalse => rfl
  · rw [State.armGroup, if_neg harmed, State.reg_setDeadline, State.reg_setFld _ _ _ _ _ h]

theorem State.evc_armGroup {s : State} (h : Sparse.rising s.dev = true) {g : Nat} (hg : g < 256) :
    (s.armGroup g).evc =
      if s.flag (Reg.EVC_GSTAT g) Fld.EVC_GSTAT_ARMED = true ∨ (s.reg (Reg.EVC_GTIME g)).toNat = 0 then s.evc
      else { s.evc with deadlines := Sparse.put g (s.now + (s.reg (Reg.EVC_GTIME g)).toNat) s.evc.deadlines } := by
  by_cases harmed : s.flag (Reg.EVC_GSTAT g) Fld.EVC_GSTAT_ARMED = true
  · rw [State.armGroup, if_pos harmed, if_pos (.inl harmed)]
  · have htime := State.reg_setFld_of_ne h (show Reg.EVC_GTIME g ≠ Reg.EVC_GSTAT g by unfold Reg.EVC_GTIME Reg.EVC_GSTAT; omega)
      Fld.EVC_GSTAT_ARMED 1
    rw [State.armGroup, if_neg harmed, State.evc_setDeadline, htime, State.now_setFld, State.setFld_evc]
    simp only [harmed, Bool.false_eq_true, false_or]

theorem State.rising_pendHeld {s : State} (h : Sparse.rising s.dev = true) (n : Nat) : Sparse.rising (s.pendHeld n).dev = true :=
  State.rising_setFld _ _ _ _ (State.rising_setFld _ _ _ _ h)

theorem State.reg_pendHeld {s : State} (h : Sparse.rising s.dev = true) (n a : Nat) :
    (s.pendHeld n).reg a = if a = Reg.EVC_SSTAT n
      then Fld.EVC_SSTAT_HELD.put 1 (Fld.EVC_SSTAT_PEND.put 1 (s.reg (Reg.EVC_SSTAT n))) else s.reg a := by
  rw [State.pendHeld, State.reg_setFld _ _ _ _ _ (State.rising_setFld _ _ _ _ h), State.reg_setFld _ _ _ _ _ h, State.reg_setFld _ _ _ _ _ h,
    if_pos rfl]
  split_ifs <;> rfl

theorem State.rising_hold {s : State} (h : Sparse.rising s.dev = true) (n g : Nat) : Sparse.rising (s.hold n g).dev = true :=
  State.rising_setFld _ _ _ _ (State.rising_armGroup (State.rising_pendHeld h n) g)

theorem State.accept_eq (s : State) (n : Nat) :
    s.accept n =
      let t := s.pend n
      let g := t.fld (Reg.EVC_SCFG n) Fld.EVC_SCFG_GRP
      if t.flag (Reg.EVC_SCFG n) Fld.EVC_SCFG_GEN && t.flag (Reg.EVC_GCFG g) Fld.EVC_GCFG_EN then
        let u := s.hold n g
        if u.fld (Reg.EVC_GCFG g) Fld.EVC_GCFG_COUNT ≤ ((s.pendHeld n).armGroup g).fld (Reg.EVC_GSTAT g) Fld.EVC_GSTAT_COUNT + 1
        then u.releaseGroup g else u
      else t := by
  rfl

section
variable {s : State} {n g : Nat}

theorem State.reg_hold (h : Sparse.rising s.dev = true) (hn : n < 1536) (a : Nat) :
    (s.hold n g).reg a =
      if a = Reg.EVC_GSTAT g then
        Fld.EVC_GSTAT_COUNT.put (s.fld (Reg.EVC_GSTAT g) Fld.EVC_GSTAT_COUNT + 1) (Fld.EVC_GSTAT_ARMED.put 1 (s.reg (Reg.EVC_GSTAT g)))
      else if a = Reg.EVC_SSTAT n then Fld.EVC_SSTAT_HELD.put 1 (Fld.EVC_SSTAT_PEND.put 1 (s.reg (Reg.EVC_SSTAT n)))
      else s.reg a := by
  have hst := State.rising_pendHeld h n
  have hgs : (s.pendHeld n).reg (Reg.EVC_GSTAT g) = s.reg (Reg.EVC_GSTAT g) :=
    (State.reg_pendHeld h n _).trans (if_neg (by unfold Reg.EVC_SSTAT Reg.EVC_GSTAT; omega))
  rw [State.hold, State.reg_setFld _ _ _ _ _ (State.rising_armGroup hst g), State.fld, State.reg_armGroup hst, State.reg_armGroup hst,
    if_pos rfl, hgs, Fld.get_put_of_apart (by decide) (by decide), State.reg_pendHeld h]
  split_ifs <;> rfl

theorem State.reg_hold_EVC_SSTAT (h : Sparse.rising s.dev = true) (hn : n < 1536) :
    (s.hold n g).reg (Reg.EVC_SSTAT n) = Fld.EVC_SSTAT_HELD.put 1 (Fld.EVC_SSTAT_PEND.put 1 (s.reg (Reg.EVC_SSTAT n))) := by
  rw [State.reg_hold h hn, if_neg (by unfold Reg.EVC_SSTAT Reg.EVC_GSTAT; omega), if_pos rfl]

theorem State.flag_hold_ARMED (h : Sparse.rising s.dev = true) (hn : n < 1536) :
    (s.hold n g).flag (Reg.EVC_GSTAT g) Fld.EVC_GSTAT_ARMED = true := by
  rw [State.flag, State.fld, State.reg_hold h hn, if_pos rfl, Fld.get_put_of_apart (by decide) (by decide),
    Fld.get_put _ (by decide) (by decide)]
  rfl

theorem State.fld_hold_COUNT (h : Sparse.rising s.dev = true) (hn : n < 1536)
    (hcount : s.fld (Reg.EVC_GSTAT g) Fld.EVC_GSTAT_COUNT + 1 < 2 ^ 11) :
    (s.hold n g).fld (Reg.EVC_GSTAT g) Fld.EVC_GSTAT_COUNT = s.fld (Reg.EVC_GSTAT g) Fld.EVC_GSTAT_COUNT + 1 := by
  rw [State.fld, State.reg_hold h hn, if_pos rfl, Fld.get_put _ (by decide) hcount]

theorem State.reg_hold_of_not_mem (h : Sparse.rising s.dev = true) (hn : n < 1536) {a : Nat}
    (ha : a ∉ [Reg.EVC_SSTAT n, Reg.EVC_GSTAT g]) : (s.hold n g).reg a = s.reg a := by
  obtain ⟨hst, hgs⟩ : a ≠ Reg.EVC_SSTAT n ∧ a ≠ Reg.EVC_GSTAT g := by simpa using ha
  rw [State.reg_hold h hn, if_neg hgs, if_neg hst]

theorem State.evc_hold (h : Sparse.rising s.dev = true) (hn : n < 1536) (hg : g < 256) :
    (s.hold n g).evc =
      if s.flag (Reg.EVC_GSTAT g) Fld.EVC_GSTAT_ARMED = true ∨ (s.reg (Reg.EVC_GTIME g)).toNat = 0 then s.evc
      else { s.evc with deadlines := Sparse.put g (s.now + (s.reg (Reg.EVC_GTIME g)).toNat) s.evc.deadlines } := by
  have hgs : (s.pendHeld n).reg (Reg.EVC_GSTAT g) = s.reg (Reg.EVC_GSTAT g) :=
    (State.reg_pendHeld h n _).trans (if_neg (by unfold Reg.EVC_SSTAT Reg.EVC_GSTAT; omega))
  have htime : (s.pendHeld n).reg (Reg.EVC_GTIME g) = s.reg (Reg.EVC_GTIME g) :=
    (State.reg_pendHeld h n _).trans (if_neg (by unfold Reg.EVC_SSTAT Reg.EVC_GTIME; omega))
  rw [State.hold, State.setFld_evc, State.evc_armGroup (State.rising_pendHeld h n) hg, State.flag, State.fld, hgs, htime,
    State.now_setFld, State.now_setFld, State.setFld_evc, State.setFld_evc]
  rfl

/-- Where an occurrence goes is read in registers that pending its source leaves alone. -/
theorem State.reg_pend_EVC_SCFG (h : Sparse.rising s.dev = true) :
    (s.pend n).reg (Reg.EVC_SCFG n) = s.reg (Reg.EVC_SCFG n) :=
  State.reg_setFld_of_ne h (by unfold Reg.EVC_SCFG Reg.EVC_SSTAT; omega) _ _

theorem State.reg_pend_EVC_GCFG (h : Sparse.rising s.dev = true) (hn : n < 1536) :
    (s.pend n).reg (Reg.EVC_GCFG g) = s.reg (Reg.EVC_GCFG g) :=
  State.reg_setFld_of_ne h (by unfold Reg.EVC_GCFG Reg.EVC_SSTAT; omega) _ _

/-- In no enabled group, an accepted occurrence pends its source and does no more. -/
theorem State.accept_of_ungrouped (h : Sparse.rising s.dev = true) (hn : n < 1536)
    (hfree : s.flag (Reg.EVC_SCFG n) Fld.EVC_SCFG_GEN = false ∨
      s.flag (Reg.EVC_GCFG (s.fld (Reg.EVC_SCFG n) Fld.EVC_SCFG_GRP)) Fld.EVC_GCFG_EN = false) :
    s.accept n = s.pend n := by
  rw [State.accept_eq]
  dsimp only
  rw [if_neg]
  simp only [State.flag, State.fld, State.reg_pend_EVC_SCFG h, State.reg_pend_EVC_GCFG h hn] at hfree ⊢
  rcases hfree with hgen | hen
  · simp only [hgen, Bool.false_and, Bool.false_eq_true, not_false_eq_true]
  · simp only [hen, Bool.and_false, Bool.false_eq_true, not_false_eq_true]

/-- In an enabled group, it is held and counted, and releases the group at the group's count. -/
theorem State.accept_of_memberOf (h : Sparse.rising s.dev = true) (hn : n < 1536) (hmem : s.memberOf n g = true)
    (hen : s.flag (Reg.EVC_GCFG g) Fld.EVC_GCFG_EN = true) :
    s.accept n = if s.fld (Reg.EVC_GCFG g) Fld.EVC_GCFG_COUNT ≤ s.fld (Reg.EVC_GSTAT g) Fld.EVC_GSTAT_COUNT + 1
      then (s.hold n g).releaseGroup g else s.hold n g := by
  obtain ⟨hgen, hgrp⟩ : s.flag (Reg.EVC_SCFG n) Fld.EVC_SCFG_GEN = true ∧ s.fld (Reg.EVC_SCFG n) Fld.EVC_SCFG_GRP = g := by
    simpa only [State.memberOf, Bool.and_eq_true, beq_iff_eq] using hmem
  have hg : g < 256 := hgrp ▸ Fld.get_lt Fld.EVC_SCFG_GRP _
  have hpend : (s.pend n).fld (Reg.EVC_SCFG n) Fld.EVC_SCFG_GRP = g := by rw [State.fld, State.reg_pend_EVC_SCFG h]; exact hgrp
  have hlimit : (s.hold n g).fld (Reg.EVC_GCFG g) Fld.EVC_GCFG_COUNT = s.fld (Reg.EVC_GCFG g) Fld.EVC_GCFG_COUNT := by
    rw [State.fld, State.reg_hold h hn, if_neg (by unfold Reg.EVC_GCFG Reg.EVC_GSTAT; omega),
      if_neg (by unfold Reg.EVC_GCFG Reg.EVC_SSTAT; omega), State.fld]
  have hcount : ((s.pendHeld n).armGroup g).fld (Reg.EVC_GSTAT g) Fld.EVC_GSTAT_COUNT = s.fld (Reg.EVC_GSTAT g) Fld.EVC_GSTAT_COUNT := by
    rw [State.fld, State.reg_armGroup (State.rising_pendHeld h n), if_pos rfl, Fld.get_put_of_apart (by decide) (by decide),
      State.reg_pendHeld h, if_neg (by unfold Reg.EVC_SSTAT Reg.EVC_GSTAT; omega), State.fld]
  rw [State.accept_eq]
  dsimp only
  rw [hpend, hcount, hlimit, if_pos]
  simpa only [State.flag, State.fld, State.reg_pend_EVC_SCFG h, State.reg_pend_EVC_GCFG h hn, Bool.and_eq_true] using And.intro hgen hen

/-- The release that an occurrence brings about leaves every member pending as it was, and held no more. -/
theorem State.reg_releaseGroup_hold (h : Sparse.rising s.dev = true) (hn : n < 1536) (hmem : s.memberOf n g = true) {m : Nat} (hm : m < 1536) :
    ((s.hold n g).releaseGroup g).reg (Reg.EVC_SSTAT m) =
      let w := if m = n then Fld.EVC_SSTAT_PEND.put 1 (s.reg (Reg.EVC_SSTAT m)) else s.reg (Reg.EVC_SSTAT m)
      if s.memberOf m g = true then Fld.EVC_SSTAT_HELD.put 0 w else w := by
  have hscfg : (s.hold n g).reg (Reg.EVC_SCFG m) = s.reg (Reg.EVC_SCFG m) := by
    rw [State.reg_hold h hn, if_neg (by unfold Reg.EVC_SCFG Reg.EVC_GSTAT; omega), if_neg (by unfold Reg.EVC_SCFG Reg.EVC_SSTAT; omega)]
  rw [State.reg_releaseGroup_EVC_SSTAT (State.rising_hold h n g) g hm, State.memberOf_congr hscfg, State.reg_hold h hn,
    if_neg (show Reg.EVC_SSTAT m ≠ Reg.EVC_GSTAT g by unfold Reg.EVC_SSTAT Reg.EVC_GSTAT; omega)]
  simp only [Reg.EVC_SSTAT_inj]
  by_cases hmn : m = n
  · subst hmn
    rw [if_pos rfl, if_pos rfl, if_pos hmem, if_pos hmem, Fld.put_put _ (by decide)]
  · rw [if_neg hmn, if_neg hmn]

theorem State.reg_releaseGroup_hold_of_not_mem (h : Sparse.rising s.dev = true) (hn : n < 1536) {a : Nat}
    (ha : a ∉ Reg.EVC_GSTAT g :: (List.range 1536).map Reg.EVC_SSTAT) : ((s.hold n g).releaseGroup g).reg a = s.reg a := by
  rw [State.reg_releaseGroup_of_not_mem (State.rising_hold h n g) ha, State.reg_hold_of_not_mem h hn]
  obtain ⟨hgs, hst⟩ := not_or.1 (mt List.mem_cons.2 ha)
  have hne : a ≠ Reg.EVC_SSTAT n := fun heq => hst (heq ▸ List.mem_map_of_mem (List.mem_range.2 hn))
  simp [hne, hgs]

end

end Sys2Proof.Machine
end

section
/-! SUPPORT. Occurrences, deadlines and doorbells as commands (R239, R253, R255). -/

namespace Sys2Proof.Machine

/-- The state in which an occurrence of source `n` has left its crossing. -/
def State.crossed (s : State) (n : Nat) : State := { s with evc := { s.evc with sync := s.evc.sync.erase n } }

theorem exec_eventOccurrence_of_waiting {s : State} {n : Fin 1536} (h : s.evc.suspended = true ∨ n.val ∉ s.evc.sync) :
    exec (.eventOccurrence n) s = .next s := by
  change execEventOccurrence n s = _
  rw [execEventOccurrence, if_pos (by simpa using h)]

theorem exec_eventOccurrence {s : State} {n : Fin 1536} (hrun : s.evc.suspended = false) (hsync : n.val ∈ s.evc.sync) :
    exec (.eventOccurrence n) s = .next ((s.crossed n).accept n) := by
  change execEventOccurrence n s = _
  rw [execEventOccurrence, if_neg (by simp [hrun, hsync])]
  rfl

/-- Of an occurrence that leaves its crossing, only registers and the event controller change. -/
theorem State.onlyRegs_accept_crossed (s : State) {n : Nat} (hn : n < 1536) : OnlyRegs s ((s.crossed n).accept n) :=
  ((SameOutsideEvc.evc s _).trans (State.accept_frame (s.crossed n) n hn)).1

theorem State.onlyRegs_releaseGroup (s : State) {g : Nat} (hg : g < 256) : OnlyRegs s (s.releaseGroup g) :=
  (State.releaseGroup_frame s g hg).1

theorem exec_groupDeadline {s : State} {g : Fin 256} {d : Nat} (hd : Sparse.get g.val s.evc.deadlines = some d) (hdue : d ≤ s.now)
    (hrun : s.evc.suspended = false) : exec (.groupDeadline g) s = .next (s.releaseGroup g) := by
  change execGroupDeadline g s = _
  simp only [execGroupDeadline, hd]
  rw [if_pos ⟨hdue, hrun⟩]

theorem exec_groupDeadline_of_waiting {s : State} {g : Fin 256}
    (h : (∀ d, Sparse.get g.val s.evc.deadlines = some d → s.now < d) ∨ s.evc.suspended = true) :
    exec (.groupDeadline g) s = .next s := by
  change execGroupDeadline g s = _
  unfold execGroupDeadline
  split
  case h_1 d hd =>
    rw [if_neg]
    rintro ⟨hdue, hrun⟩
    rcases h with hlate | hsusp
    · exact (hlate d hd).not_ge hdue
    · rw [hrun] at hsusp
      cases hsusp
  case h_2 => rfl

theorem exec_evcDoorbell (who : Who) (data : Word) (s : State) :
    exec (.evcDoorbell who data) s = .next (if s.evc.suspended = true ∨ Block.evc ∈ s.fab.clearing
      then s.onRing who Reg.EVC_DOORBELL (some data) else s.accept (data.toNat % 128)) := by
  have hctx : Fld.EVC_DOORBELL_CTX.get data = data.toNat % 128 := by simp [Fld.get, Fld.EVC_DOORBELL_CTX]
  have hfabric : fabricSource (data.toNat % 128) = true := by
    simp only [fabricSource, Bool.or_eq_true, decide_eq_true_eq]
    omega
  have hheld : s.evcHeld = true ↔ s.evc.suspended = true ∨ Block.evc ∈ s.fab.clearing := by simp [State.evcHeld]
  change execEvcDoorbell who data s = _
  rw [execEvcDoorbell, State.evcWrite]
  by_cases h : s.evc.suspended = true ∨ Block.evc ∈ s.fab.clearing
  · rw [if_pos (hheld.2 h), if_pos h]
  · have hrun : s.evc.suspended = false := by simpa using (not_or.1 h).1
    rw [if_neg (mt hheld.1 h), if_neg h, State.doorbell, State.raise, hctx, hfabric, hrun, Bool.not_false, Bool.and_true,
      if_pos rfl]

end Sys2Proof.Machine
end

section
namespace Sys2Proof.Proofs
open Machine

/-- Settles O23: the presentation of R242, and then the occurrences, deadlines and doorbells of R239, R253 and R255. -/
theorem eventPresentationAndOccurrences : Obligations.EventPresentationAndOccurrences := by
  refine ⟨?presentation, ?occurrences⟩
  case presentation =>
    intro s c hwf shown prio
    obtain ⟨-, hrise, -⟩ := hwf
    have hshown (n : Nat) : n ∈ s.candidates c ↔ shown n := (s.mem_candidates_iff c n).trans (and_congr_right' (s.presentedTo_iff n c))
    refine ⟨fun n => ?_, ?_, fun who hw => ⟨_, s.readEvc_CPRES who c hw, fun n hn => ?_, fun hnone => ?_⟩⟩
    · simpa only [hshown] using State.presented_eq_some_iff hrise c n
    · simpa only [hshown] using s.presented_eq_none_iff c
    · rw [hn]
      exact EVC_CPRES_fields (State.presented_lt hn)
    · rw [hnone]
      rfl
  case occurrences =>
    intro s who n g data hwf st pend free gs member evc count limit time armed only released
    obtain ⟨-, hrise, -⟩ := hwf
    have hrise' : Sparse.rising (s.crossed n).dev = true := hrise
    have hframe : OnlyRegs s ((s.crossed n).accept n) := s.onlyRegs_accept_crossed n.isLt
    refine ⟨exec_eventOccurrence_of_waiting, fun hrun hsync => ?accepted, fun d hd hdue hrun => ?deadline, exec_groupDeadline_of_waiting,
      exec_evcDoorbell who data s⟩
    case accepted =>
      have hexec := exec_eventOccurrence hrun hsync
      refine ⟨fun hfree => ?ungrouped, fun ⟨hmem, hen⟩ hbelow => ?held, fun ⟨hmem, hen⟩ hreached => ?reached⟩
      case ungrouped =>
        rw [State.accept_of_ungrouped hrise' n.isLt hfree] at hexec hframe
        have hreg (a : Nat) := (s.crossed n).reg_setFld (st n) a Fld.EVC_SSTAT_PEND 1 hrise'
        exact ⟨_, hexec, (hreg _).trans (if_pos rfl), ⟨fun a ha => (hreg a).trans (if_neg (by simpa using ha)), hframe⟩, rfl⟩
      case held =>
        have haccept : (s.crossed n).accept n = (s.crossed n).hold n g :=
          (State.accept_of_memberOf hrise' n.isLt hmem hen).trans (if_neg hbelow.not_ge)
        rw [haccept] at hexec hframe
        have hcount : count < 2 ^ 11 := hbelow.trans (Fld.get_lt Fld.EVC_GCFG_COUNT _)
        exact ⟨_, hexec, State.reg_hold_EVC_SSTAT hrise' n.isLt, State.flag_hold_ARMED hrise' n.isLt,
          State.fld_hold_COUNT hrise' n.isLt hcount, ⟨fun a ha => State.reg_hold_of_not_mem hrise' n.isLt ha, hframe⟩,
          State.evc_hold hrise' n.isLt g.isLt⟩
      case reached =>
        have haccept : (s.crossed n).accept n = ((s.crossed n).hold n g).releaseGroup g :=
          (State.accept_of_memberOf hrise' n.isLt hmem hen).trans (if_pos hreached)
        rw [haccept] at hexec hframe
        refine ⟨_, hexec, ⟨fun m hm => State.reg_releaseGroup_hold hrise' n.isLt hmem hm,
          State.reg_releaseGroup_EVC_GSTAT (State.rising_hold hrise' n g) g,
          fun a ha => State.reg_releaseGroup_hold_of_not_mem hrise' n.isLt ha, hframe⟩, fun harmed => ?_⟩
        rw [State.evc_releaseGroup, State.evc_hold hrise' n.isLt g.isLt, if_pos (.inl harmed)]
        rfl
    case deadline =>
      exact ⟨_, exec_groupDeadline hd hdue hrun, ⟨fun m hm => State.reg_releaseGroup_EVC_SSTAT hrise g hm,
        State.reg_releaseGroup_EVC_GSTAT hrise g, fun a ha => State.reg_releaseGroup_of_not_mem hrise ha,
        s.onlyRegs_releaseGroup g.isLt⟩, s.evc_releaseGroup g⟩

end Sys2Proof.Proofs
end

section
/-! SUPPORT. An event signalled by a block outside the event controller, which sees only its own registers and device time (R239, R253). -/

namespace Sys2Proof.Machine

/-! ### The registers of the event controller that an occurrence reads -/

theorem inEvc_EVC_SSTAT {n : Nat} (hn : n < 1536) : inEvc (Reg.EVC_SSTAT n) := by
  unfold inEvc Reg.EVC_SSTAT; omega

theorem inEvc_EVC_SCFG {n : Nat} (hn : n < 1536) : inEvc (Reg.EVC_SCFG n) := by
  unfold inEvc Reg.EVC_SCFG; omega

theorem inEvc_EVC_GCFG {g : Nat} (hg : g < 256) : inEvc (Reg.EVC_GCFG g) := by
  unfold inEvc Reg.EVC_GCFG; omega

theorem inEvc_EVC_GTIME {g : Nat} (hg : g < 256) : inEvc (Reg.EVC_GTIME g) := by
  unfold inEvc Reg.EVC_GTIME; omega

theorem inEvc_EVC_GSTAT {g : Nat} (hg : g < 256) : inEvc (Reg.EVC_GSTAT g) := by
  unfold inEvc Reg.EVC_GSTAT; omega

/-! ### States that the event controller cannot tell apart -/

/-- Two states with canonical register tables, the same event controller and the same device time. -/
structure EvcAlike (s t : State) : Prop where
  rising_left : Sparse.rising s.dev = true
  rising_right : Sparse.rising t.dev = true
  evc : t.evc = s.evc
  now : t.now = s.now
  reg : ∀ a, inEvc a → t.reg a = s.reg a

namespace EvcAlike
variable {s t : State}

theorem fld (h : EvcAlike s t) {a : Nat} (ha : inEvc a) (f : Fld) : t.fld a f = s.fld a f := by
  rw [State.fld, State.fld, h.reg a ha]

theorem flag (h : EvcAlike s t) {a : Nat} (ha : inEvc a) (f : Fld) : t.flag a f = s.flag a f := by
  rw [State.flag, State.flag, h.fld ha]

theorem setReg (h : EvcAlike s t) (a : Nat) (w : Word) : EvcAlike (s.setReg a w) (t.setReg a w) where
  rising_left := s.rising_setReg a w h.rising_left
  rising_right := t.rising_setReg a w h.rising_right
  evc := h.evc
  now := h.now
  reg b hb := by rw [t.reg_setReg a b w h.rising_right, s.reg_setReg a b w h.rising_left, h.reg b hb]

theorem setFld (h : EvcAlike s t) {a : Nat} (ha : inEvc a) (f : Fld) (v : Nat) : EvcAlike (s.setFld a f v) (t.setFld a f v) := by
  rw [State.setFld, State.setFld, h.reg a ha]
  exact h.setReg a _

theorem setEvc (h : EvcAlike s t) (e : Evc) : EvcAlike { s with evc := e } { t with evc := e } where
  rising_left := h.rising_left
  rising_right := h.rising_right
  evc := rfl
  now := h.now
  reg := h.reg

theorem setDeadline (h : EvcAlike s t) {g : Nat} (hg : g < 256) : EvcAlike (s.setDeadline g) (t.setDeadline g) := by
  rw [State.setDeadline, State.setDeadline, h.reg _ (inEvc_EVC_GTIME hg), h.evc, h.now]
  split
  · exact h
  · exact h.setEvc _

theorem armGroup (h : EvcAlike s t) {g : Nat} (hg : g < 256) : EvcAlike (s.armGroup g) (t.armGroup g) := by
  have hgs := inEvc_EVC_GSTAT hg
  rw [State.armGroup, State.armGroup, h.flag hgs]
  split
  · exact h
  · exact (h.setFld hgs _ _).setDeadline hg

theorem pendHeld (h : EvcAlike s t) {n : Nat} (hn : n < 1536) : EvcAlike (s.pendHeld n) (t.pendHeld n) :=
  (h.setFld (inEvc_EVC_SSTAT hn) _ _).setFld (inEvc_EVC_SSTAT hn) _ _

theorem hold (h : EvcAlike s t) {n g : Nat} (hn : n < 1536) (hg : g < 256) : EvcAlike (s.hold n g) (t.hold n g) := by
  have harmed := (h.pendHeld hn).armGroup hg
  rw [State.hold, State.hold, harmed.fld (inEvc_EVC_GSTAT hg)]
  exact harmed.setFld (inEvc_EVC_GSTAT hg) _ _

theorem memberOf (h : EvcAlike s t) {m : Nat} (hm : m < 1536) (g : Nat) : t.memberOf m g = s.memberOf m g :=
  State.memberOf_congr (h.reg _ (inEvc_EVC_SCFG hm)) g

theorem releaseGroup (h : EvcAlike s t) {g : Nat} (hg : g < 256) : EvcAlike (s.releaseGroup g) (t.releaseGroup g) where
  rising_left := ((s.releaseGroup_frame g hg).2 h.rising_left).1
  rising_right := ((t.releaseGroup_frame g hg).2 h.rising_right).1
  evc := by rw [State.evc_releaseGroup, State.evc_releaseGroup, h.evc]
  now := (congrArg State.now (t.onlyRegs_releaseGroup hg)).trans (h.now.trans (congrArg State.now (s.onlyRegs_releaseGroup hg)).symm)
  reg a ha := by
    by_cases hmem : a ∈ Reg.EVC_GSTAT g :: (List.range 1536).map Reg.EVC_SSTAT
    · rcases List.mem_cons.1 hmem with rfl | hst
      · rw [State.reg_releaseGroup_EVC_GSTAT h.rising_left, State.reg_releaseGroup_EVC_GSTAT h.rising_right]
      · obtain ⟨m, hm, rfl⟩ := List.mem_map.1 hst
        have hlt := List.mem_range.1 hm
        rw [State.reg_releaseGroup_EVC_SSTAT h.rising_left g hlt, State.reg_releaseGroup_EVC_SSTAT h.rising_right g hlt,
          h.memberOf hlt, h.reg _ ha]
    · rw [State.reg_releaseGroup_of_not_mem h.rising_left hmem, State.reg_releaseGroup_of_not_mem h.rising_right hmem, h.reg a ha]

theorem accept (h : EvcAlike s t) {n : Nat} (hn : n < 1536) : EvcAlike (s.accept n) (t.accept n) := by
  have hpend : EvcAlike (s.pend n) (t.pend n) := h.setFld (inEvc_EVC_SSTAT hn) _ _
  have hgrp : (s.pend n).fld (Reg.EVC_SCFG n) Fld.EVC_SCFG_GRP < 256 := Fld.get_lt Fld.EVC_SCFG_GRP _
  have hhold := h.hold hn hgrp
  rw [State.accept_eq, State.accept_eq]
  dsimp only
  rw [hpend.fld (inEvc_EVC_SCFG hn), hpend.flag (inEvc_EVC_SCFG hn), hpend.flag (inEvc_EVC_GCFG hgrp), hhold.fld (inEvc_EVC_GCFG hgrp),
    ((h.pendHeld hn).armGroup hgrp).fld (inEvc_EVC_GSTAT hgrp)]
  split
  · split
    · exact hhold.releaseGroup hgrp
    · exact hhold
  · exact hpend

theorem raise (h : EvcAlike s t) {n : Nat} (hn : n < 1536) : EvcAlike (s.raise n) (t.raise n) := by
  rw [State.raise, State.raise, h.evc]
  split
  · exact h.accept hn
  · exact h.setEvc _

end EvcAlike

/-! ### The registers and events of a command -/

theorem OnlyRegs.trans {s t u : State} (h : OnlyRegs s t) (k : OnlyRegs t u) : OnlyRegs s u := by
  have hfirst : { t with dev := s.dev, evc := s.evc } = s := h
  have hsecond : { u with dev := t.dev, evc := t.evc } = t := k
  exact (congrArg (fun v : State => { v with dev := s.dev, evc := s.evc }) hsecond).trans hfirst

theorem State.onlyRegs_raise (s : State) {n : Nat} (hn : n < 1536) : OnlyRegs s (s.raise n) := (s.raise_frame n hn).1

theorem State.reg_raise_of_outside {s : State} (h : Sparse.rising s.dev = true) {n a : Nat} (hn : n < 1536) (ha : ¬ inEvc a) :
    (s.raise n).reg a = s.reg a := ((s.raise_frame n hn).2 h).2 a ha

/-- A command that signals nothing leaves the event controller and every register outside `l`. -/
theorem RegsAndEvents.of_reg {s t : State} {l : List Nat} (hevc : t.evc = s.evc) (h : ∀ a, a ∉ l → t.reg a = s.reg a) :
    RegsAndEvents s t l [] :=
  ⟨fun a _ => h a, hevc, fun a _ => h a⟩

/-- An event signalled after registers of other blocks were written acts as it would have before. -/
theorem RegsAndEvents.raise {s t : State} {l : List Nat} {n : Nat} (hs : Sparse.rising s.dev = true) (ht : Sparse.rising t.dev = true)
    (hnow : t.now = s.now) (h : RegsAndEvents s t l []) (hl : ∀ a ∈ l, ¬ inEvc a) (hn : n < 1536) : RegsAndEvents s (t.raise n) l [n] := by
  obtain ⟨hother, hevc, hin⟩ := h
  have halike : EvcAlike (s.raise n) (t.raise n) :=
    EvcAlike.raise ⟨hs, ht, hevc, hnow, fun a ha => hin a ha fun hmem => hl a hmem ha⟩ hn
  exact ⟨fun a ha hmem => (State.reg_raise_of_outside ht hn ha).trans (hother a ha hmem), halike.evc, fun a ha _ => halike.reg a ha⟩

end Sys2Proof.Machine
end

section
/-! SUPPORT. The lanes of the pattern sequencer after an engine's signal (R48). -/

namespace Sys2Proof.Machine

/-- A lane whose closing entries for a job have been signalled. -/
def Lane.signalled (x : Lane) (j : Job) (fc : Nat) : Lane :=
  { x with closings := x.closings.map (fun c => if c.job = j then c.signal fc else c) }

theorem State.lane_setLane (s : State) (l k : Fin 16) (x : Lane) : (s.setLane l x).lane k = if k = l then x else s.lane k := by
  simp only [State.lane, State.setLane, Vector.getElem_set, Fin.ext_iff, eq_comm]

/-- Lanes changed one by one, each by its own contents, are changed together. -/
theorem State.foldl_setLane (f : Nat → Lane → Lane) {l : List (Fin 16)} (hl : l.Nodup) (s : State) :
    l.foldl (fun s k => s.setLane k (f s.fc (s.lane k))) s =
      { s with psq := { s.psq with lanes := Vector.ofFn fun k => if k ∈ l then f s.fc (s.lane k) else s.lane k } } := by
  induction l generalizing s with
  | nil =>
    have hsame : s.psq.lanes = Vector.ofFn fun k : Fin 16 => s.lane k := Vector.ext fun i hi => by simp [State.lane]
    simp [← hsame]
  | cons m l ih =>
    obtain ⟨hm, hl⟩ := List.nodup_cons.1 hl
    rw [List.foldl_cons, ih hl]
    have hlanes : (Vector.ofFn fun k => if k ∈ l then f s.fc ((s.setLane m (f s.fc (s.lane m))).lane k) else
        (s.setLane m (f s.fc (s.lane m))).lane k) = Vector.ofFn fun k => if k ∈ m :: l then f s.fc (s.lane k) else s.lane k := by
      congr 1
      funext k
      rw [State.lane_setLane]
      by_cases hk : k = m
      · simp [hk, hm]
      · simp [hk]
    rw [← hlanes]
    rfl

theorem State.psqSignal_eq (s : State) (j : Job) :
    s.psqSignal j = { s with psq := { s.psq with lanes := Vector.ofFn fun k => (s.lane k).signalled j s.fc } } := by
  have hfold := State.foldl_setLane (fun fc x => x.signalled j fc) (List.nodup_finRange 16) s
  simp only [List.mem_finRange, if_true] at hfold
  exact hfold

/-- Every closing entry that waits for the job has its signal. -/
theorem State.signalled_of_psqSignal {s : State} {j : Job} {l : Fin 16} {k : Closing} (hk : k ∈ ((s.psqSignal j).lane l).closings)
    (hj : k.job = j) : k.signalled.isSome = true := by
  rw [State.psqSignal_eq] at hk
  simp only [State.lane, Vector.getElem_ofFn, Lane.signalled, List.mem_map] at hk
  obtain ⟨c, -, rfl⟩ := hk
  split at hj
  case isTrue h => rw [if_pos h]; rfl
  case isFalse h => exact absurd hj h

end Sys2Proof.Machine
end

section
/-! SUPPORT. What a register write and an event leave of the rest of the state. -/

namespace Sys2Proof.Machine

theorem State.reg_setReg_of_ne {s : State} (h : Sparse.rising s.dev = true) {a b : Nat} (hne : b ≠ a) (w : Word) :
    (s.setReg a w).reg b = s.reg b := (s.reg_setReg a b w h).trans (if_neg hne)

theorem State.reg_setReg_self {s : State} (h : Sparse.rising s.dev = true) (a : Nat) (w : Word) : (s.setReg a w).reg a = w :=
  (s.reg_setReg a a w h).trans (if_pos rfl)

theorem State.reg_setFld_self {s : State} (h : Sparse.rising s.dev = true) (a : Nat) (f : Fld) (v : Nat) :
    (s.setFld a f v).reg a = f.put v (s.reg a) := State.reg_setReg_self h a _

theorem State.setReg_writes (s : State) (a : Nat) (w : Word) : ∃ d, s.setReg a w = { s with dev := d } := ⟨_, rfl⟩

theorem RegsAndEvents.setReg {s : State} (h : Sparse.rising s.dev = true) (a : Nat) (w : Word) : RegsAndEvents s (s.setReg a w) [a] [] :=
  .of_reg rfl fun _ hb => State.reg_setReg_of_ne h (by simpa using hb) w

theorem OnlyRegs.refl (s : State) : OnlyRegs s s := rfl

theorem OnlyRegs.setReg {s t : State} (h : OnlyRegs s t) (a : Nat) (w : Word) : OnlyRegs s (t.setReg a w) := h

theorem OnlyRegs.raise {s t : State} (h : OnlyRegs s t) {n : Nat} (hn : n < 1536) : OnlyRegs s (t.raise n) :=
  h.trans (t.onlyRegs_raise hn)

theorem State.now_setReg (s : State) (a : Nat) (w : Word) : (s.setReg a w).now = s.now := rfl

/-- A second register written beside those of `l`. -/
theorem RegsAndEvents.setReg_right {s t : State} {l : List Nat} (ht : Sparse.rising t.dev = true) (h : RegsAndEvents s t l [])
    (a : Nat) (w : Word) : RegsAndEvents s (t.setReg a w) (l ++ [a]) [] := by
  obtain ⟨hother, hevc, hin⟩ := h
  refine .of_reg hevc fun b hb => ?_
  obtain ⟨hl, ha⟩ := not_or.1 (mt List.mem_append.2 hb)
  rw [State.reg_setReg_of_ne ht (by simpa using ha)]
  by_cases hblock : inEvc b
  · exact hin b hblock hl
  · exact hother b hblock hl

/-- Only registers, the event controller, the spool and the lanes of the pattern sequencer have changed. -/
def OnlySpool (s t : State) : Prop :=
  { t with dev := s.dev, evc := s.evc, spl := s.spl, psq := { t.psq with lanes := s.psq.lanes } } = s

/-- The state with another spool. -/
def State.withSpl (s : State) (x : Spl) : State := { s with spl := x }

@[simp] theorem State.reg_withSpl (s : State) (x : Spl) (a : Nat) : (s.withSpl x).reg a = s.reg a := rfl
@[simp] theorem State.now_withSpl (s : State) (x : Spl) : (s.withSpl x).now = s.now := rfl
@[simp] theorem State.spl_withSpl (s : State) (x : Spl) : (s.withSpl x).spl = x := rfl

theorem State.rising_withSpl {s : State} (h : Sparse.rising s.dev = true) (x : Spl) : Sparse.rising (s.withSpl x).dev = true := h

theorem RegsAndEvents.withSpl {s t : State} {l ev : List Nat} (h : RegsAndEvents s t l ev) (x : Spl) :
    RegsAndEvents s (t.withSpl x) l ev := h

theorem OnlySpool.refl (s : State) : OnlySpool s s := rfl

theorem OnlySpool.setReg {s t : State} (h : OnlySpool s t) (a : Nat) (w : Word) : OnlySpool s (t.setReg a w) := h

theorem OnlySpool.withSpl {s t : State} (h : OnlySpool s t) (x : Spl) : OnlySpool s (t.withSpl x) := h

theorem State.raise_writes (s : State) {n : Nat} (hn : n < 1536) : ∃ d e, s.raise n = { s with dev := d, evc := e } := by
  have hframe : { s.raise n with dev := s.dev, evc := s.evc } = s := s.onlyRegs_raise hn
  exact ⟨(s.raise n).dev, (s.raise n).evc, congrArg (fun t : State => { t with dev := (s.raise n).dev, evc := (s.raise n).evc }) hframe⟩

theorem OnlySpool.raise {s t : State} (h : OnlySpool s t) {n : Nat} (hn : n < 1536) : OnlySpool s (t.raise n) := by
  obtain ⟨d, e, heq⟩ := t.raise_writes hn
  rw [heq]
  exact h

theorem State.spl_raise (s : State) {n : Nat} (hn : n < 1536) : (s.raise n).spl = s.spl := by
  obtain ⟨d, e, heq⟩ := s.raise_writes hn
  rw [heq]

theorem OnlySpool.psqSignal {s t : State} (h : OnlySpool s t) (j : Job) : OnlySpool s (t.psqSignal j) := by
  rw [State.psqSignal_eq]
  exact h

theorem State.spl_psqSignal (s : State) (j : Job) : (s.psqSignal j).spl = s.spl := by
  rw [State.psqSignal_eq]

theorem State.reg_psqSignal (s : State) (j : Job) (a : Nat) : (s.psqSignal j).reg a = s.reg a := by
  rw [State.psqSignal_eq]
  rfl

theorem RegsAndEvents.psqSignal {s t : State} {l ev : List Nat} (h : RegsAndEvents s t l ev) (j : Job) :
    RegsAndEvents s (t.psqSignal j) l ev := by
  rw [State.psqSignal_eq]
  exact h

/-- The spool's block lies above the event controller's. -/
theorem not_inEvc_of_spool {a : Nat} (h : 0x10B00000 ≤ a) : ¬ inEvc a := by
  unfold inEvc; omega

theorem State.splEvent_one (s : State) : s.splEvent 1 = s.raise 465 := by simp [State.splEvent, State.raiseIf]

theorem State.splEvent_three (s : State) : s.splEvent 3 = s.raise 467 := by simp [State.splEvent, State.raiseIf]

end Sys2Proof.Machine
end

section
/-! SUPPORT. What the spool's commands write: gains, loads, aborts and latched reads (R352, R370 to R372). -/

namespace Sys2Proof.Machine

/-! ### Gains -/

/-- Gains written one after another. -/
def State.setGains (s : State) (l : List (Nat × Word)) : State := l.foldl (fun s g => s.setReg (Reg.SPL_GAIN g.1) g.2) s

theorem State.setGains_writes (s : State) (l : List (Nat × Word)) : ∃ d, s.setGains l = { s with dev := d } := by
  induction l generalizing s with
  | nil => exact ⟨s.dev, rfl⟩
  | cons g l ih => exact ih (s.setReg (Reg.SPL_GAIN g.1) g.2)

theorem State.reg_setGains_of_not_mem {s : State} (h : Sparse.rising s.dev = true) {l : List (Nat × Word)} {a : Nat}
    (ha : a ∉ l.map (fun g => Reg.SPL_GAIN g.1)) : (s.setGains l).reg a = s.reg a := by
  induction l generalizing s with
  | nil => rfl
  | cons g l ih =>
    obtain ⟨hg, hl⟩ : a ≠ Reg.SPL_GAIN g.1 ∧ a ∉ l.map (fun g => Reg.SPL_GAIN g.1) := by
      simpa only [List.map_cons, List.mem_cons, not_or] using ha
    exact (ih (s.rising_setReg _ _ h) hl).trans (State.reg_setReg_of_ne h hg _)

theorem State.gainsApply_eq (s : State) : s.gainsApply = (s.setGains s.spl.gainHeld).withSpl { s.spl with gainHeld := [] } := by
  obtain ⟨d, heq⟩ := s.setGains_writes s.spl.gainHeld
  have hspl : (s.setGains s.spl.gainHeld).spl = s.spl := by rw [heq]
  have hmodel : s.gainsApply =
      (s.setGains s.spl.gainHeld).withSpl { (s.setGains s.spl.gainHeld).spl with gainHeld := [] } := rfl
  rw [hmodel, hspl]

theorem State.gainsApply_writes (s : State) :
    ∃ d, s.gainsApply = { s with dev := d, spl := { s.spl with gainHeld := [] } } := by
  obtain ⟨d, heq⟩ := s.setGains_writes s.spl.gainHeld
  exact ⟨d, by rw [State.gainsApply_eq, heq]; rfl⟩

theorem State.reg_gainsApply_of_not_mem {s : State} (h : Sparse.rising s.dev = true) {a : Nat}
    (ha : a ∉ s.spl.gainHeld.map (fun g => Reg.SPL_GAIN g.1)) : s.gainsApply.reg a = s.reg a := by
  rw [State.gainsApply_eq, State.reg_withSpl, State.reg_setGains_of_not_mem h ha]

/-- The registers of gains lie above the spool's others. -/
theorem not_mem_gains_of_lt {l : List (Nat × Word)} {a : Nat} (ha : a < 0x10B04000) : a ∉ l.map (fun g => Reg.SPL_GAIN g.1) := by
  intro hmem
  obtain ⟨g, -, rfl⟩ := List.mem_map.1 hmem
  unfold Reg.SPL_GAIN at ha
  omega

/-- Outside a run, a gain applies at once. -/
theorem exec_splGainWrite_of_idle {s : State} (who : Who) (g : Fin 1024) (data : Word) (hrun : s.spl.run = none) :
    exec (.splGainWrite who g data) s = .next ((s.setReg (Reg.SPL_GAIN g) (data.and 0xFFFF)).withSpl { s.spl with
      gainOld := s.spl.gainOld.filter (fun o => o.1 = s.fc) ++ [(s.fc, g.val, s.reg (Reg.SPL_GAIN g))] }) := by
  change execSplGainWrite who g data s = _
  rw [execSplGainWrite, State.gainWrite, hrun]
  rfl

/-- During a run, it is held until the run ends. -/
theorem exec_splGainWrite_of_running {s : State} (who : Who) (g : Fin 1024) (data : Word) {pc : Nat} (hrun : s.spl.run = some pc) :
    exec (.splGainWrite who g data) s = .next { s with spl := { s.spl with gainHeld := s.spl.gainHeld ++ [(g.val, data.and 0xFFFF)] } } := by
  change execSplGainWrite who g data s = _
  rw [execSplGainWrite, State.gainWrite, hrun]
  rfl

/-! ### The start of a load -/

theorem exec_programLoad_of_free {s : State} (who : Who) (data : Word) (hfree : s.flag Reg.SPL_STAT Fld.SPL_STAT_LPEND = false) :
    exec (.programLoad who data) s = .next ((s.setFld Reg.SPL_STAT Fld.SPL_STAT_LPEND 1).withSpl
      { s.spl with load := some (.reading (data.toNat * 256)) }) := by
  change execProgramLoad who data s = _
  rw [execProgramLoad, State.programLoad, hfree]
  rfl

theorem exec_programLoad_of_pending {s : State} (who : Who) (data : Word) (hpend : s.flag Reg.SPL_STAT Fld.SPL_STAT_LPEND = true) :
    exec (.programLoad who data) s = .next ((s.setFld Reg.SPL_STAT Fld.SPL_STAT_LREF 1).raise 465) := by
  change execProgramLoad who data s = _
  rw [execProgramLoad, State.programLoad, hpend, if_pos rfl, State.splEvent_one]

/-! ### A load that fails -/

/-- The address at which a load failed is recorded, if it failed at one. -/
def State.loadErrorAt (s : State) : Option Nat → State
  | some a => s.setAddr Reg.SPL_EADRL Reg.SPL_EADRH a
  | none => s

/-- A load given up: its report. -/
def State.loadReport (s : State) (cause : Nat) (addr : Option Nat) : State :=
  (s.setFlds Reg.SPL_STAT [(Fld.SPL_STAT_LERR, 1), (Fld.SPL_STAT_CAUSE, cause), (Fld.SPL_STAT_LPEND, 0)]).loadErrorAt addr

theorem State.spl_loadErrorAt (s : State) (addr : Option Nat) : (s.loadErrorAt addr).spl = s.spl := by
  cases addr <;> rfl

theorem State.psq_loadErrorAt (s : State) (addr : Option Nat) : (s.loadErrorAt addr).psq = s.psq := by
  cases addr <;> rfl

theorem State.spl_loadReport (s : State) (cause : Nat) (addr : Option Nat) : (s.loadReport cause addr).spl = s.spl := by
  rw [State.loadReport, State.spl_loadErrorAt, State.setFlds_spl]

/-- The event and the load-end signal follow. -/
theorem State.loadFails_eq (s : State) (cause : Nat) (addr : Option Nat) :
    s.loadFails cause addr = (((s.loadReport cause addr).withSpl { s.spl with load := none }).raise 465).psqSignal .mix := by
  rw [← State.splEvent_one, ← State.spl_loadReport s cause addr]
  cases addr <;> rfl

theorem State.rising_loadErrorAt {s : State} (h : Sparse.rising s.dev = true) (addr : Option Nat) :
    Sparse.rising (s.loadErrorAt addr).dev = true := by
  cases addr with
  | none => exact h
  | some a => exact State.rising_setReg _ _ _ (State.rising_setReg _ _ _ h)

theorem State.reg_loadErrorAt_of_ne {s : State} (h : Sparse.rising s.dev = true) (addr : Option Nat) {b : Nat}
    (hlo : b ≠ Reg.SPL_EADRL) (hhi : b ≠ Reg.SPL_EADRH) : (s.loadErrorAt addr).reg b = s.reg b := by
  cases addr with
  | none => rfl
  | some a => exact (State.reg_setReg_of_ne (State.rising_setReg _ _ _ h) hhi _).trans (State.reg_setReg_of_ne h hlo _)

theorem State.reg_loadErrorAt_EADRL {s : State} (h : Sparse.rising s.dev = true) (a : Nat) :
    (s.loadErrorAt (some a)).reg Reg.SPL_EADRL = BitVec.ofNat 32 a :=
  (State.reg_setReg_of_ne (State.rising_setReg _ _ _ h) (by decide) _).trans (State.reg_setReg_self h _ _)

theorem OnlySpool.loadErrorAt {s t : State} (h : OnlySpool s t) (addr : Option Nat) : OnlySpool s (t.loadErrorAt addr) := by
  cases addr <;> exact h

theorem State.psq_loadReport (s : State) (cause : Nat) (addr : Option Nat) : (s.loadReport cause addr).psq = s.psq := by
  rw [State.loadReport, State.psq_loadErrorAt, State.setFlds_psq]

theorem State.rising_loadReport {s : State} (h : Sparse.rising s.dev = true) (cause : Nat) (addr : Option Nat) :
    Sparse.rising (s.loadReport cause addr).dev = true :=
  State.rising_loadErrorAt (s.rising_setFlds _ _ h) addr

theorem State.reg_loadReport_STAT {s : State} (h : Sparse.rising s.dev = true) (cause : Nat) (addr : Option Nat) :
    (s.loadReport cause addr).reg Reg.SPL_STAT =
      Fld.SPL_STAT_LPEND.put 0 (Fld.SPL_STAT_CAUSE.put cause (Fld.SPL_STAT_LERR.put 1 (s.reg Reg.SPL_STAT))) := by
  rw [State.loadReport, State.reg_loadErrorAt_of_ne (s.rising_setFlds _ _ h) addr (by decide) (by decide), State.reg_setFlds _ _ _ _ h, if_pos rfl]
  rfl

theorem State.reg_loadReport_EADRL {s : State} (h : Sparse.rising s.dev = true) (cause a : Nat) :
    (s.loadReport cause (some a)).reg Reg.SPL_EADRL = BitVec.ofNat 32 a :=
  State.reg_loadErrorAt_EADRL (s.rising_setFlds _ _ h) a

theorem State.reg_loadFails_of_spool {s : State} (h : Sparse.rising s.dev = true) (cause : Nat) (addr : Option Nat) {a : Nat}
    (ha : 0x10B00000 ≤ a) : (s.loadFails cause addr).reg a = (s.loadReport cause addr).reg a := by
  rw [State.loadFails_eq, State.reg_psqSignal,
    State.reg_raise_of_outside (State.rising_withSpl (State.rising_loadReport h cause addr) _) (by decide) (not_inEvc_of_spool ha),
    State.reg_withSpl]

theorem State.reg_loadFails_STAT {s : State} (h : Sparse.rising s.dev = true) (cause : Nat) (addr : Option Nat) :
    (s.loadFails cause addr).reg Reg.SPL_STAT =
      Fld.SPL_STAT_LPEND.put 0 (Fld.SPL_STAT_CAUSE.put cause (Fld.SPL_STAT_LERR.put 1 (s.reg Reg.SPL_STAT))) := by
  rw [State.reg_loadFails_of_spool h cause addr (by decide), State.reg_loadReport_STAT h]

theorem State.reg_loadFails_EADRL {s : State} (h : Sparse.rising s.dev = true) (cause a : Nat) :
    (s.loadFails cause (some a)).reg Reg.SPL_EADRL = BitVec.ofNat 32 a := by
  rw [State.reg_loadFails_of_spool h cause (some a) (by decide), State.reg_loadReport_EADRL h]

/-- LERR is set, LPEND is clear and CAUSE says why. -/
theorem State.fields_loadFails {s : State} (h : Sparse.rising s.dev = true) {cause : Nat} (hc : cause < 16) (addr : Option Nat) :
    (s.loadFails cause addr).flag Reg.SPL_STAT Fld.SPL_STAT_LERR = true ∧
    (s.loadFails cause addr).flag Reg.SPL_STAT Fld.SPL_STAT_LPEND = false ∧
    (s.loadFails cause addr).fld Reg.SPL_STAT Fld.SPL_STAT_CAUSE = cause := by
  simp only [State.flag, State.fld, State.reg_loadFails_STAT h]
  refine ⟨?_, ?_, ?_⟩
  · rw [Fld.get_put_of_apart (by decide) (by decide), Fld.get_put_of_apart (by decide) (by decide), Fld.get_put _ (by decide) (by decide)]
    rfl
  · rw [Fld.get_put _ (by decide) (by decide)]
    rfl
  · rw [Fld.get_put_of_apart (by decide) (by decide), Fld.get_put _ (by decide) hc]

theorem State.spl_loadFails (s : State) (cause : Nat) (addr : Option Nat) :
    (s.loadFails cause addr).spl = { s.spl with load := none } := by
  rw [State.loadFails_eq, State.spl_psqSignal, State.spl_raise _ (by decide), State.spl_withSpl]

/-- Its load-end signal reaches every entry that waits on MIX. -/
theorem State.signalled_of_loadFails {s : State} {cause : Nat} {addr : Option Nat} {l : Fin 16} {k : Closing}
    (hk : k ∈ ((s.loadFails cause addr).lane l).closings) (hj : k.job = .mix) : k.signalled.isSome = true := by
  rw [State.loadFails_eq] at hk
  exact State.signalled_of_psqSignal hk hj

theorem OnlySpool.loadFails (s : State) (cause : Nat) (addr : Option Nat) : OnlySpool s (s.loadFails cause addr) := by
  have hreport : OnlySpool s (s.loadReport cause addr) := ((OnlySpool.refl s).setReg _ _).loadErrorAt addr
  rw [State.loadFails_eq]
  exact ((hreport.withSpl _).raise (by decide)).psqSignal _

/-- A load given up without an address writes SPL_STAT alone. -/
theorem RegsAndEvents.loadFails {s : State} (h : Sparse.rising s.dev = true) (cause : Nat) :
    RegsAndEvents s (s.loadFails cause none) [Reg.SPL_STAT] [465] := by
  have hreport : RegsAndEvents s (s.loadReport cause none) [Reg.SPL_STAT] [] := RegsAndEvents.setReg h Reg.SPL_STAT _
  have hnow (x : Spl) : ((s.loadReport cause none).withSpl x).now = s.now := by rw [State.now_withSpl, State.now, State.psq_loadReport, State.now]
  have hspool : ∀ a ∈ [Reg.SPL_STAT], ¬ inEvc a := List.forall_mem_singleton.2 (not_inEvc_of_spool (by decide))
  rw [State.loadFails_eq]
  exact ((hreport.withSpl _).raise h (State.rising_withSpl (State.rising_loadReport h cause none) _) (hnow _) hspool (by decide)).psqSignal _

theorem exec_programLoadEnd_of_not_reading {s : State} (h : ∀ a, s.spl.load ≠ some (.reading a)) :
    exec (.programLoadEnd []) s = .next s := by
  change execProgramLoadEnd [] s = _
  unfold execProgramLoadEnd
  split
  case h_1 a ha => exact absurd ha (h a)
  case h_2 => rfl

end Sys2Proof.Machine
end

section
/-! SUPPORT. A program whose image has arrived, an abort and a latched read in the spool (R352, R370, R372). -/

namespace Sys2Proof.Machine

/-! ### The words of a program -/

theorem mixAddr_inj {bank i j : Nat} : mixAddr bank i = mixAddr bank j ↔ i = j := by
  unfold mixAddr; omega

/-- The words of a program written into a bank, over any errors there. -/
def State.loadWords (s : State) (bank : Nat) (w : Nat → Word) (n : Nat) : State :=
  (List.range n).foldl (fun s i => { s.setReg (mixAddr bank i) (w i) with ecc := Sparse.erase (mixAddr bank i / 8 * 8) s.ecc }) s

/-- The state with other errors in its arrays. -/
def State.withEcc (s : State) (e : List (Nat × Flips)) : State := { s with ecc := e }

theorem State.reg_withEcc (s : State) (e : List (Nat × Flips)) (a : Nat) : (s.withEcc e).reg a = s.reg a := rfl

theorem State.rising_withEcc {s : State} (h : Sparse.rising s.dev = true) (e : List (Nat × Flips)) :
    Sparse.rising (s.withEcc e).dev = true := h

theorem State.loadWords_succ (s : State) (bank : Nat) (w : Nat → Word) (n : Nat) :
    s.loadWords bank w (n + 1) = ((s.loadWords bank w n).setReg (mixAddr bank n) (w n)).withEcc
      (Sparse.erase (mixAddr bank n / 8 * 8) (s.loadWords bank w n).ecc) := by
  rw [State.loadWords, List.range_succ, List.foldl_append]
  rfl

theorem State.loadWords_writes (s : State) (bank : Nat) (w : Nat → Word) (n : Nat) :
    ∃ d e, s.loadWords bank w n = { s with dev := d, ecc := e } := by
  induction n with
  | zero => exact ⟨s.dev, s.ecc, rfl⟩
  | succ n ih =>
    obtain ⟨d, e, heq⟩ := ih
    rw [State.loadWords_succ, heq]
    exact ⟨_, _, rfl⟩

theorem State.rising_loadWords {s : State} (h : Sparse.rising s.dev = true) (bank : Nat) (w : Nat → Word) (n : Nat) :
    Sparse.rising (s.loadWords bank w n).dev = true := by
  induction n with
  | zero => exact h
  | succ n ih =>
    rw [State.loadWords_succ]
    exact State.rising_withEcc (State.rising_setReg _ _ _ ih) _

theorem State.reg_loadWords_succ {s : State} (h : Sparse.rising s.dev = true) (bank : Nat) (w : Nat → Word) (n a : Nat) :
    (s.loadWords bank w (n + 1)).reg a = if a = mixAddr bank n then w n else (s.loadWords bank w n).reg a := by
  rw [State.loadWords_succ, State.reg_withEcc, State.reg_setReg _ _ _ _ (State.rising_loadWords h bank w n)]

theorem State.reg_loadWords_of_lt {s : State} (h : Sparse.rising s.dev = true) (bank : Nat) (w : Nat → Word) {n i : Nat} (hi : i < n) :
    (s.loadWords bank w n).reg (mixAddr bank i) = w i := by
  induction n with
  | zero => omega
  | succ n ih =>
    rw [State.reg_loadWords_succ h]
    split
    case isTrue heq => rw [mixAddr_inj.1 heq]
    case isFalse hne => exact ih (Nat.lt_of_le_of_ne (Nat.le_of_lt_succ hi) fun heq => hne (by rw [heq]))

theorem State.reg_loadWords_of_not_mem {s : State} (h : Sparse.rising s.dev = true) (bank : Nat) (w : Nat → Word) {n a : Nat}
    (ha : a ∉ (List.range n).map (fun i => mixAddr bank i)) : (s.loadWords bank w n).reg a = s.reg a := by
  induction n with
  | zero => rfl
  | succ n ih =>
    rw [List.range_succ, List.map_append, List.mem_append, not_or] at ha
    obtain ⟨hlow, hlast⟩ := ha
    rw [State.reg_loadWords_succ h, if_neg (by simpa using hlast), ih hlow]

/-- Word `i + 1` of an image, an instruction, as the image's bytes give it (R364). -/
def programWord (l : List Byte) (i : Nat) : Word := BitVec.ofNat 32 (leNat ((l.drop (4 + 4 * i)).take 4))

/-- A program of `n` words written into the bank that is not active. -/
def State.programmed (s : State) (l : List Byte) (n : Nat) : State :=
  (s.loadWords (1 - s.mixBank) (programWord l) n).withSpl { s.spl with
    load := some (.ready n), length := if 1 - s.mixBank = 0 then (n, s.spl.length.2) else (s.spl.length.1, n) }

section
variable {s : State} {a : Nat} {b : List Byte} (hload : s.spl.load = some (.reading a))
  (hhead : s.splLines (s.flag Reg.SPL_CTRL Fld.SPL_CTRL_COH) a 64 = (.bytes b, s))
include hload hhead

theorem exec_programLoadEnd_of_bad_length (hn : leNat (b.take 4) = 0 ∨ 4096 < leNat (b.take 4)) :
    exec (.programLoadEnd []) s = .next (s.loadFails 6 none) := by
  change execProgramLoadEnd [] s = _
  simp only [execProgramLoadEnd, hload, State.strike, List.foldl_nil, hhead, if_pos hn]

theorem exec_programLoadEnd_of_image {c : List Byte} (hn : ¬ (leNat (b.take 4) = 0 ∨ 4096 < leNat (b.take 4)))
    (htail : s.splLines (s.flag Reg.SPL_CTRL Fld.SPL_CTRL_COH) (a + 64) (4 * leNat (b.take 4) + 4 - 64) = (.bytes c, s)) :
    exec (.programLoadEnd []) s = .next (s.programmed (b ++ c) (leNat (b.take 4))) := by
  obtain ⟨d, e, heq⟩ := s.loadWords_writes (1 - s.mixBank) (programWord (b ++ c)) (leNat (b.take 4))
  have hspl : (s.loadWords (1 - s.mixBank) (programWord (b ++ c)) (leNat (b.take 4))).spl = s.spl := by rw [heq]
  change execProgramLoadEnd [] s = _
  simp only [execProgramLoadEnd, hload, State.strike, List.foldl_nil, hhead, htail, if_neg hn, List.drop_drop]
  rw [State.programmed, ← hspl]
  rfl

end

theorem exec_programLoadEnd_of_held {s u : State} {a : Nat} (hload : s.spl.load = some (.reading a))
    (hheld : s.splLines (s.flag Reg.SPL_CTRL Fld.SPL_CTRL_COH) a 64 = (.held, u)) : exec (.programLoadEnd []) s = .next u := by
  change execProgramLoadEnd [] s = _
  simp only [execProgramLoadEnd, hload, State.strike, List.foldl_nil, hheld]

/-- The image's first line is not read: the load is given up, and CAUSE tells a refusal from an uncorrectable error. -/
theorem exec_programLoadEnd_of_failed {s u : State} {a e : Nat} {read : SplRead} (hload : s.spl.load = some (.reading a))
    (hlines : s.splLines (s.flag Reg.SPL_CTRL Fld.SPL_CTRL_COH) a 64 = (read, u)) (hread : read = .refused e ∨ read = .uncorrectable e) :
    exec (.programLoadEnd []) s = .next (u.loadFails (if read = .refused e then 4 else 5) (some e)) := by
  change execProgramLoadEnd [] s = _
  rcases hread with rfl | rfl
  · simp only [execProgramLoadEnd, hload, State.strike, List.foldl_nil, hlines, if_true]
  · simp only [execProgramLoadEnd, hload, State.strike, List.foldl_nil, hlines, reduceCtorEq, if_false]

/-! ### An abort -/

/-- The registers that an abort writes. -/
def State.abortMarked (s : State) : State := (s.setFld Reg.SPL_STAT Fld.SPL_STAT_LPEND 0).setFld Reg.SPL_CTRL Fld.SPL_CTRL_RUN 0

/-- The state in which an abort finds the gains that the run held back. -/
def State.aborting (s : State) : State :=
  s.abortMarked.withSpl { s.spl with run := none, load := none, abort := some s.spl.switched, fresh := true }

theorem State.abortMarked_writes (s : State) : ∃ d, s.abortMarked = { s with dev := d } := by
  obtain ⟨_, hstat⟩ := s.setReg_writes Reg.SPL_STAT (Fld.SPL_STAT_LPEND.put 0 (s.reg Reg.SPL_STAT))
  obtain ⟨d, hctrl⟩ := (s.setFld Reg.SPL_STAT Fld.SPL_STAT_LPEND 0).setReg_writes Reg.SPL_CTRL
    (Fld.SPL_CTRL_RUN.put 0 ((s.setFld Reg.SPL_STAT Fld.SPL_STAT_LPEND 0).reg Reg.SPL_CTRL))
  exact ⟨d, by rw [State.abortMarked, State.setFld, hctrl, State.setFld, hstat]⟩

theorem State.spl_abortMarked (s : State) : s.abortMarked.spl = s.spl := by
  rw [State.abortMarked, State.setFld_spl, State.setFld_spl]

theorem exec_splAbort_of_clear (who : Who) {data : Word} (s : State) (h : data.getLsbD 0 = false) :
    exec (.splAbort who data) s = .next s := by
  change execSplAbort who data s = _
  rw [execSplAbort, State.splCommand, h]
  rfl

theorem State.rising_abortMarked {s : State} (h : Sparse.rising s.dev = true) : Sparse.rising s.abortMarked.dev = true :=
  State.rising_setFld _ _ _ _ (s.rising_setFld _ _ _ h)

theorem State.reg_abortMarked_STAT {s : State} (h : Sparse.rising s.dev = true) :
    s.abortMarked.reg Reg.SPL_STAT = Fld.SPL_STAT_LPEND.put 0 (s.reg Reg.SPL_STAT) := by
  rw [State.abortMarked, State.reg_setFld_of_ne (s.rising_setFld _ _ _ h) (by decide), State.reg_setFld_self h]

theorem State.reg_abortMarked_CTRL {s : State} (h : Sparse.rising s.dev = true) :
    s.abortMarked.reg Reg.SPL_CTRL = Fld.SPL_CTRL_RUN.put 0 (s.reg Reg.SPL_CTRL) := by
  rw [State.abortMarked, State.reg_setFld_self (s.rising_setFld _ _ _ h), State.reg_setFld_of_ne h (by decide)]

theorem State.reg_abortMarked_of_ne {s : State} (h : Sparse.rising s.dev = true) {a : Nat} (hstat : a ≠ Reg.SPL_STAT) (hctrl : a ≠ Reg.SPL_CTRL) :
    s.abortMarked.reg a = s.reg a := by
  rw [State.abortMarked, State.reg_setFld_of_ne (s.rising_setFld _ _ _ h) hctrl, State.reg_setFld_of_ne h hstat]

theorem State.gainHeld_aborting (s : State) : s.aborting.spl.gainHeld = s.spl.gainHeld := by
  rw [State.aborting, State.spl_withSpl]

/-- The state that an abort leaves, but for the load-end signal of a load that it discards. -/
def State.aborted (s : State) : State := s.aborting.gainsApply

theorem exec_splAbort (who : Who) {data : Word} (s : State) (h : data.getLsbD 0 = true) :
    exec (.splAbort who data) s = .next (if s.flag Reg.SPL_STAT Fld.SPL_STAT_LPEND = true then s.aborted.psqSignal .mix else s.aborted) := by
  change execSplAbort who data s = _
  rw [execSplAbort, State.splCommand, if_pos h, State.aborted, State.aborting, ← s.spl_abortMarked]
  rfl

theorem State.aborted_writes (s : State) : ∃ d, s.aborted = { s with
    dev := d
    spl := { s.spl with run := none, load := none, abort := some s.spl.switched, fresh := true, gainHeld := [] } } := by
  obtain ⟨d, hgains⟩ := s.aborting.gainsApply_writes
  obtain ⟨_, hmarked⟩ := s.abortMarked_writes
  exact ⟨d, by rw [State.aborted, hgains, State.aborting, hmarked]; rfl⟩

theorem State.spl_aborted (s : State) :
    s.aborted.spl = { s.spl with run := none, load := none, abort := some s.spl.switched, fresh := true, gainHeld := [] } := by
  obtain ⟨d, heq⟩ := s.aborted_writes
  rw [heq]

theorem State.psq_aborted (s : State) : s.aborted.psq = s.psq := by
  obtain ⟨d, heq⟩ := s.aborted_writes
  rw [heq]

theorem OnlySpool.aborted (s : State) : OnlySpool s s.aborted := by
  obtain ⟨d, heq⟩ := s.aborted_writes
  rw [heq]
  rfl

section
variable {s : State} (h : Sparse.rising s.dev = true)
include h

theorem State.reg_aborted_of_not_mem {a : Nat} (ha : a ∉ s.spl.gainHeld.map (fun g => Reg.SPL_GAIN g.1)) :
    s.aborted.reg a = s.abortMarked.reg a := by
  have hrise : Sparse.rising s.aborting.dev = true := State.rising_withSpl (State.rising_abortMarked h) _
  rw [← s.gainHeld_aborting] at ha
  rw [State.aborted, State.reg_gainsApply_of_not_mem hrise ha, State.aborting, State.reg_withSpl]

theorem State.reg_aborted_STAT : s.aborted.reg Reg.SPL_STAT = Fld.SPL_STAT_LPEND.put 0 (s.reg Reg.SPL_STAT) := by
  rw [State.reg_aborted_of_not_mem h (not_mem_gains_of_lt (by decide)), State.reg_abortMarked_STAT h]

theorem State.reg_aborted_CTRL : s.aborted.reg Reg.SPL_CTRL = Fld.SPL_CTRL_RUN.put 0 (s.reg Reg.SPL_CTRL) := by
  rw [State.reg_aborted_of_not_mem h (not_mem_gains_of_lt (by decide)), State.reg_abortMarked_CTRL h]

theorem RegsAndEvents.aborted :
    RegsAndEvents s s.aborted ([Reg.SPL_STAT, Reg.SPL_CTRL] ++ s.spl.gainHeld.map (fun g => Reg.SPL_GAIN g.1)) [] := by
  obtain ⟨d, heq⟩ := s.aborted_writes
  refine .of_reg (by rw [heq]) fun a ha => ?_
  obtain ⟨hctl, hgain⟩ := not_or.1 (mt List.mem_append.2 ha)
  obtain ⟨hstat, hctrl⟩ : a ≠ Reg.SPL_STAT ∧ a ≠ Reg.SPL_CTRL := by simpa using hctl
  rw [State.reg_aborted_of_not_mem h hgain, State.reg_abortMarked_of_ne h hstat hctrl]

end

/-! ### Latched reads -/

theorem State.get_resp_respondWord (s : State) (who : Who) (w : Word) :
    Sparse.get who.id (s.respondWord who w).fab.resp = some (.data (leBytes 4 w.toNat)) :=
  (Sparse.get_put _ _ _ _).trans (if_pos rfl)

/-- A read of SPL_TSL keeps SPL_TSH and SPL_SCNT for its initiator. -/
theorem State.latches_splTslRead (s : State) (who : Who) :
    Sparse.get who.id (s.splTslRead who).spl.latches = some (s.reg Reg.SPL_TSH, s.reg Reg.SPL_SCNT) :=
  (Sparse.get_put _ _ _ _).trans (if_pos rfl)

theorem State.readSpl_SPL_TSH (s : State) (who : Who) (hw : Word) :
    s.readSpl who Reg.SPL_TSH hw = s.respondWord who ((Sparse.get who.id s.spl.latches).getD (0, 0)).1 := by
  rw [State.readSpl, if_neg (by decide), if_neg (by decide), if_neg (by decide), if_pos rfl]

theorem State.readSpl_SPL_SCNT (s : State) (who : Who) (hw : Word) :
    s.readSpl who Reg.SPL_SCNT hw = s.respondWord who ((Sparse.get who.id s.spl.latches).getD (0, 0)).2 := by
  rw [State.readSpl, if_neg (by decide), if_neg (by decide), if_neg (by decide), if_neg (by decide), if_pos rfl]

end Sys2Proof.Machine
end

section
/-! SUPPORT. The spool's streams and TDM ports (R353, R359 to R363). -/

namespace Sys2Proof.Machine

/-! ### The enable of a ring -/

/-- The control register of a reader or a writer. -/
def streamCtl (writer : Bool) (n : Nat) : Nat := if writer then Reg.SPL_WCTL n else Reg.SPL_RCTL n

theorem le_streamCtl (writer : Bool) (n : Nat) : 0x10B02000 ≤ streamCtl writer n := by
  unfold streamCtl Reg.SPL_WCTL Reg.SPL_RCTL
  split <;> omega

theorem streamCtl_ne_STAT (writer : Bool) (n : Nat) : streamCtl writer n ≠ Reg.SPL_STAT := by
  have := le_streamCtl writer n
  unfold Reg.SPL_STAT
  omega

/-- While a ring is enabled, only its EN is written; an attempt at more shows in SPL_STAT (R363). -/
theorem exec_streamEnable_of_enabled {s : State} (who : Who) {writer : Bool} {n : Fin 64} (data : Word)
    (hon : s.flag (streamCtl writer n) Fld.SPL_RCTL_EN = true) :
    ∃ v, (v = s ∨ v = s.setFld Reg.SPL_STAT Fld.SPL_STAT_CREF 1) ∧ exec (.streamEnable who writer n data) s =
      .next (v.setFld (streamCtl writer n) Fld.SPL_RCTL_EN (bit (data.getLsbD 31))) := by
  change ∃ v, _ ∧ execStreamEnable who writer n data s = _
  unfold execStreamEnable State.streamControl
  exact ⟨_, ite_eq_or_eq _ _ _, congrArg _ (if_pos hon)⟩

section
variable {s : State} (h : Sparse.rising s.dev = true) {v : State} (hv : v = s ∨ v = s.setFld Reg.SPL_STAT Fld.SPL_STAT_CREF 1)
  (writer : Bool) (n : Nat)
include hv

theorem onlyRegs_enableWritten (e : Nat) : OnlyRegs s (v.setFld (streamCtl writer n) Fld.SPL_RCTL_EN e) := by
  rcases hv with rfl | rfl
  · exact (OnlyRegs.refl _).setReg _ _
  · exact ((OnlyRegs.refl s).setReg _ _).setReg _ _

include h

theorem rising_of_streamKept : Sparse.rising v.dev = true := by
  rcases hv with rfl | rfl
  · exact h
  · exact State.rising_setFld _ _ _ _ h

theorem reg_of_streamKept : v.reg (streamCtl writer n) = s.reg (streamCtl writer n) := by
  rcases hv with rfl | rfl
  · rfl
  · exact State.reg_setFld_of_ne h (streamCtl_ne_STAT writer n) _ _

theorem reg_enableWritten (e : Nat) : (v.setFld (streamCtl writer n) Fld.SPL_RCTL_EN e).reg (streamCtl writer n) =
    Fld.SPL_RCTL_EN.put e (s.reg (streamCtl writer n)) := by
  rw [State.reg_setFld_self (rising_of_streamKept h hv), reg_of_streamKept h hv]

theorem flag_enableWritten (b : Bool) :
    (v.setFld (streamCtl writer n) Fld.SPL_RCTL_EN (bit b)).flag (streamCtl writer n) Fld.SPL_RCTL_EN = b := by
  rw [State.flag, State.fld, reg_enableWritten h hv, Fld.get_put _ (by decide) (by cases b <;> decide)]
  cases b <;> rfl

theorem regsAndEvents_enableWritten (e : Nat) :
    RegsAndEvents s (v.setFld (streamCtl writer n) Fld.SPL_RCTL_EN e) [streamCtl writer n, Reg.SPL_STAT] [] := by
  have hrise := rising_of_streamKept h hv
  rcases hv with rfl | rfl
  · refine .of_reg (State.setFld_evc _ _ _ _) fun a ha => ?_
    obtain ⟨hctl, -⟩ : a ≠ streamCtl writer n ∧ a ≠ Reg.SPL_STAT := by simpa using ha
    exact State.reg_setFld_of_ne h hctl _ _
  · refine .of_reg (by rw [State.setFld_evc, State.setFld_evc]) fun a ha => ?_
    obtain ⟨hctl, hstat⟩ : a ≠ streamCtl writer n ∧ a ≠ Reg.SPL_STAT := by simpa using ha
    rw [State.reg_setFld_of_ne hrise hctl, State.reg_setFld_of_ne h hstat]

end

/-! ### The check of a ring -/

/-- A ring is read in the registers that follow its control register. -/
theorem State.ringAt_congr {s t : State} {a : Nat} (h : ∀ b, a < b → b < a + 32 → t.reg b = s.reg b) (c : Word) :
    t.ringAt a c = s.ringAt a c := by
  simp only [State.ringAt, State.fld, h (a + 4) (by omega) (by omega), h (a + 8) (by omega) (by omega), h (a + 12) (by omega) (by omega),
    h (a + 16) (by omega) (by omega), h (a + 20) (by omega) (by omega)]

theorem State.ringAt_setReg_self {s : State} (h : Sparse.rising s.dev = true) (a : Nat) (w c : Word) :
    (s.setReg a w).ringAt a c = s.ringAt a c :=
  State.ringAt_congr (fun b hlo _ => State.reg_setReg_of_ne h (by omega) w) c

/-- The control word of another reader plays no part in a reader's ring. -/
theorem State.readerRing_setReg_of_ne {s : State} (h : Sparse.rising s.dev = true) {r n : Nat} (hne : r ≠ n) (w : Word) :
    (s.setReg (Reg.SPL_RCTL n) w).readerRing r = s.readerRing r := by
  have hctl : (s.setReg (Reg.SPL_RCTL n) w).reg (Reg.SPL_RCTL r) = s.reg (Reg.SPL_RCTL r) :=
    State.reg_setReg_of_ne h (by unfold Reg.SPL_RCTL; omega) w
  rw [State.readerRing, State.readerRing, hctl]
  refine State.ringAt_congr (fun b hlo hhi => State.reg_setReg_of_ne h ?_ w) _
  unfold Reg.SPL_RCTL at *
  omega

/-- The check of a ring does not look at the ring's own control register. -/
theorem State.streamRefused_setReg {s : State} (h : Sparse.rising s.dev = true) (writer : Bool) (n : Nat) (w : Word) (g : Ring) :
    (s.setReg (streamCtl writer n) w).streamRefused writer n g = s.streamRefused writer n g := by
  cases writer with
  | true => rfl
  | false =>
    have hreader (r : Nat) (hne : r ≠ n) : (s.setReg (Reg.SPL_RCTL n) w).flag (Reg.SPL_RCTL r) Fld.SPL_RCTL_EN =
        s.flag (Reg.SPL_RCTL r) Fld.SPL_RCTL_EN := by
      rw [State.flag, State.fld, State.reg_setReg_of_ne h (by unfold Reg.SPL_RCTL; omega), State.flag, State.fld]
    change (s.setReg (Reg.SPL_RCTL n) w).streamRefused false n g = _
    unfold State.streamRefused
    congr 4
    funext r
    by_cases hne : r = n
    · simp [hne]
    · rw [hreader r hne, State.readerRing_setReg_of_ne h hne]

/-! ### The write of a ring that is not enabled -/

/-- A control word written whose ring the check refuses, and what SPL_STAT then says. -/
def State.streamRejected (s : State) (a : Nat) (w : Word) : State :=
  (s.setReg a w).setFlds Reg.SPL_STAT [(Fld.SPL_STAT_CREF, 1), (Fld.SPL_STAT_CAUSE, 7)]

/-- A ring that is not enabled takes the other fields of the write, and then its EN is looked at. -/
theorem exec_streamEnable_of_disabled {s : State} (h : Sparse.rising s.dev = true) (who : Who) {writer : Bool} {n : Fin 64} {data : Word}
    (hoff : s.flag (streamCtl writer n) Fld.SPL_RCTL_EN = false) {d : RegDef} (hfind : RegMap.find (streamCtl writer n) = some d) :
    let want := d.written false (Fld.SPL_RCTL_EN.put 0 data) 0 (s.reg (streamCtl writer n))
    exec (.streamEnable who writer n data) s = .next (
      if data.getLsbD 31 = false then s.setReg (streamCtl writer n) want
      else if s.streamRefused writer n (s.ringAt (streamCtl writer n) want) = true then
        (s.streamRejected (streamCtl writer n) want).raise 467
      else (s.setReg (streamCtl writer n) want).setFld (streamCtl writer n) Fld.SPL_RCTL_EN 1) := by
  intro want
  have hcheck : (s.setReg (streamCtl writer n) want).streamRefused writer n
      ((s.setReg (streamCtl writer n) want).ringAt (streamCtl writer n) want) =
      s.streamRefused writer n (s.ringAt (streamCtl writer n) want) := by
    rw [State.ringAt_setReg_self h, State.streamRefused_setReg h]
  change execStreamEnable who writer n data s = _
  rw [← hcheck, ← State.splEvent_three]
  unfold execStreamEnable State.streamControl
  dsimp only
  rw [show (if writer = true then Reg.SPL_WCTL n else Reg.SPL_RCTL n) = streamCtl writer n from rfl, hfind]
  simp only [hoff, Bool.false_eq_true, if_false, Bool.not_eq_true']
  rfl

section
variable {s : State} (writer : Bool) (n a : Nat) (w : Word)

theorem onlyRegs_streamRejected : OnlyRegs s (s.streamRejected a w) := ((OnlyRegs.refl s).setReg a w).setReg _ _

theorem now_streamRejected : (s.streamRejected a w).now = s.now := by
  rw [State.now, State.streamRejected, State.setFlds_psq, State.setReg_psq, State.now]

variable (h : Sparse.rising s.dev = true)
include h

theorem rising_streamRejected : Sparse.rising (s.streamRejected a w).dev = true :=
  State.rising_setFlds _ _ _ (s.rising_setReg a w h)

theorem reg_streamRejected_STAT : (s.streamRejected (streamCtl writer n) w).reg Reg.SPL_STAT =
    Fld.SPL_STAT_CAUSE.put 7 (Fld.SPL_STAT_CREF.put 1 (s.reg Reg.SPL_STAT)) := by
  rw [State.streamRejected, State.reg_setFlds _ _ _ _ (s.rising_setReg _ w h), if_pos rfl,
    State.reg_setReg_of_ne h (streamCtl_ne_STAT writer n).symm]
  rfl

theorem reg_streamRejected_streamCtl : (s.streamRejected (streamCtl writer n) w).reg (streamCtl writer n) = w := by
  rw [State.streamRejected, State.reg_setFlds _ _ _ _ (s.rising_setReg _ w h), if_neg (streamCtl_ne_STAT writer n),
    State.reg_setReg_self h]

theorem regsAndEvents_streamRejected :
    RegsAndEvents s ((s.streamRejected (streamCtl writer n) w).raise 467) [streamCtl writer n, Reg.SPL_STAT] [467] := by
  have hregs : RegsAndEvents s (s.streamRejected (streamCtl writer n) w) [streamCtl writer n, Reg.SPL_STAT] [] :=
    (RegsAndEvents.setReg h (streamCtl writer n) w).setReg_right (s.rising_setReg _ w h) Reg.SPL_STAT _
  have hspool : ∀ b ∈ [streamCtl writer n, Reg.SPL_STAT], ¬ inEvc b := List.forall_mem_cons.2
    ⟨not_inEvc_of_spool (le_trans (by decide) (le_streamCtl writer n)), List.forall_mem_singleton.2 (not_inEvc_of_spool (by decide))⟩
  exact hregs.raise h (rising_streamRejected _ w h) (now_streamRejected _ w) hspool (by decide)

/-- The report of a refusal reaches the event controller and changes no register of the spool. -/
theorem reg_raise_streamRejected {b : Nat} (hb : 0x10B00000 ≤ b) :
    ((s.streamRejected a w).raise 467).reg b = (s.streamRejected a w).reg b :=
  State.reg_raise_of_outside (rising_streamRejected a w h) (by decide) (not_inEvc_of_spool hb)

end

/-! ### A writer's oldest frame -/

/-- A writer's oldest frame leaves the frames that have not landed. -/
def State.withoutOldest (s : State) (w : Fin 64) : State :=
  { s with spl := { s.spl with frames := s.spl.frames.eraseP (fun f => f.writer == w) } }

theorem State.writerRing_withoutOldest (s : State) (w : Fin 64) (n : Nat) : (s.withoutOldest w).writerRing n = s.writerRing n := rfl

theorem State.frameLands_of_written {s u : State} {f : SplFrame} {e : EngWrite}
    (h : s.engineWrites .spool f.coh f.addr f.bytes = (e, u)) (he : ∀ c a, e ≠ .refused c a) :
    s.frameLands f = u.setReg (Reg.SPL_WWIDX f.writer)
      (BitVec.ofNat 32 ((s.writerRing f.writer).after (s.writerRing f.writer).own)) := by
  rw [State.frameLands, h]
  cases e with
  | refused c a => exact absurd rfl (he c a)
  | done => rfl
  | uncorrectable => rfl
  | held => rfl

theorem State.frameLands_of_refused {s u : State} {f : SplFrame} {c : Nat} {a : Nat}
    (h : s.engineWrites .spool f.coh f.addr f.bytes = (.refused c a, u)) :
    s.frameLands f = (u.writerOverflow f.writer).streamError a := by
  rw [State.frameLands, h]

section
variable {s : State} {w : Fin 64}

theorem exec_writerFrameLanded_of_none (h : s.spl.frames.find? (fun f => f.writer == w) = none) :
    exec (.writerFrameLanded w []) s = .next s := by
  change execWriterFrameLanded w [] s = _
  rw [execWriterFrameLanded, h]

variable {f : SplFrame} (h : s.spl.frames.find? (fun f => f.writer == w) = some f)
include h

theorem exec_writerFrameLanded_of_held (hheld : s.anyHeld (lineSplit (f.bytes.length / 64 + 2) f.addr f.bytes.length) = true) :
    exec (.writerFrameLanded w []) s = .next (s.acceptAll ((lineSplit (f.bytes.length / 64 + 2) f.addr f.bytes.length).map
      (fun p => ⟨.spool, .rt1, .write [], p.1, p.2, f.coh⟩))) := by
  change execWriterFrameLanded w [] s = _
  rw [execWriterFrameLanded, h]
  exact if_pos hheld

theorem exec_writerFrameLanded_of_free (hfree : s.anyHeld (lineSplit (f.bytes.length / 64 + 2) f.addr f.bytes.length) = false) :
    exec (.writerFrameLanded w []) s = .next ((s.withoutOldest w).frameLands f) := by
  change execWriterFrameLanded w [] s = _
  rw [execWriterFrameLanded, h]
  exact if_neg (by simp [hfree])

theorem writer_of_oldest : f.writer = w := by
  simpa using List.find?_some h

end

/-! ### A port that receives -/

theorem exec_tdmReceiveFrame_of_off {s : State} {p : Fin 8} (slots : List Word) (h : Fld.SPL_TDMCTL_RXEN.get s.spl.tdm[p.val] ≠ 1) :
    exec (.tdmReceiveFrame p slots) s = .next s :=
  if_neg h

/-- The state in which port `p` has received the slots `l`. -/
def State.received (s : State) (p : Nat) (l : List Word) : State := s.withSpl { s.spl with rx := Sparse.put p l s.spl.rx }

theorem exec_tdmReceiveFrame_of_on {s : State} {p : Fin 8} (slots : List Word) (h : Fld.SPL_TDMCTL_RXEN.get s.spl.tdm[p.val] = 1) :
    exec (.tdmReceiveFrame p slots) s = .next (s.received p (if (s.inPin (160 + p.val)).isSome then slots else [])) :=
  if_pos h

/-- The inputs of a port are the slots it received last (R353). -/
theorem State.tdmInput_received {s : State} {p : Fin 8} (l : List Word) (hon : Fld.SPL_TDMCTL_RXEN.get s.spl.tdm[p.val] = 1) {k : Nat}
    (hk : k < 16) : (s.received p l).tdmInput (64 + 16 * p.val + k) = (signed 24 ((l.getD k 0).toNat / 256), s.spl.tdm[p.val].getLsbD k) := by
  have hport : (64 + 16 * p.val + k - 64) / 16 = p.val := by omega
  have hslot : (64 + 16 * p.val + k) % 16 = k := by omega
  have htdm : (s.received p l).spl.tdm.getD p.val 0 = s.spl.tdm[p.val] := by simp [State.received, Vector.getD]
  have hrx : Sparse.get p.val (s.received p l).spl.rx = some l := (Sparse.get_put _ _ _ _).trans (if_pos rfl)
  rw [State.tdmInput, hport, hslot, htdm, if_pos hon, hrx]
  rfl

end Sys2Proof.Machine
end

section
namespace Sys2Proof.Proofs
open Machine

/-- Settles O37: first the spool's commands (R352, R356, R370 to R372), then its streams and TDM ports (R353, R359 to R363). -/
theorem spoolCommandsAndStreams : Obligations.SpoolCommandsAndStreams := by
  refine ⟨?commands, ?streams⟩
  case commands =>
    intro s who data ⟨_, hrise, _⟩ st spl signalled rest pending
    refine ⟨fun v off => ?keyOn, fun v => rfl, fun g hrun => ?gain, fun g pc hrun => exec_splGainWrite_of_running who g data hrun,
      fun hfree => ?load, fun hpend => ?loadPending, exec_programLoadEnd_of_not_reading, fun a b hload => ?arrived,
      fun a u hload hheld => exec_programLoadEnd_of_held hload hheld, fun a e read u hload hlines hread hu => ?failed,
      exec_splAbort_of_clear who s, fun habort => ?abort, ?latch⟩
    case keyOn => cases off <;> rfl
    case gain =>
      have hwrite := RegsAndEvents.setReg hrise (Reg.SPL_GAIN g) (data.and 0xFFFF)
      exact ⟨_, exec_splGainWrite_of_idle who g data hrun, (State.reg_withSpl _ _ _).trans (State.reg_setReg_self hrise _ _),
        hwrite.withSpl _, ((OnlySpool.refl s).setReg _ _).withSpl _, rfl⟩
    case load =>
      have hwrite := RegsAndEvents.setReg hrise st (Fld.SPL_STAT_LPEND.put 1 (s.reg st))
      exact ⟨_, exec_programLoad_of_free who data hfree, (State.reg_withSpl _ _ _).trans (State.reg_setFld_self hrise _ _ _),
        State.spl_withSpl _ _, hwrite.withSpl _, ((OnlySpool.refl s).setReg _ _).withSpl _⟩
    case loadPending =>
      have hmarked := s.rising_setFld st Fld.SPL_STAT_LREF 1 hrise
      have hwrite := RegsAndEvents.setReg hrise st (Fld.SPL_STAT_LREF.put 1 (s.reg st))
      have hspool : ∀ a ∈ [st], ¬ inEvc a := List.forall_mem_singleton.2 (not_inEvc_of_spool (by decide))
      exact ⟨_, exec_programLoad_of_pending who data hpend,
        (State.reg_raise_of_outside hmarked (by decide) (not_inEvc_of_spool (by decide))).trans (State.reg_setFld_self hrise _ _ _),
        hwrite.raise hrise hmarked (State.now_setReg _ _ _) hspool (by decide), ((OnlyRegs.refl s).setReg _ _).raise (by decide)⟩
    case arrived =>
      intro coh n hhead
      refine ⟨fun hn => ?badLength, fun c hpos hmax htail => ?image⟩
      case badLength =>
        exact ⟨_, exec_programLoadEnd_of_bad_length hload hhead hn, State.spl_loadFails _ _ _, fun l k => State.signalled_of_loadFails,
          OnlySpool.loadFails _ _ _, State.reg_loadFails_STAT hrise _ _, RegsAndEvents.loadFails hrise _⟩
      case image =>
        intro bank
        obtain ⟨d, e, heq⟩ := s.loadWords_writes bank (programWord (b ++ c)) n
        have hregs : RegsAndEvents s (s.loadWords bank (programWord (b ++ c)) n) ((List.range n).map (fun i => mixAddr bank i)) [] :=
          .of_reg (by rw [heq]) fun a ha => State.reg_loadWords_of_not_mem hrise _ _ ha
        have hother : { s.loadWords bank (programWord (b ++ c)) n with dev := s.dev, ecc := s.ecc, spl := s.spl } = s := by rw [heq]
        exact ⟨_, exec_programLoadEnd_of_image hload hhead (by omega) htail, rfl, rfl,
          fun i hi => (State.reg_withSpl _ _ _).trans (State.reg_loadWords_of_lt hrise _ _ hi), hregs.withSpl _, hother⟩
    case failed =>
      obtain ⟨hlerr, hlpend, hcause⟩ := State.fields_loadFails hu (cause := if read = .refused e then 4 else 5) (by split <;> decide) (some e)
      exact ⟨_, exec_programLoadEnd_of_failed hload hlines hread, by rw [State.spl_loadFails], fun l k => State.signalled_of_loadFails,
        hlerr, hlpend, hcause, State.reg_loadFails_EADRL hu _ _⟩
    case abort =>
      have hexec := exec_splAbort who s habort
      by_cases hpend : pending = true
      · rw [if_pos hpend] at hexec
        exact ⟨_, hexec, (State.reg_psqSignal _ _ _).trans (State.reg_aborted_STAT hrise),
          (State.reg_psqSignal _ _ _).trans (State.reg_aborted_CTRL hrise), (State.spl_psqSignal _ _).trans s.spl_aborted,
          (OnlySpool.aborted s).psqSignal _, fun _ l k => State.signalled_of_psqSignal,
          fun hfree => absurd hpend (ne_true_of_eq_false hfree), (RegsAndEvents.aborted hrise).psqSignal _⟩
      · rw [if_neg hpend] at hexec
        exact ⟨_, hexec, State.reg_aborted_STAT hrise, State.reg_aborted_CTRL hrise, s.spl_aborted, OnlySpool.aborted s,
          fun h => absurd h hpend, fun _ => s.psq_aborted, RegsAndEvents.aborted hrise⟩
    case latch =>
      refine ⟨s.splTslRead who, rfl, rfl, rfl, rfl, State.get_resp_respondWord _ _ _, fun u hu => ⟨?_, ?_⟩⟩
      · rw [State.readSpl_SPL_TSH, hu, State.latches_splTslRead]
        rfl
      · rw [State.readSpl_SPL_SCNT, hu, State.latches_splTslRead]
        rfl
  case streams =>
    intro s who data ⟨_, hrise, _⟩
    refine ⟨fun writer n => ⟨fun hon => ?enabled, fun d hoff hfind => ?disabled⟩, fun w f => ⟨exec_writerFrameLanded_of_none,
      exec_writerFrameLanded_of_held, fun u e hold hfree hwrites => ?landed⟩, fun p slots => exec_tdmReceiveFrame_of_off slots,
      fun p slots hon => ?received⟩
    case enabled =>
      obtain ⟨v, hv, hexec⟩ := exec_streamEnable_of_enabled who data hon
      have hctl := reg_enableWritten hrise hv writer n (bit (data.getLsbD 31))
      exact ⟨_, hexec, flag_enableWritten hrise hv writer n _, (congrArg _ hctl).trans (Fld.put_put _ (by decide) _ _ _),
        regsAndEvents_enableWritten hrise hv writer n _, onlyRegs_enableWritten hv writer n _⟩
    case disabled =>
      have hexec := exec_streamEnable_of_disabled hrise who (data := data) hoff hfind
      intro want bad
      refine ⟨fun hclear => ?plain, fun hset hgood => ?allowed, fun hset hbad => ?refused⟩
      case plain => exact hexec.trans (congrArg _ (if_pos hclear))
      case allowed =>
        have hwritten := s.rising_setReg (streamCtl writer n) want hrise
        refine ⟨_, hexec.trans (congrArg _ ((if_neg (by simp [hset])).trans (if_neg (ne_true_of_eq_false hgood)))), ?_, ?_,
          ((OnlyRegs.refl s).setReg _ _).setReg _ _⟩
        · exact (State.reg_setFld_self hwritten _ _ _).trans (congrArg _ (State.reg_setReg_self hrise _ _))
        · refine .of_reg ((State.setFld_evc _ _ _ _).trans (State.setReg_evc _ _ _)) fun a ha => ?_
          have hne : a ≠ streamCtl writer n := mt List.mem_singleton.2 ha
          exact (State.reg_setFld_of_ne hwritten hne _ _).trans (State.reg_setReg_of_ne hrise hne _)
      case refused =>
        refine ⟨_, hexec.trans (congrArg _ ((if_neg (by simp [hset])).trans (if_pos hbad))), ?_, ?_,
          regsAndEvents_streamRejected writer n want hrise, (onlyRegs_streamRejected _ want).raise (by decide)⟩
        · exact (reg_raise_streamRejected _ want hrise (le_trans (by decide) (le_streamCtl writer n))).trans
            (reg_streamRejected_streamCtl writer n want hrise)
        · exact (reg_raise_streamRejected _ want hrise (by decide)).trans (reg_streamRejected_STAT writer n want hrise)
    case landed =>
      have hexec := exec_writerFrameLanded_of_free hold hfree
      have hwriter : f.writer = w := writer_of_oldest hold
      refine ⟨fun hdone => hexec.trans (congrArg _ ?_), fun c a hrefused => hexec.trans (congrArg _ ?_)⟩
      · rw [State.frameLands_of_written (s := s.withoutOldest w) hwrites hdone, hwriter, State.writerRing_withoutOldest]
      · subst hrefused
        rw [State.frameLands_of_refused (s := s.withoutOldest w) hwrites, hwriter]
    case received =>
      refine ⟨_, exec_tdmReceiveFrame_of_on slots hon, rfl, rfl, fun k hk => ?_⟩
      rw [State.tdmInput_received _ hon hk]
      split
      · rfl
      · rw [List.getD_nil]
        rfl

end Sys2Proof.Proofs
end

section
/-! SUPPORT. Sparse tables and memory of which a part is dropped (R490, R491). -/

namespace Sys2Proof.Machine

/-! ### Sparse tables -/

theorem Sparse.get_eq_none_of_not_mem {α : Type} {k : Nat} {l : List (Nat × α)} (h : ∀ v, (k, v) ∉ l) : Sparse.get k l = none :=
  Option.eq_none_iff_forall_ne_some.2 fun v hv => h v (Sparse.mem_of_get hv)

/-- What is listed for a key after each entry has been kept, changed under its key, or dropped. -/
theorem Sparse.get_filterMap {α β : Type} {f : Nat × α → Option (Nat × β)} (hf : ∀ p q, f p = some q → q.1 = p.1) (k : Nat)
    {l : List (Nat × α)} (h : Sparse.rising l = true) :
    Sparse.get k (l.filterMap f) = (Sparse.get k l).bind fun v => (f (k, v)).map Prod.snd := by
  induction l with
  | nil => rfl
  | cons p t ih =>
    obtain ⟨i, v⟩ := p
    obtain ⟨hlt, hrise⟩ := (Sparse.rising_cons i v t).1 h
    have hbelow : k ≤ i → Sparse.get k t = none := fun hk => Sparse.get_none k t fun q hq => hk.trans_lt (hlt q hq)
    specialize ih hrise
    cases hfi : f (i, v) with
    | none =>
      rw [List.filterMap_cons_none hfi, ih, Sparse.get]
      split
      · next hik => subst hik; simp [hbelow le_rfl, hfi]
      · split
        · next hki => simp [hbelow hki.le]
        · rfl
    | some q =>
      obtain ⟨j, w⟩ := q
      obtain rfl : j = i := hf _ _ hfi
      rw [List.filterMap_cons_some hfi, Sparse.get, Sparse.get, ih]
      split
      · next hjk => subst hjk; simp [hfi]
      · split <;> rfl

theorem Sparse.get_filter_of_kept {α : Type} {keep : Nat → Bool} {k : Nat} (hk : keep k = true) {l : List (Nat × α)}
    (h : Sparse.rising l = true) : Sparse.get k (l.filter fun p => keep p.1) = Sparse.get k l := by
  have hkey (p q : Nat × α) (hp : Option.guard (fun p : Nat × α => keep p.1) p = some q) : q.1 = p.1 := by
    obtain ⟨rfl, -⟩ := Option.guard_eq_some_iff.1 hp
    rfl
  rw [← List.filterMap_eq_filter, Sparse.get_filterMap hkey k h]
  cases Sparse.get k l <;> simp [Option.guard, hk]

theorem Sparse.get_filter_of_dropped {α : Type} {keep : Nat → Bool} {k : Nat} (hk : keep k = false) (l : List (Nat × α)) :
    Sparse.get k (l.filter fun p => keep p.1) = none :=
  Sparse.get_eq_none_of_not_mem fun v hv => by simp [hk] at hv

/-- A register written with another value than its reset value is listed, whatever the table was. -/
theorem State.reg_setReg_of_ne_reset (s : State) {a : Nat} {w : Word} (hw : w ≠ RegMap.reset a) (b : Nat) :
    (s.setReg a w).reg b = if b = a then w else s.reg b := by
  unfold State.setReg State.reg
  rw [if_neg hw, Sparse.get_put]
  split <;> rfl

/-! ### Memory -/

theorem keptMemory_located (a : Nat) : keptMemory (located a) = keptMemory a := by
  by_cases ha : a < 0x1000000000
  · rw [located_of_low ha]
  · have hlow := Nat.le_of_not_lt ha
    simp [keptMemory, hlow, located_of_high hlow]

theorem Memory.read_filter_of_kept {m : List Host.Cell} (h : Memory.wf m = true) {a : Nat} (ha : keptMemory a = true) :
    Memory.read (m.filter fun c => keptMemory c.1) a = Memory.read m a := by
  obtain ⟨hrise, -⟩ := (Bool.and_eq_true _ _).mp h
  rw [Memory.read, Sparse.get_filter_of_kept ((keptMemory_located a).trans ha) hrise, Memory.read]

theorem Memory.read_filter_of_lost (m : List Host.Cell) {a : Nat} (ha : keptMemory a = false) :
    Memory.read (m.filter fun c => keptMemory c.1) a = memDefault a := by
  rw [Memory.read, Sparse.get_filter_of_dropped ((keptMemory_located a).trans ha), Option.getD_none]

end Sys2Proof.Machine
end

section
/-! SUPPORT. The two device resets (R490, R492): what the fabric has accepted is performed, and then the main die takes its reset state. -/

namespace Sys2Proof.Machine

/-! ### What is performed first -/

/-- Everything that the fabric has accepted has been performed, and the presser's row is cut short. -/
def State.finished (s : State) : State := ((List.range 37).foldl (fun s t => s.drainTarget t) s.drainDdr).drainPorts.prsTear

theorem State.drainTarget_of_idle {s : State} (h : s.fab.targets = []) (t : Nat) : s.drainTarget t = s := by
  have harb : s.arb t = Arb.reset := by rw [State.arb, h]; rfl
  have hset : s.setArb t Arb.reset = s := by
    rw [State.setArb, if_pos rfl, h, Sparse.erase, ← h]
  rw [State.drainTarget, harb, hset]
  rfl

theorem State.drainPorts_of_idle {s : State} (h : s.fab.port = []) : s.drainPorts = s := by
  rw [State.drainPorts, h, List.foldl_nil, ← h]

theorem State.prsTear_of_idle {s : State} (h : s.prs.rows = []) : s.prsTear = s := by
  rw [State.prsTear, h]

/-- With nothing accepted and no row in work, there is nothing to perform. -/
theorem State.finished_of_idle {s : State} (htargets : s.fab.targets = []) (hport : s.fab.port = []) (hrows : s.prs.rows = []) :
    s.finished = s := by
  have hdrain := List.foldl_fixed' (State.drainTarget_of_idle htargets)
  rw [State.finished, State.drainDdr, hdrain, hdrain, State.drainPorts_of_idle hport, State.prsTear_of_idle hrows]

/-! ### The reset state -/

/-- The state with another mailbox writer. -/
def State.withSelm (s : State) (x : Selm) : State := { s with selm := x }

theorem State.reg_withSelm (s : State) (x : Selm) (a : Nat) : (s.withSelm x).reg a = s.reg a := rfl

theorem State.readyFalls_eq (s : State) :
    s.readyFalls = if s.flag Reg.SELM_MSTAT Fld.SELM_MSTAT_READY = true then
      (s.setFlds Reg.SELM_MSTAT [(Fld.SELM_MSTAT_READY, 0), (Fld.SELM_MSTAT_WAIT, 0)]).withSelm { s.selm with writing := false, fell := true }
      else s := rfl

theorem State.setFlds_writes (s : State) (a : Nat) (l : List (Fld × Nat)) : ∃ d, s.setFlds a l = { s with dev := d } := ⟨_, rfl⟩

theorem State.readyFalls_writes (s : State) : ∃ d x, s.readyFalls = { s with dev := d, selm := x } := by
  rw [State.readyFalls_eq]
  split
  · obtain ⟨d, hd⟩ := s.setFlds_writes Reg.SELM_MSTAT [(Fld.SELM_MSTAT_READY, 0), (Fld.SELM_MSTAT_WAIT, 0)]
    exact ⟨d, _, by rw [hd, State.withSelm]⟩
  · exact ⟨s.dev, s.selm, rfl⟩

/-- The state with the clocks `clocks` running. -/
def State.withClocks (s : State) (clocks : BitVec 14) : State := { s with sys := { s.sys with clocks := clocks } }

theorem exec_pwronRstN (s : State) : exec .pwronRstN s = .next (s.stopAll 1) := rfl

theorem exec_sysRstN (s : State) : exec .sysRstN s = .next ((s.stopAll 2).withClocks (s.sys.clocks &&& keptClocks)) := rfl

theorem exec_sysrst_of_lining {who : Who} (h : who.lining = true) (s : State) :
    exec (.sysrst who) s = .next ((s.stopAll 3).withClocks (s.sys.clocks &&& keptClocks)) := by
  change execSysrst who s = _
  rw [execSysrst, if_pos h, State.sysReset, State.withClocks]

theorem exec_sysrst_of_plain {who : Who} (h : who.lining = false) (s : State) : exec (.sysrst who) s = .next s := by
  change execSysrst who s = _
  rw [execSysrst, if_neg (ne_true_of_eq_false h)]

/-- The engines and the registers of the main die are in the reset state, but for the cause that SYS_RSTSTAT shows. -/
def State.Fresh (t : State) (cause : Nat) : Prop :=
  t.ctxs = State.reset.ctxs ∧ t.cores = State.reset.cores ∧ t.quads = State.reset.quads ∧ t.psq = State.reset.psq ∧
  t.spl = State.reset.spl ∧ t.seam = State.reset.seam ∧ t.evc = State.reset.evc ∧ t.tmr = State.reset.tmr ∧ t.sys.boot = .held ∧
  t.reg Reg.SYS_RSTSTAT = Fld.SYS_RSTSTAT_CAUSE.put cause (RegMap.reset Reg.SYS_RSTSTAT) ∧
  ∀ a, a ≠ Reg.SYS_RSTSTAT → t.reg a = RegMap.reset a

/-- What a device reset leaves of the memories and, with nothing to perform first, of the island and the queue of commands. -/
def State.Keeps (s t : State) : Prop :=
  (∀ a, keptMemory a = false → Memory.read t.mem a = memDefault a) ∧
  (s.fab.targets = [] → s.fab.port = [] → s.prs.rows = [] → t.isl = s.isl ∧ t.pending = s.pending ∧
    ∀ a, keptMemory a = true → Memory.read t.mem a = Memory.read s.mem a)

theorem State.reg_of_dev_nil {s : State} (h : s.dev = []) (a : Nat) : s.reg a = RegMap.reset a := by
  rw [State.reg, h]
  rfl

theorem State.reg_deviceReset (s : State) (cause a : Nat) :
    (s.deviceReset cause).reg a = if a = Reg.SYS_RSTSTAT then
      Fld.SYS_RSTSTAT_CAUSE.put cause (RegMap.reset Reg.SYS_RSTSTAT) else RegMap.reset a := by
  unfold State.deviceReset
  rw [State.reg_setFld _ _ _ _ _ rfl, State.reg_of_dev_nil rfl, State.reg_of_dev_nil rfl]

theorem State.isl_deviceReset (s : State) (cause : Nat) : (s.deviceReset cause).isl = s.isl := by
  obtain ⟨d, x, heq⟩ := s.readyFalls_writes
  unfold State.deviceReset
  rw [State.setFld_isl, heq]

theorem State.pending_deviceReset (s : State) (cause : Nat) : (s.deviceReset cause).pending = s.pending := by
  obtain ⟨d, x, heq⟩ := s.readyFalls_writes
  unfold State.deviceReset
  rw [State.setFld_pending, heq]

/-- The state with other memory. -/
def State.withMemory (s : State) (m : List Host.Cell) (e : List (Nat × Flips)) : State := { s with mem := m, ecc := e }

theorem State.reg_withMemory (s : State) (m : List Host.Cell) (e : List (Nat × Flips)) (a : Nat) : (s.withMemory m e).reg a = s.reg a := rfl

theorem State.stopAll_eq (s : State) (cause : Nat) :
    s.stopAll cause = (s.finished.deviceReset cause).withMemory (s.finished.mem.filter fun c => keptMemory c.1)
      (s.finished.ecc.filter fun e => keptMemory e.1) := rfl

theorem State.reg_stopAll (s : State) (cause a : Nat) :
    (s.stopAll cause).reg a = if a = Reg.SYS_RSTSTAT then
      Fld.SYS_RSTSTAT_CAUSE.put cause (RegMap.reset Reg.SYS_RSTSTAT) else RegMap.reset a := by
  rw [State.stopAll_eq, State.reg_withMemory, State.reg_deviceReset]

theorem State.fresh_stopAll (s : State) (cause : Nat) : (s.stopAll cause).Fresh cause :=
  ⟨rfl, rfl, rfl, rfl, rfl, rfl, rfl, rfl, rfl, (s.reg_stopAll cause _).trans (if_pos rfl),
    fun a ha => (s.reg_stopAll cause a).trans (if_neg ha)⟩

theorem State.mem_stopAll (s : State) (cause : Nat) : (s.stopAll cause).mem = s.finished.mem.filter fun c => keptMemory c.1 := by
  rw [State.stopAll_eq, State.withMemory]

theorem State.isl_stopAll (s : State) (cause : Nat) : (s.stopAll cause).isl = s.finished.isl := by
  rw [State.stopAll_eq, State.withMemory, State.isl_deviceReset]

theorem State.pending_stopAll (s : State) (cause : Nat) : (s.stopAll cause).pending = s.finished.pending := by
  rw [State.stopAll_eq, State.withMemory, State.pending_deviceReset]

theorem State.keeps_stopAll {s : State} (h : Memory.wf s.mem = true) (cause : Nat) : s.Keeps (s.stopAll cause) := by
  refine ⟨fun a ha => ?_, fun htargets hport hrows => ?_⟩
  · rw [State.mem_stopAll, Memory.read_filter_of_lost _ ha]
  · have hidle := State.finished_of_idle htargets hport hrows
    rw [State.isl_stopAll, State.pending_stopAll, State.mem_stopAll, hidle]
    exact ⟨rfl, rfl, fun a ha => Memory.read_filter_of_kept h ha⟩

theorem State.Fresh.withClocks {t : State} {cause : Nat} (h : t.Fresh cause) (clocks : BitVec 14) : (t.withClocks clocks).Fresh cause := h

theorem State.Keeps.withClocks {s t : State} (h : s.Keeps t) (clocks : BitVec 14) : s.Keeps (t.withClocks clocks) := h

end Sys2Proof.Machine
end

section
/-! SUPPORT. The reset of one block (R491): what becomes of its window, of the registers outside it, and of the rest of the device. -/

namespace Sys2Proof.Machine

/-- An address lies in the window of a block (R17). -/
def Block.Window (b : Block) (a : Nat) : Prop := b.base ≤ a ∧ a < b.base + 0x100000

theorem Block.blockIndex_of_window {b : Block} {a : Nat} (h : b.Window a) : blockIndex a = b.index := by
  obtain ⟨hlo, hhi⟩ := h
  unfold Block.base at hlo hhi
  unfold blockIndex
  omega

/-! ### The window -/

/-- What the reset of block `b` leaves of a listed register. -/
def Block.keeps (b : Block) (p : Nat × Word) : Option (Nat × Word) :=
  if b.base ≤ p.1 ∧ p.1 < b.base + 0x100000 then
    if lockOf p.1 = some p.1 ∧ p.2.getLsbD 31 = true then some (p.1, RegMap.reset p.1 ||| 0x80000000) else none
  else some p

theorem State.dev_clearWindow (s : State) (b : Block) : (s.clearWindow b).dev = s.dev.filterMap b.keeps := rfl

theorem Block.keeps_of_outside {b : Block} {a : Nat} (h : ¬ b.Window a) (w : Word) : b.keeps (a, w) = some (a, w) := if_neg h

theorem Block.keeps_of_locked {b : Block} {a : Nat} {w : Word} (h : b.Window a) (hlock : lockOf a = some a) (hw : w.getLsbD 31 = true) :
    b.keeps (a, w) = some (a, RegMap.reset a ||| 0x80000000) := (if_pos h).trans (if_pos ⟨hlock, hw⟩)

theorem Block.keeps_of_unlocked {b : Block} {a : Nat} {w : Word} (h : b.Window a) (hfree : ¬ (lockOf a = some a ∧ w.getLsbD 31 = true)) :
    b.keeps (a, w) = none := (if_pos h).trans (if_neg hfree)

theorem Block.keeps_key {b : Block} (p q : Nat × Word) (h : b.keeps p = some q) : q.1 = p.1 := by
  obtain ⟨a, w⟩ := p
  by_cases hin : b.Window a
  · by_cases hlock : lockOf a = some a ∧ w.getLsbD 31 = true
    · cases (Block.keeps_of_locked hin hlock.1 hlock.2).symm.trans h
      rfl
    · cases (Block.keeps_of_unlocked hin hlock).symm.trans h
  · cases (Block.keeps_of_outside hin w).symm.trans h
    rfl

theorem State.reg_clearWindow {s : State} (h : Sparse.rising s.dev = true) (b : Block) (a : Nat) :
    (s.clearWindow b).reg a = ((Sparse.get a s.dev).bind fun w => (b.keeps (a, w)).map Prod.snd).getD (RegMap.reset a) := by
  rw [State.reg, State.dev_clearWindow, Sparse.get_filterMap Block.keeps_key a h]

theorem State.reg_clearWindow_of_outside {s : State} (h : Sparse.rising s.dev = true) {b : Block} {a : Nat} (hout : ¬ b.Window a) :
    (s.clearWindow b).reg a = s.reg a := by
  rw [State.reg_clearWindow h, State.reg]
  simp only [Block.keeps_of_outside hout, Option.map_some, Option.bind_fun_some]

/-- A register of the window that holds no lock takes its reset value, whatever the table was. -/
theorem State.reg_clearWindow_of_no_lock (s : State) {b : Block} {a : Nat} (hin : b.Window a) (hlock : lockOf a ≠ some a) :
    (s.clearWindow b).reg a = RegMap.reset a := by
  have hnone : Sparse.get a (s.clearWindow b).dev = none := Sparse.get_eq_none_of_not_mem fun v hv => by
    obtain ⟨⟨i, w⟩, -, hkept⟩ := List.mem_filterMap.1 hv
    obtain rfl : a = i := Block.keeps_key _ _ hkept
    cases (Block.keeps_of_unlocked hin fun hl => hlock hl.1).symm.trans hkept
  rw [State.reg, hnone, Option.getD_none]

theorem or_bit31_of_getLsbD {w : Word} (h : w.getLsbD 31 = true) : w ||| 0x80000000 = w := by
  have hbit : (0x80000000 : Word) = BitVec.twoPow 32 31 := by decide
  refine BitVec.eq_of_getLsbD_eq fun i _ => ?_
  rw [hbit, BitVec.getLsbD_or, BitVec.getLsbD_twoPow]
  by_cases hi : 31 = i
  · subst hi
    simp [h]
  · simp [hi]

/-- A register that holds a lock takes its reset value with the lock as it was. -/
theorem State.reg_clearWindow_of_lock {s : State} (h : Sparse.rising s.dev = true) {b : Block} {a : Nat} (hin : b.Window a)
    (hlock : lockOf a = some a) :
    (s.clearWindow b).reg a = if (s.reg a).getLsbD 31 = true then RegMap.reset a ||| 0x80000000 else RegMap.reset a := by
  rw [State.reg_clearWindow h, State.reg]
  cases Sparse.get a s.dev with
  | none =>
    rw [Option.bind_none, Option.getD_none]
    split
    · next hset => exact (or_bit31_of_getLsbD hset).symm
    · rfl
  | some w =>
    rw [Option.bind_some, Option.getD_some]
    split
    · next hset => rw [Block.keeps_of_locked hin hlock hset, Option.map_some, Option.getD_some]
    · next hclear => rw [Block.keeps_of_unlocked hin fun hl => hclear hl.2, Option.map_none, Option.getD_none]

/-! ### What comes before and after the window is cleared -/

/-- What the block does before its window is cleared: the presser stops, and the mailbox's READY falls. -/
def State.blockStopped (s : State) (b : Block) : State :=
  let s := if b = .prs then s.prsTear else s
  if b = .selm then s.readyFalls else s

theorem State.blockStopped_of_ne (s : State) {b : Block} (hprs : b ≠ .prs) (hselm : b ≠ .selm) : s.blockStopped b = s := by
  rw [State.blockStopped, if_neg hprs, if_neg hselm]

theorem State.blockStopped_selm (s : State) : s.blockStopped .selm = s.readyFalls := by
  simp only [State.blockStopped, reduceCtorEq, if_false, if_true]

theorem State.letGo_writes (s : State) (who : Who) : ∃ f, s.letGo who = { s with fab := f } := by
  have huse : ∃ f, s.useGot who = { s with fab := f } := by
    unfold State.useGot
    split
    · exact ⟨_, rfl⟩
    · exact ⟨s.fab, rfl⟩
  obtain ⟨f, hf⟩ := huse
  rw [State.letGo, hf, State.forget]
  split
  · exact ⟨_, rfl⟩
  · exact ⟨f, rfl⟩

theorem State.letGo_shuttles_writes (l : List (Fin 64)) (s : State) :
    ∃ f, l.foldl (fun s n => s.letGo (.shuttle n)) s = { s with fab := f } := by
  induction l generalizing s with
  | nil => exact ⟨s.fab, rfl⟩
  | cons n l ih =>
    obtain ⟨f, hf⟩ := s.letGo_writes (.shuttle n)
    rw [List.foldl_cons, hf]
    exact ih { s with fab := f }

theorem State.blockReset_shu (s : State) :
    ∃ f, s.blockReset .shu = { s.clearWindow .shu with fab := f, shus := Vector.replicate 64 Shu.reset } := by
  obtain ⟨f, hf⟩ := State.letGo_shuttles_writes (List.finRange 64) (s.clearWindow .shu)
  exact ⟨f, by simp only [State.blockReset, reduceCtorEq, if_false, hf]⟩

theorem State.blockReset_prs (s : State) : ∃ f, s.blockReset .prs = { s.prsTear.clearWindow .prs with fab := f, prs := Prs.reset } := by
  obtain ⟨f, hf⟩ := (s.prsTear.clearWindow .prs).letGo_writes .presser
  exact ⟨f, by simp only [State.blockReset, reduceCtorEq, if_false, if_true, hf]⟩

theorem State.dev_blockReset (s : State) (b : Block) : (s.blockReset b).dev = ((s.blockStopped b).clearWindow b).dev := by
  cases b
  case shu =>
    obtain ⟨f, hf⟩ := s.blockReset_shu
    rw [hf]
    rfl
  case prs =>
    obtain ⟨f, hf⟩ := s.blockReset_prs
    rw [hf]
    rfl
  all_goals rfl

/-- A block's reset leaves the cores alone, and memory but for the seam engine's; the row that the presser's reset cuts short may reach both. -/
theorem State.blockReset_frame (s : State) {b : Block} (hprs : b ≠ .prs) :
    (s.blockReset b).ctxs = s.ctxs ∧ (s.blockReset b).quads = s.quads ∧ (b ≠ .seam → (s.blockReset b).mem = s.mem) := by
  cases b
  case prs => exact absurd rfl hprs
  case shu =>
    obtain ⟨f, hf⟩ := s.blockReset_shu
    rw [hf]
    exact ⟨rfl, rfl, fun _ => rfl⟩
  case selm =>
    obtain ⟨d, x, hfalls⟩ := s.readyFalls_writes
    simp only [State.blockReset, reduceCtorEq, if_false, if_true, hfalls]
    exact ⟨rfl, rfl, fun _ => rfl⟩
  case seam => exact ⟨rfl, rfl, fun h => absurd rfl h⟩
  all_goals exact ⟨rfl, rfl, fun _ => rfl⟩

/-! ### The registers -/

theorem State.reg_blockReset (s : State) (b : Block) (a : Nat) : (s.blockReset b).reg a = ((s.blockStopped b).clearWindow b).reg a := by
  rw [State.reg, State.dev_blockReset, ← State.reg]

theorem State.rising_readyFalls {s : State} (h : Sparse.rising s.dev = true) : Sparse.rising s.readyFalls.dev = true := by
  rw [State.readyFalls_eq]
  split
  · exact s.rising_setFlds _ _ h
  · exact h

theorem State.reg_readyFalls_of_ne {s : State} (h : Sparse.rising s.dev = true) {a : Nat} (ha : a ≠ Reg.SELM_MSTAT) :
    s.readyFalls.reg a = s.reg a := by
  rw [State.readyFalls_eq]
  split
  · rw [State.reg_withSelm, State.reg_setFlds _ _ _ _ h, if_neg ha]
  · rfl

/-- The windows of the presser and of the mailbox hold no LOCK. -/
theorem lockOf_of_window {b : Block} (hb : b = .prs ∨ b = .selm) {a : Nat} (h : b.Window a) : lockOf a = none := by
  have hindex := Block.blockIndex_of_window h
  rcases hb with rfl | rfl <;> rw [lockOf, hindex] <;> rfl

theorem State.reg_blockReset_of_window {s : State} (h : Sparse.rising s.dev = true) {b : Block} {a : Nat} (hin : b.Window a) :
    (s.blockReset b).reg a =
      if lockOf a = some a ∧ (s.reg a).getLsbD 31 = true then RegMap.reset a ||| 0x80000000 else RegMap.reset a := by
  rw [State.reg_blockReset]
  by_cases hlock : lockOf a = some a
  · have hb : ¬ (b = .prs ∨ b = .selm) := fun hb => by simp [lockOf_of_window hb hin] at hlock
    obtain ⟨hprs, hselm⟩ := not_or.1 hb
    rw [State.blockStopped_of_ne s hprs hselm, State.reg_clearWindow_of_lock h hin hlock]
    simp only [hlock, true_and]
  · rw [State.reg_clearWindow_of_no_lock _ hin hlock, if_neg fun hl => hlock hl.1]

theorem State.reg_blockReset_of_outside {s : State} (h : Sparse.rising s.dev = true) {b : Block} (hprs : b ≠ .prs) {a : Nat}
    (hout : ¬ b.Window a) (hselm : b = .selm → a ≠ Reg.SELM_MSTAT) : (s.blockReset b).reg a = s.reg a := by
  rw [State.reg_blockReset]
  by_cases hb : b = .selm
  · subst hb
    rw [State.blockStopped_selm, State.reg_clearWindow_of_outside (State.rising_readyFalls h) hout, State.reg_readyFalls_of_ne h (hselm rfl)]
  · rw [State.blockStopped_of_ne s hprs hb, State.reg_clearWindow_of_outside h hout]

/-! ### The command -/

theorem State.mem_clearing_beginClearing (s : State) (b k : Block) :
    k ∈ (s.beginClearing b).fab.clearing ↔ k = b ∨ k ∈ s.fab.clearing := by
  rw [State.beginClearing]
  dsimp only
  split
  · next hb =>
    have hmem : b ∈ s.fab.clearing := by simpa using hb
    exact ⟨.inr, fun hk => hk.elim (fun heq => heq ▸ hmem) id⟩
  · simp [or_comm]

/-- The state in which the reset of a block has begun. -/
def State.blockClears (s : State) (b : Block) : State :=
  let u := (s.blockReset b).beginClearing b
  u.setFld Reg.SYS_RSTCTL Fld.SYS_RSTCTL_BRST (u.fld Reg.SYS_RSTCTL Fld.SYS_RSTCTL_BRST ||| 2 ^ b.index)

theorem State.setFld_writes (s : State) (a : Nat) (f : Fld) (v : Nat) : ∃ d, s.setFld a f v = { s with dev := d } := ⟨_, rfl⟩

theorem State.blockClears_writes (s : State) (b : Block) : ∃ d f, s.blockClears b = { s.blockReset b with dev := d, fab := f } := by
  rw [State.blockClears]
  obtain ⟨d, hd⟩ := ((s.blockReset b).beginClearing b).setFld_writes Reg.SYS_RSTCTL Fld.SYS_RSTCTL_BRST
    (((s.blockReset b).beginClearing b).fld Reg.SYS_RSTCTL Fld.SYS_RSTCTL_BRST ||| 2 ^ b.index)
  exact ⟨d, _, by rw [hd, State.beginClearing]⟩

theorem exec_brst (who : Who) (b : Block) (s : State) :
    exec (.brst who b) s = .next (if who.lining then if b.resettable && !s.blockOff b then s.blockClears b else s else s) := rfl

theorem exec_brst_of_lining {who : Who} {b : Block} {s : State} (hlining : who.lining = true) (hres : b.resettable = true)
    (hon : s.blockOff b = false) : exec (.brst who b) s = .next (s.blockClears b) := by
  rw [exec_brst, if_pos hlining, hres, hon]
  rfl

theorem exec_brst_of_plain {who : Who} (h : who.lining = false) (b : Block) (s : State) : exec (.brst who b) s = .next s := by
  rw [exec_brst, if_neg (ne_true_of_eq_false h)]

theorem exec_brst_of_ignored (who : Who) {b : Block} {s : State} (h : b.resettable = false ∨ s.blockOff b = true) :
    exec (.brst who b) s = .next s := by
  have hoff : ¬ (b.resettable && !s.blockOff b) = true := by rcases h with h | h <;> simp [h]
  rw [exec_brst, if_neg hoff, ite_self]

theorem State.mem_clearing_blockClears (s : State) (b : Block) : b ∈ (s.blockClears b).fab.clearing :=
  (State.mem_clearing_beginClearing _ b b).2 (.inl rfl)

theorem Block.index_of_resettable {b : Block} (h : b.resettable = true) : 0 < b.index ∧ b.index < 18 := by
  cases b <;> simp_all [Block.resettable, Block.index]

theorem getLsbD_put_BRST {i : Nat} (hi : i < 18) (v : Nat) (w : Word) : (Fld.SYS_RSTCTL_BRST.put (v ||| 2 ^ i) w).getLsbD i = true := by
  rw [Fld.getLsbD_put _ (by decide), if_pos ⟨Nat.zero_le i, hi⟩]
  simp [Fld.SYS_RSTCTL_BRST, Nat.testBit_or, Nat.testBit_two_pow_self]

theorem State.reg_blockClears (s : State) {b : Block} (h : b.resettable = true) (a : Nat) :
    (s.blockClears b).reg a = if a = Reg.SYS_RSTCTL then
      Fld.SYS_RSTCTL_BRST.put ((s.blockReset b).fld Reg.SYS_RSTCTL Fld.SYS_RSTCTL_BRST ||| 2 ^ b.index) ((s.blockReset b).reg Reg.SYS_RSTCTL)
      else (s.blockReset b).reg a := by
  obtain ⟨-, hindex⟩ := Block.index_of_resettable h
  refine State.reg_setReg_of_ne_reset _ (fun hreset => ?_) a
  have hbit := congrArg (fun w : Word => w.getLsbD b.index) hreset
  have hzero : RegMap.reset Reg.SYS_RSTCTL = 0 := by decide
  simp [getLsbD_put_BRST hindex, hzero] at hbit

theorem State.getLsbD_RSTCTL_blockClears (s : State) {b : Block} (h : b.resettable = true) :
    ((s.blockClears b).reg Reg.SYS_RSTCTL).getLsbD b.index = true := by
  rw [State.reg_blockClears s h, if_pos rfl]
  exact getLsbD_put_BRST (Block.index_of_resettable h).2 _ _

theorem State.reg_blockClears_of_ne (s : State) {b : Block} (h : b.resettable = true) {a : Nat} (ha : a ≠ Reg.SYS_RSTCTL) :
    (s.blockClears b).reg a = (s.blockReset b).reg a := (s.reg_blockClears h a).trans (if_neg ha)

theorem Block.ne_RSTCTL_of_window {b : Block} (h : b.resettable = true) {a : Nat} (hin : b.Window a) : a ≠ Reg.SYS_RSTCTL := by
  obtain ⟨hpos, -⟩ := Block.index_of_resettable h
  obtain ⟨hlo, -⟩ := hin
  unfold Block.base at hlo
  unfold Reg.SYS_RSTCTL
  omega

end Sys2Proof.Machine
end

section
/-! SUPPORT. The release of a reset (R490, R494, R514): the straps, and what the release writes. -/

namespace Sys2Proof.Machine

/-! ### The straps -/

/-- What the equipment drives a strap's ball to, where it pulls it up or lets it go. -/
def strapPulled (up : Bool) (o : Option Bool) : Option Bool := if up then some true else if o = some true then none else o

theorem strapPulled_getD (up : Bool) (o : Option Bool) : (strapPulled up o).getD false = up := by
  rcases o with _ | _ | _ <;> cases up <;> rfl

theorem vectorGetD_set {α : Type} {n : Nat} (v : Vector α n) {p : Nat} (hp : p < n) (o d : α) (q : Nat) :
    (v.set! p o).getD q d = if q = p then o else v.getD q d := by
  simp only [Vector.getD, Vector.set!, Array.getD_eq_getD_getElem?, Array.set!_eq_setIfInBounds, Array.getElem?_setIfInBounds,
    Vector.size_toArray, hp, if_true, eq_comm (a := p)]
  split <;> rfl

theorem State.pullStraps_writes (s : State) (straps : BitVec 3) :
    ∃ o, s.pullStraps straps = { s with pins := { s.pins with outside := o } } := ⟨_, rfl⟩

theorem State.outside_pullStraps (s : State) (straps : BitVec 3) {p : Nat} (hp : p < 3) :
    (s.pullStraps straps).pins.outside.getD p none = strapPulled (straps.getLsbD p) (s.pins.outside.getD p none) := by
  simp only [State.pullStraps, List.foldl_cons, List.foldl_nil, vectorGetD_set, (by decide : 0 < 160), (by decide : 1 < 160),
    (by decide : 2 < 160)]
  interval_cases p <;> rfl

/-- In a reset the device drives no pin, and a ball that the equipment does not drive reads 0. -/
theorem State.ballLevel_of_pinsReset {s : State} (h : s.pinsReset = true) (p : Nat) :
    s.ballLevel p = (s.pins.outside.getD p none).getD false := by
  have hdrive : s.pinDrive p = none := by
    unfold State.pinDrive
    rw [if_pos h]
  unfold State.ballLevel
  rw [hdrive, if_pos h]
  cases s.pins.outside.getD p none <;> rfl

theorem State.ballLevel_pullStraps {s : State} (h : s.pinsReset = true) (straps : BitVec 3) {p : Nat} (hp : p < 3) :
    (s.pullStraps straps).ballLevel p = straps.getLsbD p := by
  have hreset : (s.pullStraps straps).pinsReset = true := h
  rw [State.ballLevel_of_pinsReset hreset, State.outside_pullStraps s straps hp, strapPulled_getD]

theorem ofNat_bits (v : BitVec 3) : BitVec.ofNat 3 (bit (v.getLsbD 0) + 2 * bit (v.getLsbD 1) + 4 * bit (v.getLsbD 2)) = v := by
  revert v
  decide

theorem State.strapLevels_pullStraps {s : State} (h : s.pinsReset = true) (straps : BitVec 3) :
    (s.pullStraps straps).strapLevels = straps := by
  rw [State.strapLevels, State.ballLevel_pullStraps h straps (by decide), State.ballLevel_pullStraps h straps (by decide),
    State.ballLevel_pullStraps h straps (by decide), ofNat_bits]

/-! ### The command -/

/-- The registers after the straps have been sampled as `straps`. -/
def State.strapped (s : State) (straps : BitVec 3) : State :=
  (s.setReg Reg.SYS_STRAP (straps.zeroExtend 32)).setFld Reg.HYC_LSCTL Fld.HYC_LSCTL_ACTIVE (bit (straps.getLsbD 2 && !Config.variantN))

/-- A release lets the boot begin, and blocks clear themselves. -/
def State.letRun (s : State) : State :=
  [Block.psq, .spl, .seam, .fab].foldl (fun s b => s.beginClearing b) { s with sys := { s.sys with boot := .released } }

theorem exec_resetRelease_of_held {s : State} (hheld : s.sys.boot = .held) (hpins : s.pinsReset = true) (straps : BitVec 3) :
    exec (.resetRelease straps) s = .next ((s.pullStraps straps).strapped straps).letRun := by
  change execResetRelease straps s = _
  unfold execResetRelease
  rw [if_pos hheld]
  dsimp only
  rw [State.strapLevels_pullStraps hpins, ← State.strapped, ← State.letRun]

theorem exec_resetRelease_of_not_held {s : State} (h : s.sys.boot ≠ .held) (straps : BitVec 3) :
    exec (.resetRelease straps) s = .next s := if_neg h

theorem State.sys_letRun (s : State) : s.letRun.sys = { s.sys with boot := .released } := rfl

theorem State.evc_letRun (s : State) : s.letRun.evc = s.evc := rfl

theorem State.reg_letRun (s : State) (a : Nat) : s.letRun.reg a = s.reg a := rfl

theorem State.lockstep_letRun (s : State) : s.letRun.lockstep = s.lockstep := rfl

theorem State.mem_clearing_letRun (s : State) {k : Block} (hk : k ∈ [Block.psq, .spl, .seam, .fab]) : k ∈ s.letRun.fab.clearing := by
  simp only [State.letRun, List.foldl_cons, List.foldl_nil, State.mem_clearing_beginClearing]
  simp only [List.mem_cons, List.not_mem_nil, or_false] at hk
  tauto

theorem State.sys_strapped (s : State) (straps : BitVec 3) : (s.strapped straps).sys = s.sys := by
  rw [State.strapped, State.setFld_sys, State.setReg_sys]

theorem State.evc_strapped (s : State) (straps : BitVec 3) : (s.strapped straps).evc = s.evc := by
  rw [State.strapped, State.setFld_evc, State.setReg_evc]

theorem State.reg_strapped {s : State} (h : Sparse.rising s.dev = true) (straps : BitVec 3) (a : Nat) :
    (s.strapped straps).reg a = if a = Reg.HYC_LSCTL then
        Fld.HYC_LSCTL_ACTIVE.put (bit (straps.getLsbD 2 && !Config.variantN)) (s.reg Reg.HYC_LSCTL)
      else if a = Reg.SYS_STRAP then straps.zeroExtend 32 else s.reg a := by
  have hapart : Reg.HYC_LSCTL ≠ Reg.SYS_STRAP := by decide
  rw [State.strapped, State.reg_setFld _ _ _ _ _ (s.rising_setReg _ _ h), State.reg_setReg _ _ _ _ h, State.reg_setReg _ _ _ _ h,
    if_neg hapart]

theorem State.lockstep_strapped {s : State} (h : Sparse.rising s.dev = true) (straps : BitVec 3) :
    (s.strapped straps).lockstep = (straps.getLsbD 2 && !Config.variantN) := by
  have hget (v : Bool) (w : Word) : Fld.HYC_LSCTL_ACTIVE.get (Fld.HYC_LSCTL_ACTIVE.put (bit v) w) = bit v :=
    Fld.get_put _ (by decide) (by cases v <;> decide) w
  rw [State.lockstep, State.flag, State.fld, State.reg_strapped h, if_pos rfl, hget]
  cases straps.getLsbD 2 && !Config.variantN <;> rfl

end Sys2Proof.Machine
end

section
namespace Sys2Proof.Proofs
open Machine

/-- Settles O54: the device resets, the reset of a block, and the release. -/
theorem resetsAndRelease : Obligations.ResetsAndRelease := by
  intro s who b straps ⟨hmem, hrise, _⟩ rs fresh warm
  have hfresh (cause : Nat) (clocks : BitVec 14) : ((s.stopAll cause).withClocks clocks).Fresh cause :=
    (s.fresh_stopAll cause).withClocks clocks
  have hkeeps (cause : Nat) (clocks : BitVec 14) : s.Keeps ((s.stopAll cause).withClocks clocks) :=
    (State.keeps_stopAll hmem cause).withClocks clocks
  refine ⟨⟨_, exec_pwronRstN s, s.fresh_stopAll 1, rfl, State.keeps_stopAll hmem 1⟩,
    ⟨_, exec_sysRstN s, hfresh 2 _, rfl, hkeeps 2 _⟩, fun hlining => ⟨_, exec_sysrst_of_lining hlining s, hfresh 3 _, rfl, hkeeps 3 _⟩,
    fun hplain => ⟨exec_sysrst_of_plain hplain s, exec_brst_of_plain hplain b s⟩, exec_brst_of_ignored who, fun hlining hres hon => ?block,
    fun hheld => exec_resetRelease_of_not_held hheld straps, fun hheld hpins => ?release⟩
  case block =>
    obtain ⟨d, f, hbegun⟩ := s.blockClears_writes b
    refine ⟨_, exec_brst_of_lining hlining hres hon, s.mem_clearing_blockClears b, s.getLsbD_RSTCTL_blockClears hres, fun hprs => ?cores,
      fun a hlo hhi => ?window, fun hprs hseam => ?memory, ?shuttles, ?spool, ?sequencer, ?timers, fun hprs a hout hctl hselm => ?outside⟩
    case cores =>
      obtain ⟨hctxs, hquads, -⟩ := s.blockReset_frame hprs
      rw [hbegun]
      exact ⟨hctxs, hquads⟩
    case window =>
      have hin : b.Window a := ⟨hlo, hhi⟩
      rw [s.reg_blockClears_of_ne hres (Block.ne_RSTCTL_of_window hres hin), State.reg_blockReset_of_window hrise hin]
    case memory =>
      obtain ⟨-, -, hsame⟩ := s.blockReset_frame hprs
      rw [hbegun]
      exact hsame hseam
    case shuttles =>
      rintro rfl n
      obtain ⟨f', hshu⟩ := s.blockReset_shu
      rw [hbegun, hshu]
      rfl
    case spool => rintro rfl; rw [hbegun]; rfl
    case sequencer => rintro rfl; rw [hbegun]; rfl
    case timers => rintro rfl; rw [hbegun]; rfl
    case outside =>
      have hnot : ¬ b.Window a := fun ⟨hlo, hhi⟩ => by omega
      rw [s.reg_blockClears_of_ne hres hctl, State.reg_blockReset_of_outside hrise hprs hnot hselm]
  case release =>
    obtain ⟨o, hpull⟩ := s.pullStraps_writes straps
    have hreg (a : Nat) : (s.pullStraps straps).reg a = s.reg a := by rw [hpull]; rfl
    have hrise' : Sparse.rising (s.pullStraps straps).dev = true := by rw [hpull]; exact hrise
    refine ⟨_, exec_resetRelease_of_held hheld hpins straps, ?sys, ?strap, ?lockstep,
      .of_reg ?evc fun a ha => ?others, fun k => State.mem_clearing_letRun _⟩
    case sys => rw [State.sys_letRun, State.sys_strapped, hpull]
    case strap => rw [State.reg_letRun, State.reg_strapped hrise', if_neg (by decide), if_pos rfl]
    case lockstep => rw [State.lockstep_letRun, State.lockstep_strapped hrise']
    case evc => rw [State.evc_letRun, State.evc_strapped, hpull]
    case others =>
      obtain ⟨hstrap, hlockstep⟩ : a ≠ Reg.SYS_STRAP ∧ a ≠ Reg.HYC_LSCTL := by simpa using ha
      rw [State.reg_letRun, State.reg_strapped hrise', if_neg hlockstep, if_neg hstrap, hreg]

end Sys2Proof.Proofs
end

section
/-! SUPPORT. Where the package puts the general-purpose pins and the DDR signals (R502, R503, R506). -/

namespace Sys2Proof.Machine

/-! ### The signals that a formula places -/

/-- The signal is a general-purpose pin or one of a DDR channel: R503 and R506 place these by their numbers, the tables name the others. -/
def Signal.numbered : Signal → Bool
  | .pin _ | .ddr _ _ => true
  | .qvid _ _ | .qpg _ | .pair _ _ | .named _ | .rail _ => false

theorem numbered_of_mem_cornerBalls {row : List Signal} (hrow : row ∈ cornerBalls) {σ : Signal} (h : σ ∈ row) : σ.numbered = false := by
  have hall : ∀ row ∈ cornerBalls, ∀ σ ∈ row, Signal.numbered σ = false := by simp [cornerBalls, Signal.numbered]
  exact hall row hrow σ h

theorem numbered_of_corner {i j : Nat} {σ : Signal} (h : (cornerBalls.getD i [])[j]? = some σ) : σ.numbered = false := by
  have hmem := List.mem_of_getElem? h
  rw [List.getD_eq_getElem?_getD] at hmem
  cases hrow : cornerBalls[i]? with
  | none => simp [hrow] at hmem
  | some row =>
    have hin : σ ∈ row := by simpa [hrow] using hmem
    exact numbered_of_mem_cornerBalls (List.mem_of_getElem? hrow) hin

theorem numbered_of_columnFour {i : Nat} {σ : Signal} (h : columnFour[i]? = some σ) : σ.numbered = false := by
  have hall : ∀ σ ∈ columnFour, Signal.numbered σ = false := by simp [columnFour, Signal.numbered]
  exact hall σ (List.mem_of_getElem? h)

theorem numbered_of_rowD {i : Nat} {σ : Signal} (h : rowD[i]? = some σ) : σ.numbered = false := by
  obtain ⟨name, -, rfl⟩ := List.mem_map.1 (List.mem_of_getElem? h)
  rfl

theorem numbered_of_serialBall {k col : Nat} {σ : Signal} (h : serialBall k col = some σ) : σ.numbered = false := by
  unfold serialBall at h
  split at h
  · obtain ⟨pair, -, rfl⟩ := Option.map_eq_some_iff.1 h
    rfl
  split at h
  · cases h
    rfl
  · obtain ⟨names, -, rfl⟩ := Option.map_eq_some_iff.1 h
    rfl

/-! ### The regions of the array -/

theorem signalBall_of_ddrRows {k col : Nat} (hk : 26 ≤ k) (hlo : 5 ≤ col) (hhi : col < 38) :
    signalBall k col = if hn : 33 * ((k - 26) % 4) + (col - 5) < 129 then
      some (.ddr ⟨(41 - k) / 4 % 4, by omega⟩ ⟨33 * ((k - 26) % 4) + (col - 5), hn⟩) else none := by
  unfold signalBall
  rw [if_neg (by omega), dif_pos ⟨hk, hlo⟩]

theorem signalBall_of_pinRows {k col : Nat} (hk : 1 ≤ k ∧ k ≤ 3) (hcol : 5 ≤ col ∧ col ≤ 36) :
    signalBall k col = some (.pin ⟨32 * (k - 1) + (col - 5), by omega⟩) := by
  unfold signalBall
  rw [if_neg (by omega), dif_neg (by omega), dif_pos ⟨hk.2, hcol.1, hcol.2, hk.1⟩]

theorem signalBall_of_pinColumns {k col : Nat} (hk : 5 ≤ k ∧ k ≤ 36) (hcol : 1 ≤ col ∧ col ≤ 2) :
    signalBall k col = some (.pin ⟨32 * (col + 2) + (k - 5), by omega⟩) := by
  unfold signalBall
  rw [if_neg (by omega), dif_neg (by omega), dif_neg (by omega), dif_pos ⟨hcol.2, hk.1, hk.2, hcol.1⟩]

/-- Outside the rows and columns of R503 and R506 a ball's signal stands in a table of R504 or R505. -/
theorem region_of_numbered {k col : Nat} {σ : Signal} (h : signalBall k col = some σ) (hσ : σ.numbered = true) :
    (26 ≤ k ∧ 5 ≤ col ∧ col < 38) ∨ ((1 ≤ k ∧ k ≤ 3) ∧ 5 ≤ col ∧ col ≤ 36) ∨ ((5 ≤ k ∧ k ≤ 36) ∧ 1 ≤ col ∧ col ≤ 2) := by
  have hnot : ¬ σ.numbered = false := by simp [hσ]
  unfold signalBall at h
  split_ifs at h with hserial hddr hn hrows hcols hcorner hmdat hfour hD hquad
  · exact absurd (numbered_of_serialBall h) hnot
  · exact .inl ⟨hddr.1, hddr.2, by omega⟩
  · exact .inr (.inl (by omega))
  · exact .inr (.inr (by omega))
  · exact absurd (numbered_of_corner h) hnot
  · cases h
    cases hσ
  · exact absurd (numbered_of_columnFour h) hnot
  · exact absurd (numbered_of_rowD h) hnot
  · cases h
    cases hσ
  · cases h
    cases hσ

/-! ### The balls -/

theorem ball_isSome_iff (k col : Nat) : (ball k col).isSome = true ↔ 1 ≤ k ∧ k ≤ 41 ∧ 1 ≤ col ∧ col ≤ 41 := by
  unfold ball
  split_ifs with h <;> simp [h]

theorem ball_eq_some_iff_of_numbered {σ : Signal} (hσ : σ.numbered = true) (k col : Nat) :
    ball k col = some σ ↔ (1 ≤ k ∧ k ≤ 41 ∧ 1 ≤ col ∧ col ≤ 41) ∧ signalBall k col = some σ := by
  have hrail (r : Rail) : Signal.rail r ≠ σ := by rintro rfl; cases hσ
  unfold ball
  cases signalBall k col <;> simp [hrail]

/-- The place of a pin (R503): row `port` + 1 for PA to PC, column `port` - 2 for PD and PE. -/
theorem ball_eq_pin_iff {port : Fin 5} {i : Fin 32} {p : Fin 160} (hp : p.val = 32 * port.val + i.val) (k col : Nat) :
    ball k col = some (.pin p) ↔
      if port.val < 3 then k = port.val + 1 ∧ col = 5 + i.val else k = 5 + i.val ∧ col = port.val - 2 := by
  rw [ball_eq_some_iff_of_numbered rfl]
  constructor
  · rintro ⟨-, h⟩
    obtain ⟨hk, hlo, hhi⟩ | ⟨hk, hcol⟩ | ⟨hk, hcol⟩ := region_of_numbered h rfl
    · rw [signalBall_of_ddrRows hk hlo hhi] at h
      split_ifs at h
      cases h
    · rw [signalBall_of_pinRows hk hcol] at h
      cases h
      simp only at hp
      rw [if_pos (by omega)]
      omega
    · rw [signalBall_of_pinColumns hk hcol] at h
      cases h
      simp only at hp
      rw [if_neg (by omega)]
      omega
  · split_ifs with hport
    · rintro ⟨rfl, rfl⟩
      refine ⟨by omega, ?_⟩
      rw [signalBall_of_pinRows (by omega) (by omega)]
      simp only [Option.some.injEq, Signal.pin.injEq, Fin.ext_iff]
      omega
    · rintro ⟨rfl, rfl⟩
      refine ⟨by omega, ?_⟩
      rw [signalBall_of_pinColumns (by omega) (by omega)]
      simp only [Option.some.injEq, Signal.pin.injEq, Fin.ext_iff]
      omega

theorem ball_eq_ddr_iff (ch : Fin 4) (n : Fin 129) (k col : Nat) :
    ball k col = some (.ddr ch n) ↔ k = 38 - 4 * ch.val + n.val / 33 ∧ col = 5 + n.val % 33 := by
  rw [ball_eq_some_iff_of_numbered rfl]
  constructor
  · rintro ⟨harray, h⟩
    obtain ⟨hk, hlo, hhi⟩ | ⟨hk, hcol⟩ | ⟨hk, hcol⟩ := region_of_numbered h rfl
    · rw [signalBall_of_ddrRows hk hlo hhi] at h
      split_ifs at h
      cases h
      simp only
      omega
    · rw [signalBall_of_pinRows hk hcol] at h
      cases h
    · rw [signalBall_of_pinColumns hk hcol] at h
      cases h
  · rintro ⟨rfl, rfl⟩
    have hch := ch.isLt
    have hn := n.isLt
    refine ⟨by omega, ?_⟩
    have hnum : 33 * ((38 - 4 * ch.val + n.val / 33 - 26) % 4) + (5 + n.val % 33 - 5) = n.val := by omega
    have hchannel : (41 - (38 - 4 * ch.val + n.val / 33)) / 4 % 4 = ch.val := by omega
    rw [signalBall_of_ddrRows (by omega) (by omega) (by omega), dif_pos (by omega)]
    simp only [hnum, hchannel]

/-! ### The pins in a reset -/

theorem State.pinDrive_of_pinsReset {s : State} (h : s.pinsReset = true) (p : Nat) : s.pinDrive p = none := by
  unfold State.pinDrive
  rw [if_pos h]

/-- The code of TARGET 2 (R476, R514). -/
theorem State.qvid_reset (q : Fin 4) : (State.reset.quad q).qvid = 2 := by
  simp [State.quad, State.reset, Quad.reset]

theorem State.qvidLevel_reset (q : Fin 4) (j : Fin 3) : State.reset.qvidLevel q j = (j.val == 1) := by
  unfold State.qvidLevel
  rw [State.qvid_reset]
  revert j
  decide

end Sys2Proof.Machine
end

section
namespace Sys2Proof.Proofs
open Machine

/-- Settles O49: the places of the pins and of the DDR signals, the array, the pins in a reset, and the voltage code. -/
theorem ballsAndTheirReset : Obligations.BallsAndTheirReset := by
  refine ⟨fun _ _ _ => ball_eq_pin_iff, ball_eq_ddr_iff, ball_isSome_iff, fun s p h => ⟨State.pinDrive_of_pinsReset h p, ?_, ?_⟩,
    State.qvidLevel_reset⟩
  · intro hopen
    rw [State.ballLevel_of_pinsReset h, hopen]
    rfl
  · intro v hdriven
    rw [State.ballLevel_of_pinsReset h, hdriven]
    rfl

end Sys2Proof.Proofs
end
